-- ==== Sys2Proof/Word.lean ====
section
/-! DEFINITION. The word types of the TY4816 model. -/

namespace Sys2Proof

/-- A byte of memory, of a buffer or of an image. -/
abbrev Byte := BitVec 8

/-- A stored 64-bit word or a 64-bit register. -/
abbrev Word := BitVec 64

/-- A binary32 code (R50, format 0x34). -/
abbrev F32 := BitVec 32

end Sys2Proof
end

