-- ==== Sys2Proof/Syntax.lean ====
section
/-! DEFINITION. The commands of the TY4816: one constructor of Instr per row of spec/opcode_table.json. -/

namespace Sys2Proof

/-- The common fields of a descriptor (R297) and the ring it stands on. -/
structure Rc where
  ring   : Nat
  tag    : Nat
  irq    : Bool
  urgent : Bool
  wait   : Bool
  vector : Nat
  deriving DecidableEq, Repr

/-- The payload of RUN_HEATS (R300). -/
structure RunArgs where
  heatList      : Nat
  heats         : Nat
  recCount      : Nat
  recArea       : Nat
  numReplays    : Nat
  afterHalt     : Bool
  defaultPolicy : Bool
  replayLimit   : Nat
  seeds         : Nat
  deriving DecidableEq, Repr

/-- The payload of FLEET_JOIN (R314). -/
structure JoinArgs where
  peers    : Nat
  size     : Nat
  wire     : Nat
  deadline : Nat
  jobId    : Nat
  rxBase   : Nat
  rxLen    : Nat
  resBase  : Nat
  resLen   : Nat
  deriving DecidableEq, Repr

/-- The payload of FILL (R300): mode 0 CONST, 1 UNIFORM, 2 NORMAL. -/
structure FillArgs where
  dst    : Nat
  mode   : Nat
  sandId : Nat
  a      : F32
  func   : Nat
  heat   : Nat
  deriving DecidableEq, Repr

/-- A program that issues slot ops (R221): a core program by its logical core 64d + 8k + c, or an update-unit
program, 0 to 15 for CD0 to CD15 and 16 to 23 for MD0 to MD7. -/
inductive Prog where
  | core (i : Nat)
  | unit (u : Nat)
  deriving DecidableEq, Repr

/-- The common fields of a slot op (R222). -/
structure OpHead where
  aco : Nat
  acl : Nat
  lpf : Nat
  deriving DecidableEq, Repr

/-- The payload of F_MM, B_MM_IG and B_MM_WG (R222). -/
structure ProductArgs where
  odx  : Nat
  p    : Nat
  l    : Nat
  j    : Nat
  bank : Nat
  pair : Bool
  mask : Nat
  row0 : Nat
  rows : Nat
  deriving DecidableEq, Repr

/-- The payload of STASH_PUT, STASH_GET and SPILL (R222). -/
structure StashArgs where
  tensor : Nat
  first  : Nat
  tiles  : Nat
  ladle  : Nat
  deriving DecidableEq, Repr

/-- The payload of UPDATE (R222). -/
structure UpdateArgs where
  layer : Nat
  pass  : Nat
  step  : Nat
  first : Nat
  count : Nat
  deriving DecidableEq, Repr

/-- The answer to a host-memory access that the module made (R298). -/
inductive HostResp where
  | data (bytes : List Byte)
  | accepted
  | error
  deriving DecidableEq, Repr

/-- The readings at a telemetry update (R413, R428, R429): power in 10 W, voltage in 0.1 V, current in 0.1 A,
temperatures in degrees Celsius, and the two sense inputs as their pin levels. -/
structure Telemetry where
  inPower   : Nat
  inVolt    : Nat
  inCurr    : Nat
  cdTemp    : List Nat
  bdTemp    : List Nat
  mdTemp    : List Nat
  iodTemp   : Nat
  flowSense : Bool
  leakSense : Bool
  deriving DecidableEq, Repr

/-- The blocks with a COMMIT register (R395). -/
inductive CommitBlock where
  | pourSync
  | defaults
  | limits
  deriving DecidableEq, Repr

/-- The rings that the ring block enables (R402). -/
inductive RingSel where
  | sq (r : Nat)
  | cq
  | eq
  deriving DecidableEq, Repr

/-- The destinations of a slot op (R28): tiles of a tensor, accumulator banks of an engine, or a node given by its address and
length. -/
inductive OpDest where
  | tiles (tensor first n : Nat)
  | bank (engine bank : Nat)
  | node (addr len : Nat)
  deriving DecidableEq, Repr

/-- What kind of destinations two numbers give: a first tile and a number of tiles of a tensor, an engine and a bank, or an address and a
length. -/
inductive DestKind where
  | tiles (tensor : Nat)
  | bank
  | node
  deriving DecidableEq, Repr

/-- The destinations that a kind and two numbers give. -/
def DestKind.dest (k : DestKind) (a n : Nat) : OpDest :=
  match k with
  | .tiles t => .tiles t a n
  | .bank => .bank a n
  | .node => .node a n

/-- Who waits on a crossing (R346, R352). -/
inductive Requester where
  | slotOp (p : Prog) (d : OpDest)
  | copy (ring tag : Nat)
  | host (write : Bool) (addr : Nat)
  | firmware
  deriving DecidableEq, Repr

/-- One access of a private JTAG session to the store windows or to the debug state of a control core (R392). -/
inductive JtagAccess where
  | readWord (addr : Nat)
  | writeWord (addr : Nat) (value : Word)
  | readDebug (core reg : Nat)
  | writeDebug (core reg : Nat) (value : Word)
  deriving DecidableEq, Repr

/-- The commands. -/
inductive Instr where
  | nop (c : Rc)
  | loadPattern (c : Rc) (image length : Nat) (resetTrackers : Bool)
  | bindTensors (c : Rc) (list entries : Nat)
  | runHeats (c : Rc) (a : RunArgs)
  | suspend (c : Rc) (ring tag : Nat)
  | resume (c : Rc) (ring tag : Nat)
  | cancel (c : Rc) (ring tag : Nat)
  | saveContext (c : Rc) (area length : Nat) (host : Bool)
  | restoreContext (c : Rc) (area length : Nat) (host : Bool)
  | copy (c : Rc) (src dst : Nat) (perm : List Nat)
  | gather (c : Rc) (src dst : Nat) (perm : List Nat) (list entries : Nat) (listHost : Bool)
  | scatter (c : Rc) (src dst : Nat) (perm : List Nat) (list entries : Nat) (listHost : Bool)
  | fill (c : Rc) (a : FillArgs)
  | skim (c : Rc) (base length summary : Nat)
  | fenceUnit (c : Rc) (unit : Nat)
  | query (c : Rc) (code target out outLen : Nat)
  | setSeverity (c : Rc) (code sev : Nat)
  | ackEvent (c : Rc) (seq : Nat)
  | fleetJoin (c : Rc) (a : JoinArgs)
  | fleetLeave (c : Rc)
  | submissionDoorbell (ring value : Nat)
  | descriptorDispatch (ring : Nat)
  | completionHeadDoorbell (value : Nat)
  | eventHeadDoorbell (value : Nat)
  | interruptSend (vector : Nat)
  | hostTimeoutExpiry (id : Nat)
  | getIdentity (req : List Byte)
  | authNonce (req : List Byte)
  | auth (req : List Byte)
  | authLockoutExpiry
  | release (req : List Byte)
  | enrollKey (req : List Byte)
  | revokeKey (req : List Byte)
  | stageFirmware (req : List Byte)
  | advanceSvn (req : List Byte)
  | clearStartFail (req : List Byte)
  | resetModule (req : List Byte)
  | auditRead (req : List Byte)
  | auditCheckpoint (req : List Byte)
  | debugNonce (req : List Byte)
  | debugUnlock (req : List Byte)
  | getCerts (offset length : Nat)
  | attest (nonce : List Byte)
  | smbusBlockRead (command : Nat)
  | jtagBoundaryInstruction (clamp : Bool)
  | jtagPrivateSession (scope : Nat) (accesses : List JtagAccess)
  | commit (block : CommitBlock) (acBefore : Nat)
  | ringEnable (ring : RingSel)
  | ringDisable (ring : Nat)
  | severityMapWrite (w : Nat) (value : Word)
  | clearSticky
  | cancelClear
  | splitWrite
  | snooperRunWrite (snooper : Nat) (value : Word)
  | registerWrite (offset size : Nat) (value : Word)
  | installerFieldFlashWrite (ok : Bool)
  | hostMemRead (decoder offset length : Nat) (cached : Bool)
  | hostMemWrite (decoder offset : Nat) (data : List Byte)
  | hostSnoop (line : Nat)
  | bisnpResponse (line : Nat) (modified : Option (List Byte))
  | powerOn (volts10 : Nat)
  | inputShutdown
  | perstAssert
  | perstDeassert
  | cxlLinkLoss
  | cxlLinkTrained (speed width : Nat)
  | refclkLoss
  | thermTripInput
  | thermTripRelease (high : Bool)
  | stretchUpdate (t : Telemetry)
  | moduleReset (cause : Nat)
  | startStageDone (failed : List Nat) (ac : Nat)
  | startStageTimeout (cause unit ac : Nat)
  | managementWatchdog
  | controlCoreWatchdog (core pc : Nat)
  | controlCoreRestartDone (core : Nat)
  | controlCoreRestartTimeout (core : Nat)
  | restartQuietExpiry (core : Nat)
  | slotTick
  | opAbandon (p : Prog) (dest : DestKind) (first tiles : Nat) (hostError : Option (Nat × Bool))
  | fMm (core : Nat) (h : OpHead) (a : ProductArgs)
  | bMmIg (core : Nat) (h : OpHead) (a : ProductArgs)
  | bMmWg (core : Nat) (h : OpHead) (a : ProductArgs)
  | drainCfg (core : Nat) (h : OpHead) (cfg : Nat)
  | drain (core : Nat) (h : OpHead) (engine bank first tiles : Nat)
  | convert (core : Nat) (h : OpHead) (tensor first tiles : Nat)
  | stashPut (core : Nat) (h : OpHead) (a : StashArgs)
  | stashGet (core : Nat) (h : OpHead) (a : StashArgs)
  | spill (core : Nat) (h : OpHead) (a : StashArgs) (read : Bool)
  | linkSend (core : Nat) (h : OpHead) (linkEnd tensor first tiles : Nat)
  | linkReduce (core : Nat) (h : OpHead) (entry : Nat)
  | nodeAdd (core : Nat) (h : OpHead) (entry : Nat)
  | tokenWait (core : Nat) (h : OpHead) (token count : Nat)
  | tokenWaitTimeout (core : Nat)
  | tokenSignal (core : Nat) (h : OpHead) (die token : Nat) (atDone : Bool)
  | tokenIncrementArrival (die token : Nat)
  | recomputeAlt (core : Nat) (h : OpHead) (flag mask count : Nat)
  | suspendPoint (core : Nat) (h : OpHead) (point : Nat)
  | update (u : Nat) (h : OpHead) (a : UpdateArgs)
  | loop (p : Prog) (h : OpHead) (outer : Bool) (count : Nat) (increment : Int)
  | endloop (p : Prog)
  | tileRecompute (core : Nat)
  | verdictFix
  | pour
  | pourStepDone
  | pourSyncInEdge (level : Bool) (acBefore : Nat)
  | masterSyncPulse
  | syncWaitExpiry
  | fenceClockStop (unit : Nat)
  | fencePowerGate (unit : Nat)
  | cdcHandshakeTimeout (source far : Nat) (r : Requester)
  | remoteRegisterReadTimeout (offset : Nat)
  | linkCrcFail (linkEnd : Nat)
  | linkRetrainDone (link : Nat) (ok : Bool)
  | channelPhyRetrainDone (channel : Nat)
  | copyChunkDone (ring tag : Nat)
  | skimChunkDone (ring tag : Nat)
  | fleetUplink (tensor : Nat)
  | fleetMessageAccept (offset : Nat) (message : List Byte)
  | fleetReduceTile (t : Nat)
  | fleetWriteFailed (rank : Nat)
  | fleetStatusFreeze
  | fleetDeadlineExpiry
  | fleetVerdictEnd
  | hostAccessResponse (id : Nat) (r : HostResp)
  | contextTransferDone (ring tag : Nat)
  | tripTemperatureReached (unit : Nat)
  | refreshWindowEnd (bonded : Bool) (unit bank : Nat)
  | flashWritesAcceptedAgain
  | doeDiscovery
  | cdatTableAccess
  | hdmDecoderProgram (decoder base : Nat)
  | smbusOtherCommand
  deriving DecidableEq, Repr

end Sys2Proof
end

