-- ==== Sys2Proof/Decode.lean ====
section
/-! DEFINITION. Commands from words. The opcode table gives none of its rows any bits: every row is a command from outside,
not an encoded word, so no word spells a command. The descriptors of the submission rings are read in
Machine/Operands.lean. -/

namespace Sys2Proof

/-- The command that a word spells by the table's bits: none, since no row has bits. -/
def decodeTableWord (_nbits _w : Nat) : Option Instr := none

end Sys2Proof
end

