-- ==== Sys2Proof/Config.lean ====
section
/-! DEFINITION. What one part fixes and what the spec leaves open: constants without a body, so that nothing can be
proved of their values (log entries 7 and 18). -/

namespace Sys2Proof

/-- Holsaven's vendor ID (R399): the spec gives no number. Free, log 7. -/
opaque Config.vendorId : BitVec 16

/-- The die-set stepping (R399, "silicon"). Free, log 7. -/
opaque Config.stepping : BitVec 8

/-- The n-th 48-byte nonce that the module draws (R383, R392). Free, log 7. -/
opaque Config.nonce : Nat → BitVec 384

/-- The n-th ECDSA signature (r and s, 48 bytes each) that the identity key makes (R388, R391); the key is never
readable (R368). Free, log 18. -/
opaque Config.identitySignature : Nat → BitVec 768

/-- The public table of CDAT entries that a DOE read returns outside crucible mode (R285): its content is not in the
spec. Free, log 7. -/
opaque Config.cdatTable : Nat → BitVec 32

/-- SHA-384 of the firmware image that the part was shipped with (R391): its bytes are not in the spec. Free, log 1. -/
opaque Config.factoryHash : BitVec 384

/-- The runner capacity C that lies behind a copy descriptor which names no tensor of the loaded pattern: the descriptor
has no field for it (R74, R237). Free, log 28. -/
opaque Config.copyRunnerCap : BitVec 8

/-- The bytes of a token increment on its way to a die, by die and token: the spec gives none (R227, R363). Free, log 137. -/
opaque Config.tokenFlit : Nat → Nat → BitVec 64

/-- The index of that flit's block at a snooper: the spec gives a token no address (R365). Free, log 137. -/
opaque Config.tokenIndex : Nat → Nat → BitVec 48

/-- Does the loaded pattern convert the forward copy of a trained tensor under stochastic rounding? By image hash and tensor: R100
lets the pattern choose, and the image has no field for it (R218). Free, log 103. -/
opaque Config.updateSr : List (BitVec 8) → Nat → Bool

/-- The SAND_ID of that forward copy: R133 has one for each update-unit output, and the image no field for it. Free, log 103. -/
opaque Config.updateSand : List (BitVec 8) → Nat → BitVec 16

/-- Does the loaded pattern expect a tensor in the shape of a descriptor? By image hash, tensor and descriptor, for tensors whose
shapes the image does not hold (R301). Free, log 6. -/
opaque Config.expectsShape : List (BitVec 8) → Nat → List (BitVec 8) → Bool

/-- The value that an operation has where the spec states none, by a running number (log 7). -/
opaque Config.freeWord : Nat → BitVec 64

end Sys2Proof
end

