-- ==== Sys2Proof/Machine/Bits.lean ====
section
/-! DEFINITION. Bit fields, byte order and small list helpers that every other file of the machine uses. -/

namespace Sys2Proof.Machine

/-- Bits hi down to lo of a number, as the spec writes field ranges (Conventions of 00_scope). -/
def fld (v hi lo : Nat) : Nat := (v >>> lo) % 2 ^ (hi + 1 - lo)

/-- One bit of a number. -/
def bitOf (v i : Nat) : Bool := v.testBit i

/-- The number of bits up to the leading one: 0 for 0. -/
def bitLen (n : Nat) : Nat := if n = 0 then 0 else Nat.log2 n + 1

/-- Rounds up to a multiple of m (the spec's notation of R156). -/
def roundUp (x m : Nat) : Nat := (x + m - 1) / m * m

/-- ceil(x / m). -/
def ceilDiv (x m : Nat) : Nat := (x + m - 1) / m

/-- ceil(log2 n), 0 for n up to 1. -/
def clog2 (n : Nat) : Nat := bitLen (n - 1)

/-- A two's complement field of n bits as an integer. -/
def signedOf (n v : Nat) : Int := if v.testBit (n - 1) then (v % 2 ^ n : Int) - 2 ^ n else (v % 2 ^ n : Int)

/-- The two's complement field of n bits of an integer. -/
def ofSigned (n : Nat) (x : Int) : Nat := (x % (2 ^ n : Int)).toNat

/-- Arithmetic shift right, toward -infinity (R107). -/
def asr (x : Int) (k : Nat) : Int := x / 2 ^ k

/-- Clamps to a range. -/
def clampInt (lo hi x : Int) : Int := max lo (min hi x)

/-- Saturating addition for a counter of n bits. -/
def satAdd (n a b : Nat) : Nat := min (a + b) (2 ^ n - 1)

/-- The little-endian number of a byte list. -/
def leNat : List Byte → Nat
  | [] => 0
  | b :: bs => b.toNat + 256 * leNat bs

/-- The n little-endian bytes of a number. -/
def natLe : Nat → Nat → List Byte
  | 0, _ => []
  | n + 1, v => BitVec.ofNat 8 v :: natLe n (v / 256)

/-- The big-endian number of a byte list. -/
def beNat (bs : List Byte) : Nat := bs.foldl (fun acc b => acc * 256 + b.toNat) 0

/-- The n big-endian bytes of a number. -/
def natBe (n v : Nat) : List Byte := (natLe n v).reverse

/-- n zero bytes. -/
def zeros (n : Nat) : List Byte := List.replicate n 0

/-- Bytes at an offset; bytes beyond the list read 0. -/
def slice (bs : List Byte) (off n : Nat) : List Byte :=
  let t := (bs.drop off).take n
  t ++ zeros (n - t.length)

/-- A little-endian field of n bytes at an offset. -/
def u (bs : List Byte) (off n : Nat) : Nat := leNat (slice bs off n)

/-- Are all bytes at off, n of them, zero? -/
def zeroBytes (bs : List Byte) (off n : Nat) : Bool := (slice bs off n).all (· == 0)

/-- Replaces the bytes at an offset. -/
def patch (bs : List Byte) (off : Nat) (v : List Byte) : List Byte :=
  slice bs 0 off ++ v ++ bs.drop (off + v.length)

/-- ASCII bytes of a string. -/
def ascii (s : String) : List Byte := s.toList.map fun c => BitVec.ofNat 8 c.toNat

/-- The list element at i, or the default. -/
def nth {α : Type} [Inhabited α] (l : List α) (i : Nat) : α := l.getD i default

/-- The list with f applied to element i. -/
def setAt {α : Type} (l : List α) (i : Nat) (f : α → α) : List α :=
  match l, i with
  | [], _ => []
  | x :: xs, 0 => f x :: xs
  | x :: xs, k + 1 => x :: setAt xs k f

/-- The value filed under a key, or the default. -/
def look {κ α : Type} [DecidableEq κ] (d : α) (l : List (κ × α)) (k : κ) : α :=
  match l.find? (fun e => e.1 = k) with
  | some e => e.2
  | none => d

/-- Files a value under a key, in place of an earlier one. -/
def put {κ α : Type} [DecidableEq κ] (l : List (κ × α)) (k : κ) (v : α) : List (κ × α) :=
  match l with
  | [] => [(k, v)]
  | e :: es => if e.1 = k then (k, v) :: es else e :: put es k v

/-- Removes the value filed under a key. -/
def del {κ α : Type} [DecidableEq κ] (l : List (κ × α)) (k : κ) : List (κ × α) := l.filter fun e => e.1 ≠ k

/-- Adds a member to a collection without order or repeats. -/
def addTo {α : Type} [DecidableEq α] (l : List α) (x : α) : List α := if x ∈ l then l else l ++ [x]

/-- Inserts a number into an ascending list without repeats. -/
def insNat (x : Nat) : List Nat → List Nat
  | [] => [x]
  | y :: ys => if x < y then x :: y :: ys else if x = y then y :: ys else y :: insNat x ys

/-- Sorts numbers ascending without repeats. -/
def sortNat (l : List Nat) : List Nat := l.foldr insNat []

/-- Do two ranges (base, length) overlap? -/
def overlaps (a la b lb : Nat) : Bool := decide (a < b + lb) && decide (b < a + la)

/-- Splits a byte list into pieces of n bytes, at most fuel of them. -/
def chunksOf (n : Nat) : Nat → List Byte → List (List Byte)
  | 0, _ => []
  | k + 1, bs => slice bs 0 n :: chunksOf n k (bs.drop n)

/-- Adds up numbers. -/
def sumNat (l : List Nat) : Nat := l.foldl (· + ·) 0

end Sys2Proof.Machine
end

