-- ==== Sys2Proof/Machine/Crypto.lean ====
section
/-! DEFINITION. The check codes and the cryptography that the spec names: CRC-32C (R70), CRC-64 (R207), SHA-384 and
ECDSA on brainpoolP384r1 (R213, R368). The spec names the last two by their standards only (PRESUMED, log 8). -/

namespace Sys2Proof.Machine

/-- One bit step of CRC-32C: reflected polynomial of 0x1EDC_6F41 (R70). -/
def crc32cBit (c : BitVec 32) : BitVec 32 :=
  if c.getLsbD 0 then (c >>> 1) ^^^ 0x82F63B78#32 else c >>> 1

/-- One byte of CRC-32C, least significant bit first (R70). -/
def crc32cByte (c : BitVec 32) (b : Byte) : BitVec 32 :=
  let x := c ^^^ b.setWidth 32
  crc32cBit (crc32cBit (crc32cBit (crc32cBit (crc32cBit (crc32cBit (crc32cBit (crc32cBit x)))))))

/-- CRC-32C continued from the value of the bytes before (R364): run is read as if the stream ended there. -/
def crc32cFrom (run : BitVec 32) (bs : List Byte) : BitVec 32 := ~~~ (bs.foldl crc32cByte (~~~ run))

/-- CRC-32C (R70). -/
def crc32c (bs : List Byte) : BitVec 32 := crc32cFrom 0 bs

/-- One bit step of CRC-64 of ECMA-182 (R207). -/
def crc64Bit (c : BitVec 64) : BitVec 64 :=
  if c.getLsbD 63 then (c <<< 1) ^^^ 0x42F0E1EBA9EA3693#64 else c <<< 1

/-- One byte of CRC-64, most significant bit first (R207). -/
def crc64Byte (c : BitVec 64) (b : Byte) : BitVec 64 :=
  let x := c ^^^ (b.setWidth 64 <<< 56)
  crc64Bit (crc64Bit (crc64Bit (crc64Bit (crc64Bit (crc64Bit (crc64Bit (crc64Bit x)))))))

/-- CRC-64 continued from a value (R364). -/
def crc64From (run : BitVec 64) (bs : List Byte) : BitVec 64 := bs.foldl crc64Byte run

/-- CRC-64 (R207). -/
def crc64 (bs : List Byte) : BitVec 64 := crc64From 0 bs

/-- Does a section close with the CRC-64 of the bytes before it (R207)? The CRC is stored little-endian. -/
def sectionCrcOk (bs : List Byte) : Bool :=
  decide (8 ≤ bs.length) && decide ((crc64 (bs.take (bs.length - 8))).toNat = leNat (bs.drop (bs.length - 8)))

/-- The round constants of the SHA-512 family. -/
def sha512K0 : List (BitVec 64) :=
  [0x428A2F98D728AE22#64, 0x7137449123EF65CD#64, 0xB5C0FBCFEC4D3B2F#64, 0xE9B5DBA58189DBBC#64,
   0x3956C25BF348B538#64, 0x59F111F1B605D019#64, 0x923F82A4AF194F9B#64, 0xAB1C5ED5DA6D8118#64,
   0xD807AA98A3030242#64, 0x12835B0145706FBE#64, 0x243185BE4EE4B28C#64, 0x550C7DC3D5FFB4E2#64,
   0x72BE5D74F27B896F#64, 0x80DEB1FE3B1696B1#64, 0x9BDC06A725C71235#64, 0xC19BF174CF692694#64,
   0xE49B69C19EF14AD2#64, 0xEFBE4786384F25E3#64, 0x0FC19DC68B8CD5B5#64, 0x240CA1CC77AC9C65#64]

/-- The round constants of the SHA-512 family. -/
def sha512K1 : List (BitVec 64) :=
  [0x2DE92C6F592B0275#64, 0x4A7484AA6EA6E483#64, 0x5CB0A9DCBD41FBD4#64, 0x76F988DA831153B5#64,
   0x983E5152EE66DFAB#64, 0xA831C66D2DB43210#64, 0xB00327C898FB213F#64, 0xBF597FC7BEEF0EE4#64,
   0xC6E00BF33DA88FC2#64, 0xD5A79147930AA725#64, 0x06CA6351E003826F#64, 0x142929670A0E6E70#64,
   0x27B70A8546D22FFC#64, 0x2E1B21385C26C926#64, 0x4D2C6DFC5AC42AED#64, 0x53380D139D95B3DF#64,
   0x650A73548BAF63DE#64, 0x766A0ABB3C77B2A8#64, 0x81C2C92E47EDAEE6#64, 0x92722C851482353B#64]

/-- The round constants of the SHA-512 family. -/
def sha512K2 : List (BitVec 64) :=
  [0xA2BFE8A14CF10364#64, 0xA81A664BBC423001#64, 0xC24B8B70D0F89791#64, 0xC76C51A30654BE30#64,
   0xD192E819D6EF5218#64, 0xD69906245565A910#64, 0xF40E35855771202A#64, 0x106AA07032BBD1B8#64,
   0x19A4C116B8D2D0C8#64, 0x1E376C085141AB53#64, 0x2748774CDF8EEB99#64, 0x34B0BCB5E19B48A8#64,
   0x391C0CB3C5C95A63#64, 0x4ED8AA4AE3418ACB#64, 0x5B9CCA4F7763E373#64, 0x682E6FF3D6B2B8A3#64,
   0x748F82EE5DEFB2FC#64, 0x78A5636F43172F60#64, 0x84C87814A1F0AB72#64, 0x8CC702081A6439EC#64]

/-- The round constants of the SHA-512 family. -/
def sha512K3 : List (BitVec 64) :=
  [0x90BEFFFA23631E28#64, 0xA4506CEBDE82BDE9#64, 0xBEF9A3F7B2C67915#64, 0xC67178F2E372532B#64,
   0xCA273ECEEA26619C#64, 0xD186B8C721C0C207#64, 0xEADA7DD6CDE0EB1E#64, 0xF57D4F7FEE6ED178#64,
   0x06F067AA72176FBA#64, 0x0A637DC5A2C898A6#64, 0x113F9804BEF90DAE#64, 0x1B710B35131C471B#64,
   0x28DB77F523047D84#64, 0x32CAAB7B40C72493#64, 0x3C9EBE0A15C9BEBC#64, 0x431D67C49C100D4C#64,
   0x4CC5D4BECB3E42B6#64, 0x597F299CFC657E2A#64, 0x5FCB6FAB3AD6FAEC#64, 0x6C44198C4A475817#64]

/-- The round constants of the SHA-512 family. -/
def sha512K : List (BitVec 64) := sha512K0 ++ sha512K1 ++ sha512K2 ++ sha512K3

/-- The initial hash value of SHA-384. -/
def sha384H : List (BitVec 64) :=
  [0xCBBB9D5DC1059ED8#64, 0x629A292A367CD507#64, 0x9159015A3070DD17#64, 0x152FECD8F70E5939#64,
   0x67332667FFC00B31#64, 0x8EB44A8768581511#64, 0xDB0C2E0D64F98FA7#64, 0x47B5481DBEFA4FA4#64]

/-- Rotation right of a 64-bit word. -/
def rotr (x : BitVec 64) (n : Nat) : BitVec 64 := (x >>> n) ||| (x <<< (64 - n))

/-- Extends the sixteen words of a block: the list holds the last sixteen words, newest last. -/
def shaExtend : Nat → List (BitVec 64) → List (BitVec 64) → List (BitVec 64)
  | 0, _, acc => acc
  | n + 1, win, acc =>
    let w15 := nth win 1
    let w2 := nth win 14
    let s0 := rotr w15 1 ^^^ rotr w15 8 ^^^ (w15 >>> 7)
    let s1 := rotr w2 19 ^^^ rotr w2 61 ^^^ (w2 >>> 6)
    let w := nth win 0 + s0 + nth win 9 + s1
    shaExtend n (win.drop 1 ++ [w]) (acc ++ [w])

/-- The eight working words of SHA-512. -/
structure ShaState where
  a : BitVec 64
  b : BitVec 64
  c : BitVec 64
  d : BitVec 64
  e : BitVec 64
  f : BitVec 64
  g : BitVec 64
  h : BitVec 64
  deriving DecidableEq, Repr

/-- One round of SHA-512. -/
def shaRound (s : ShaState) (kw : BitVec 64 × BitVec 64) : ShaState :=
  let S1 := rotr s.e 14 ^^^ rotr s.e 18 ^^^ rotr s.e 41
  let ch := (s.e &&& s.f) ^^^ ((~~~ s.e) &&& s.g)
  let t1 := s.h + S1 + ch + kw.1 + kw.2
  let S0 := rotr s.a 28 ^^^ rotr s.a 34 ^^^ rotr s.a 39
  let mj := (s.a &&& s.b) ^^^ (s.a &&& s.c) ^^^ (s.b &&& s.c)
  ⟨t1 + S0 + mj, s.a, s.b, s.c, s.d + t1, s.e, s.f, s.g⟩

/-- One block of SHA-512. -/
def shaBlock (s : ShaState) (block : List Byte) : ShaState :=
  let w16 := (chunksOf 8 16 block).map fun b => BitVec.ofNat 64 (beNat b)
  let w := shaExtend 64 w16 w16
  let r := (sha512K.zip w).foldl shaRound s
  ⟨s.a + r.a, s.b + r.b, s.c + r.c, s.d + r.d, s.e + r.e, s.f + r.f, s.g + r.g, s.h + r.h⟩

/-- SHA-384 as 48 bytes. -/
def sha384 (bs : List Byte) : List Byte :=
  let n := bs.length
  let k := (111 + 128 - n % 128) % 128
  let padded := bs ++ [0x80#8] ++ zeros k ++ natBe 16 (8 * n)
  let init : ShaState := ⟨nth sha384H 0, nth sha384H 1, nth sha384H 2, nth sha384H 3, nth sha384H 4, nth sha384H 5,
    nth sha384H 6, nth sha384H 7⟩
  let r := (chunksOf 128 (padded.length / 128) padded).foldl shaBlock init
  ([r.a, r.b, r.c, r.d, r.e, r.f].map fun x => natBe 8 x.toNat).flatten

/-- The KEY_ID of an encoded public key (R368): bytes 0 to 15 of its SHA-384. -/
def keyIdOf (enc : List Byte) : List Byte := (sha384 enc).take 16

/-- The field prime of brainpoolP384r1. -/
def ecP : Nat := 0x8CB91E82A3386D280F5D6F7E50E641DF152F7109ED5456B412B1DA197FB71123ACD3A729901D1A71874700133107EC53

/-- The curve coefficient a. -/
def ecA : Nat := 0x7BC382C63D8C150C3C72080ACE05AFA0C2BEA28E4FB22787139165EFBA91F90F8AA5814A503AD4EB04A8C7DD22CE2826

/-- The curve coefficient b. -/
def ecB : Nat := 0x04A8C7DD22CE28268B39B55416F0447C2FB77DE107DCD2A62E880EA53EEB62D57CB4390295DBC9943AB78696FA504C11

/-- The generator's x. -/
def ecGx : Nat := 0x1D1C64F068CF45FFA2A63A81B7C13F6B8847A3E77EF14FE3DB7FCAFE0CBD10E8E826E03436D646AAEF87B2E247D4AF1E

/-- The generator's y. -/
def ecGy : Nat := 0x8ABE1D7520F9C2A45CB1EB8E95CFD55262B70B29FEEC5864E19C054FF99129280E4646217791811142820341263C5315

/-- The order of the generator. -/
def ecN : Nat := 0x8CB91E82A3386D280F5D6F7E50E641DF152F7109ED5456B31F166E6CAC0425A7CF3AB6AF6B7FC3103B883202E9046565

/-- Subtraction modulo the field prime. -/
def ecSub (x y : Nat) : Nat := (x + ecP - y % ecP) % ecP

/-- A point in Jacobian coordinates; z = 0 is the point at infinity. -/
structure EcPoint where
  x : Nat
  y : Nat
  z : Nat
  deriving DecidableEq, Repr

/-- The point at infinity. -/
def ecInf : EcPoint := ⟨1, 1, 0⟩

/-- Doubling. -/
def ecDouble (p : EcPoint) : EcPoint :=
  if p.z = 0 ∨ p.y = 0 then ecInf else
  let yy := p.y * p.y % ecP
  let s := 4 * p.x * yy % ecP
  let zz := p.z * p.z % ecP
  let m := (3 * p.x * p.x + ecA * (zz * zz % ecP)) % ecP
  let x := ecSub (m * m) (2 * s)
  let y := ecSub (m * ecSub s x) (8 * (yy * yy % ecP))
  ⟨x, y, 2 * p.y * p.z % ecP⟩

/-- Addition. -/
def ecAdd (p q : EcPoint) : EcPoint :=
  if p.z = 0 then q else if q.z = 0 then p else
  let z1 := p.z * p.z % ecP
  let z2 := q.z * q.z % ecP
  let u1 := p.x * z2 % ecP
  let u2 := q.x * z1 % ecP
  let s1 := p.y * (z2 * q.z % ecP) % ecP
  let s2 := q.y * (z1 * p.z % ecP) % ecP
  if u1 = u2 then (if s1 = s2 then ecDouble p else ecInf) else
  let h := ecSub u2 u1
  let r := ecSub s2 s1
  let hh := h * h % ecP
  let hhh := hh * h % ecP
  let v := u1 * hh % ecP
  let x := ecSub (r * r) (hhh + 2 * v)
  let y := ecSub (r * ecSub v x) (s1 * hhh)
  ⟨x, y, p.z * q.z % ecP * h % ecP⟩

/-- k1 times p plus k2 times q, over the top bits of both factors. -/
def ecMul2 (k1 k2 : Nat) (p q pq : EcPoint) : Nat → EcPoint → EcPoint
  | 0, acc => acc
  | n + 1, acc =>
    let d := ecDouble acc
    let acc' := match k1.testBit n, k2.testBit n with
      | true, true => ecAdd d pq
      | true, false => ecAdd d p
      | false, true => ecAdd d q
      | false, false => d
    ecMul2 k1 k2 p q pq n acc'

/-- b to the power e modulo m, over the low n bits of e from the top. -/
def powModGo (b e m : Nat) : Nat → Nat → Nat
  | 0, acc => acc
  | n + 1, acc =>
    let sq := acc * acc % m
    powModGo b e m n (if e.testBit n then sq * b % m else sq)

/-- The inverse modulo a prime, by Fermat. -/
def invMod (b m : Nat) : Nat := powModGo (b % m) (m - 2) m 384 1

/-- The coordinates of an encoded public key (R368): 0x04, X and Y of 48 bytes each, on the curve (R382). -/
def ecDecode (enc : List Byte) : Option EcPoint :=
  let x := beNat (slice enc 1 48)
  let y := beNat (slice enc 49 48)
  if enc.length = 97 ∧ nth enc 0 = 4#8 ∧ x < ecP ∧ y < ecP ∧ y * y % ecP = (x * x % ecP * x + ecA * x + ecB) % ecP
  then some ⟨x, y, 1⟩ else none

/-- Does an ECDSA signature (r, s of 48 bytes, big-endian) over a message verify under an encoded key? -/
def ecdsaVerify (enc msg rb sb : List Byte) : Bool :=
  match ecDecode enc with
  | none => false
  | some q =>
    let r := beNat rb
    let s := beNat sb
    if r = 0 ∨ s = 0 ∨ ecN ≤ r ∨ ecN ≤ s then false else
    let e := beNat (sha384 msg)
    let w := invMod s ecN
    let u1 := e * w % ecN
    let u2 := r * w % ecN
    let g : EcPoint := ⟨ecGx, ecGy, 1⟩
    let p := ecMul2 u1 u2 g q (ecAdd g q) 384 ecInf
    if p.z = 0 then false else
    let zi := invMod p.z ecP
    decide (p.x * (zi * zi % ecP) % ecP % ecN = r)

end Sys2Proof.Machine
end

