-- ==== Sys2Proof/Machine/Fp.lean ====
section
/-! DEFINITION. Binary32 arithmetic and the plain IEEE conversions (R57, R58, R92, R95, R96, R98 to R100): values are
taken apart into integers, computed exactly, and rounded once. -/

namespace Sys2Proof.Machine

/-- A floating value taken apart: NaN, an infinity, or (-1)^s * m * 2^e. Zero keeps its sign. -/
inductive FV where
  | nan
  | inf (s : Bool)
  | fin (s : Bool) (m : Nat) (e : Int)
  deriving DecidableEq, Repr, Inhabited

/-- An IEEE layout with the implicit bit: p significand bits, least exponent emin of a unit, and the code of
infinity (R57). -/
structure Ieee where
  p    : Nat
  emin : Int
  inf  : Nat
  sign : Nat
  nan  : Nat
  deriving DecidableEq, Repr

/-- binary32. -/
def ieee32 : Ieee := ⟨24, -149, 0x7F800000, 31, 0x7FC00000⟩
/-- BF16. -/
def ieeeBf16 : Ieee := ⟨8, -133, 0x7F80, 15, 0x7FC0⟩
/-- GE5M2 (R57, canonical NaN of R58). -/
def ieeeGe5m2 : Ieee := ⟨3, -16, 0x7C, 7, 0x7E⟩
/-- GE6M5 (R57, canonical NaN of R58). -/
def ieeeGe6m5 : Ieee := ⟨6, -35, 0x7E0, 11, 0x7F0⟩

/-- Takes a code apart. Every NaN reads as the canonical one (R58). -/
def Ieee.dec (f : Ieee) (c : Nat) : FV :=
  let s := c.testBit f.sign
  let mag := c % 2 ^ f.sign
  let frac := mag % 2 ^ (f.p - 1)
  let ex := mag / 2 ^ (f.p - 1)
  if mag = f.inf then .inf s
  else if f.inf < mag then .nan
  else if ex = 0 then .fin s frac f.emin
  else .fin s (2 ^ (f.p - 1) + frac) (f.emin + (ex - 1 : Nat))

/-- m * 2^-k rounded to nearest, ties to even. -/
def rneShift (m k : Nat) : Nat :=
  let q := m >>> k
  let r := m % 2 ^ k
  let h := 2 ^ k / 2
  if k = 0 then m else if r > h ∨ (r = h ∧ q % 2 = 1) then q + 1 else q

/-- The code of a finite magnitude rounded to nearest even, overflow to infinity, subnormals kept (R98). -/
def Ieee.roundMag (f : Ieee) (m : Nat) (e : Int) : Nat :=
  if m = 0 then 0 else
  let q := max (e + bitLen m - f.p) f.emin
  let k := (q - e).toNat
  let r := if q < e then m <<< (e - q).toNat else rneShift m k
  min ((q - f.emin).toNat * 2 ^ (f.p - 1) + r) f.inf

/-- The code of a value rounded to nearest even; NaN gives the canonical one (R58). -/
def Ieee.enc (f : Ieee) : FV → Nat
  | .nan => f.nan
  | .inf s => f.inf + (if s then 2 ^ f.sign else 0)
  | .fin s m e => f.roundMag m e + (if s then 2 ^ f.sign else 0)

/-- binary32 of a code. -/
def fv (x : F32) : FV := ieee32.dec x.toNat

/-- Rounds to binary32. -/
def rne32 (v : FV) : F32 := BitVec.ofNat 32 (ieee32.enc v)

/-- The canonical NaN of binary32 (R58). -/
def nan32 : F32 := 0x7FC00000
/-- +0. -/
def zero32 : F32 := 0

/-- A signed integer times a power of two. An exact zero is +0 (R95). -/
def ofDyadic (m : Int) (e : Int) : FV := .fin (decide (m < 0)) m.natAbs e

/-- The signed significand of a finite value. -/
def signedM (s : Bool) (m : Nat) : Int := if s then -(m : Int) else m

/-- Exact negation. -/
def FV.neg : FV → FV
  | .nan => .nan
  | .inf s => .inf (!s)
  | .fin s m e => .fin (!s) m e

/-- Exact magnitude. -/
def FV.abs : FV → FV
  | .nan => .nan
  | .inf _ => .inf false
  | .fin _ m e => .fin false m e

/-- Exact sum with the IEEE special values: x + (-x) is +0, -0 + -0 is -0. -/
def FV.add : FV → FV → FV
  | .nan, _ => .nan
  | _, .nan => .nan
  | .inf s, .inf t => if s = t then .inf s else .nan
  | .inf s, _ => .inf s
  | _, .inf s => .inf s
  | .fin s m e, .fin t n f =>
    if m = 0 ∧ n = 0 then .fin (s && t) 0 0 else
    let g := min e f
    ofDyadic (signedM s m * 2 ^ (e - g).toNat + signedM t n * 2 ^ (f - g).toNat) g

/-- Exact product with the IEEE special values. -/
def FV.mul : FV → FV → FV
  | .nan, _ => .nan
  | _, .nan => .nan
  | .inf s, .inf t => .inf (s != t)
  | .inf s, .fin t n _ => if n = 0 then .nan else .inf (s != t)
  | .fin s m _, .inf t => if m = 0 then .nan else .inf (s != t)
  | .fin s m e, .fin t n f => .fin (s != t) (m * n) (e + f)

/-- A quotient to more than 32 significant bits with a sticky bit below, so that one rounding after it is correct. -/
def FV.div : FV → FV → FV
  | .nan, _ => .nan
  | _, .nan => .nan
  | .inf _, .inf _ => .nan
  | .inf s, .fin t _ _ => .inf (s != t)
  | .fin s _ _, .inf t => .fin (s != t) 0 0
  | .fin s m e, .fin t n f =>
    if n = 0 then (if m = 0 then .nan else .inf (s != t)) else
    let k := bitLen n + 32
    let q := (m <<< k) / n
    let r := (m <<< k) % n
    .fin (s != t) (2 * q + (if r = 0 then 0 else 1)) (e - f - k - 1)

/-- floor of the square root, one result bit at a time from bit k - 1 down. -/
def isqrtGo (n : Nat) : Nat → Nat → Nat
  | 0, acc => acc
  | k + 1, acc =>
    let c := acc + 2 ^ k
    isqrtGo n k (if c * c ≤ n then c else acc)

/-- floor of the square root. -/
def isqrt (n : Nat) : Nat := isqrtGo n (bitLen n / 2 + 1) 0

/-- A square root with a sticky bit, so that one rounding after it is correct; -0 gives -0, a negative value NaN. -/
def FV.sqrt : FV → FV
  | .nan => .nan
  | .inf s => if s then .nan else .inf false
  | .fin s m e =>
    if m = 0 then .fin s 0 0 else if s then .nan else
    let k := if (e - 64) % 2 = 0 then 64 else 65
    let n := m <<< k
    let r := isqrt n
    .fin false (2 * r + (if r * r = n then 0 else 1)) ((e - k) / 2 - 1)

/-- Three-way comparison of finite values and infinities; NaN compares as none. -/
def FV.cmp : FV → FV → Option Ordering
  | .nan, _ => none
  | _, .nan => none
  | .inf s, .inf t => some (if s = t then .eq else if s then .lt else .gt)
  | .inf s, .fin _ _ _ => some (if s then .lt else .gt)
  | .fin _ _ _, .inf t => some (if t then .gt else .lt)
  | .fin s m e, .fin t n f =>
    let g := min e f
    some (compare (signedM s m * 2 ^ (e - g).toNat) (signedM t n * 2 ^ (f - g).toNat))

/-- Is x below y? False with a NaN. -/
def FV.lt (x y : FV) : Bool := FV.cmp x y == some .lt
/-- Is x at most y? False with a NaN. -/
def FV.le (x y : FV) : Bool := FV.cmp x y == some .lt || FV.cmp x y == some .eq

/-- Is the value zero, of either sign? -/
def FV.isZero : FV → Bool
  | .fin _ m _ => m == 0
  | _ => false
/-- Is the value finite? -/
def FV.isFin : FV → Bool
  | .fin _ _ _ => true
  | _ => false
/-- Is it a NaN? -/
def FV.isNan : FV → Bool
  | .nan => true
  | _ => false
/-- The sign of a value; a NaN counts as positive (R99). -/
def FV.sgn : FV → Bool
  | .nan => false
  | .inf s => s
  | .fin s _ _ => s

/-- Addition, rounded to nearest even. -/
def fadd (x y : F32) : F32 := rne32 (FV.add (fv x) (fv y))
/-- Subtraction. -/
def fsub (x y : F32) : F32 := rne32 (FV.add (fv x) (FV.neg (fv y)))
/-- Multiplication. -/
def fmul (x y : F32) : F32 := rne32 (FV.mul (fv x) (fv y))
/-- Division. -/
def fdiv (x y : F32) : F32 := rne32 (FV.div (fv x) (fv y))
/-- Square root. -/
def fsqrt (x : F32) : F32 := rne32 (FV.sqrt (fv x))
/-- Negation. -/
def fneg (x : F32) : F32 := rne32 (FV.neg (fv x))
/-- Magnitude. -/
def fabs (x : F32) : F32 := rne32 (FV.abs (fv x))
/-- Is the code a finite value? -/
def isFin32 (x : F32) : Bool := FV.isFin (fv x)
/-- Is the code a zero of either sign? -/
def isZero32 (x : F32) : Bool := FV.isZero (fv x)

/-- Maximum under R96: a NaN operand is ignored, max(+0, -0) is +0. -/
def fmax (x y : F32) : F32 :=
  match fv x, fv y with
  | .nan, .nan => nan32
  | .nan, _ => y
  | _, .nan => x
  | a, b => if FV.lt a b then y else if FV.lt b a then x else if FV.sgn a then y else x

/-- Minimum under R96. -/
def fmin (x y : F32) : F32 :=
  match fv x, fv y with
  | .nan, .nan => nan32
  | .nan, _ => y
  | _, .nan => x
  | a, b => if FV.lt a b then x else if FV.lt b a then y else if FV.sgn a then x else y

/-- BF16 of a code, as a value. -/
def fvBf (c : Nat) : FV := ieeeBf16.dec c
/-- Rounds to BF16, to nearest even. -/
def rneBf (v : FV) : Nat := ieeeBf16.enc v
/-- binary32 code of a BF16 code (exact; a NaN becomes the canonical one). -/
def bfTo32 (c : Nat) : F32 := rne32 (fvBf c)

/-- BF16 rounded toward +infinity, of a magnitude (TILE_MAX, R68): the least BF16 that is not below it; above the
largest finite one it is the infinity. NaN gives the canonical NaN. -/
def bfUp : FV → Nat
  | .nan => 0x7FC0
  | .inf _ => 0x7F80
  | .fin _ m e =>
    let c := rneBf (.fin false m e)
    if FV.lt (fvBf c) (.fin false m e) then c + 1 else c

/-- An error-compensating pair (R92). -/
structure Pair where
  hi : F32
  lo : F32
  deriving DecidableEq, Repr, Inhabited

/-- pair_add of R92, in the order written. -/
def pairAdd (a b : Pair) : Pair :=
  let s := fadd a.hi b.hi
  let bv := fsub s a.hi
  let e := fadd (fsub a.hi (fsub s bv)) (fsub b.hi bv)
  let e := fadd e (fadd a.lo b.lo)
  let hi := fadd s e
  let lo := fsub e (fsub hi s)
  if isFin32 hi then ⟨hi, lo⟩ else ⟨hi, zero32⟩

/-- Rounds to binary32 without a -0: no group sum is ever -0 (R95). -/
def rnePlus (v : FV) : F32 :=
  let x := rne32 v
  if x = 0x80000000 then zero32 else x

/-- A group value entering the tree as a pair (R92): hi is V rounded, lo the exact rest rounded. -/
def pairOf (v : FV) : Pair :=
  let hi := rnePlus v
  if isFin32 hi then ⟨hi, rnePlus (FV.add v (FV.neg (fv hi)))⟩ else ⟨hi, zero32⟩

/-- Base to the power t, t at least 1, by square-and-multiply from the most significant bit (R204, POWT). -/
def powtGo (x : F32) (t : Nat) : Nat → F32 → F32
  | 0, acc => acc
  | n + 1, acc =>
    let sq := fmul acc acc
    powtGo x t n (if t.testBit n then fmul sq x else sq)

/-- POWT (R204). For t = 0 the value is 1, which no update reaches, since t counts from 1 (R205). -/
def fpowt (x : F32) (t : Nat) : F32 :=
  if t = 0 then 0x3F800000 else powtGo x t (bitLen t - 1) x

/-- x scaled by a power of two, rounded to nearest even (R205). -/
def fscale (x : F32) (k : Int) : F32 :=
  match fv x with
  | .fin s m e => rne32 (.fin s m (e + k))
  | v => rne32 v

/-- 1.0. -/
def one32 : F32 := 0x3F800000

/-- A whole number as binary32. -/
def natTo32 (n : Nat) : F32 := rne32 (.fin false n 0)

end Sys2Proof.Machine
end

