-- ==== Sys2Proof/Machine/State.lean ====
section
/-! DEFINITION. The state of the module as plain data, group by group, and its value right after power-on reset
(log 1 and 2 name every value that the spec does not give). -/

namespace Sys2Proof.Machine

/-- Why the model stops. -/
inductive Fault where
  /-- Raised by POWER_ON when the input lies above the absolute maximum of 60 V: R420 says only that the module may be
  damaged. Safe: the model stops where the hardware has no stated behaviour. -/
  | inputDamage (volts10 : Nat)
  deriving DecidableEq, Repr

/-- Why the model gives a command no meaning. -/
inductive Refusal where
  /-- A command without a meaning in this model; raised by no arm once every meaning stands. Safe. -/
  | notModelled (mnemonic : String)
  deriving DecidableEq, Repr

/-! ## Fuses, boot record, keys -/

/-- The fuses (R368); the identity key itself is never readable and is no field. -/
structure Fuses where
  order       : Nat
  serial      : Nat
  fwKeyHash0  : List Byte
  fwKeyHash1  : List Byte
  fwKeyRevoke : Nat
  dbgKeyHash  : List Byte
  svn         : Nat
  deriving DecidableEq, Repr

/-- The state of a firmware slot (R370). -/
inductive SlotState where
  | empty
  | trial
  | active
  | backup
  | invalid
  deriving DecidableEq, Repr

/-- A firmware slot: its state, the bytes written so far, IMG_SVN, and the KEY_SLOT that signed it (R369 to R371). `factory` marks
the image that the part was shipped with: its signature checks, and the model does not hold its bytes (log 1). -/
structure FwSlot where
  state   : SlotState
  image   : List Byte
  svn     : Nat
  keySlot : Nat
  factory : Bool
  deriving DecidableEq, Repr

/-- The start, the boot record and the firmware slots (R367 to R380, R401). -/
structure Boot where
  stage             : Nat
  ready             : Bool
  crucible          : Nat
  timebase          : Nat
  resetCause        : Nat
  resetStart        : Nat
  s5Record          : List Byte
  startFail         : Nat
  failRecords       : List (List Byte)
  startNumber       : Nat
  failedSinceReady  : Nat
  trialInvalidated  : Bool
  slotFailedVerify  : Bool
  slotA             : FwSlot
  slotB             : FwSlot
  runSlot           : Nat
  runTrial          : Bool
  runSvn            : Nat
  runHash           : List Byte
  staging           : Option Nat
  stickyFences      : List Nat
  stickyFrames      : List Nat
  clearPending      : Bool
  certs             : List Byte
  /-- Holsaven's debug-unlock public key in the encoding of R368, which DEBUG_UNLOCK verifies with (log 22). -/
  dbgKey            : List Byte
  deriving DecidableEq, Repr

/-- An enrolled key (R382): its encoding, KEY_ID and role. -/
structure Key where
  enc  : List Byte
  id   : List Byte
  role : Nat
  deriving DecidableEq, Repr

/-- The security mailbox, sessions, roles, debug (R382 to R393, R415). -/
structure Mailbox where
  keys        : List Key
  code        : Nat
  reqLen      : Nat
  busy        : Bool
  status      : Nat
  respLen     : Nat
  request     : List Byte
  response    : List Byte
  session     : Nat
  sessionKey  : List Byte
  ringMask    : Nat
  authNonce   : Option (List Byte)
  debugNonce  : Option (List Byte)
  authFailRun : Nat
  authLocked  : Bool
  authFail    : Nat
  debugScope  : Nat
  jtagClamp   : Option Bool
  jtagCount   : Nat
  deriving DecidableEq, Repr

/-- An audit entry that waits until flash accepts writes again (R389). -/
structure Deferred where
  action : Nat
  role   : Nat
  status : Nat
  key    : List Byte
  object : List Byte
  deriving DecidableEq, Repr

/-- The audit log (R387 to R389). -/
structure Audit where
  entries     : List (List Byte)
  checkpoints : List (List Byte)
  seq         : Nat
  chain       : List Byte
  deferred    : List Deferred
  flashOk     : Bool
  deriving DecidableEq, Repr

/-! ## Pins and power -/

/-- The pins of R432 that carry a level. -/
structure Pins where
  perst       : Bool
  syncIn      : Bool
  syncOut     : Bool
  thermTrip   : Bool
  pwrGood     : Bool
  flowSense   : Bool
  leakSense   : Bool
  deriving DecidableEq, Repr

/-- Power, telemetry and the stretch controller (R413, R420 to R430). -/
structure Power where
  powered     : Bool
  railsOn     : Bool
  rawVolt     : Nat
  inPower     : Nat
  inVolt      : Nat
  inCurr      : Nat
  cdTemp      : List Nat
  bdTemp      : List Nat
  mdTemp      : List Nat
  iodTemp     : Nat
  flowOk      : Bool
  leakIn      : Bool
  tripHeld    : Bool
  sp          : Nat
  st          : List Nat
  atLimit     : List Bool
  pastStart   : List Bool
  flowLost    : Bool
  lowFlow     : Nat
  leak        : Bool
  nextStretch : Nat
  stretch     : Nat
  bdDoubled   : List Bool
  deriving DecidableEq, Repr

/-! ## The host port -/

/-- A command that a ring has fetched and not dispatched: none for a descriptor that R297 refuses (R293, R294). -/
structure Fetched where
  cmd    : Option Instr
  opc    : Nat
  rc     : Rc
  sqHead : Nat
  deriving DecidableEq, Repr

/-- A submission ring (R292 to R297, R402). -/
structure Ring where
  base     : Nat
  log2     : Nat
  enable   : Bool
  role     : Nat
  key      : List Byte
  head     : Nat
  tail     : Nat
  dbErr    : Nat
  fetching : Bool
  fetched  : List Fetched
  busy     : Bool
  counts   : List (Nat × Nat)
  deriving DecidableEq, Repr

/-- A record held for the completion ring (R296, R309). -/
structure Completion where
  tag     : Nat
  status  : Nat
  opc     : Nat
  ring    : Nat
  final   : Bool
  sqHead  : Nat
  detail0 : Nat
  detail1 : Nat
  irq     : Bool
  vector  : Nat
  deriving DecidableEq, Repr

/-- An event record (R310); `data` is DATA [511:256] as a number. -/
structure EventRec where
  seq       : Nat
  code      : Nat
  sev       : Nat
  escalated : Bool
  poison    : Bool
  unit      : Nat
  count     : Nat
  heatNum   : Nat
  slot      : Nat
  layer     : Nat
  data      : Nat
  deriving DecidableEq, Repr

/-- A record ring: the completion ring or the event ring (R296, R402). -/
structure RecRing where
  base   : Nat
  log2   : Nat
  enable : Bool
  tail   : Nat
  head   : Nat
  /-- Records written and not yet freed. -/
  used   : Nat
  phase  : Bool
  deriving DecidableEq, Repr

/-- Who made a host-memory access and what follows its answer (R298). -/
inductive Purpose where
  | descriptor (ring : Nat)
  | bindList (c : Rc) (entries sqHead : Nat)
  | peerTable (c : Rc) (a : JoinArgs) (sqHead : Nat)
  | queryOut (c : Rc) (len sqHead : Nat)
  | seedBlock
  | heatEntry (h : Nat)
  | heatRecord
  | image (ring id : Nat)
  | copySrc (ring id : Nat)
  | copyDst (ring id : Nat)
  | gatherList (ring id : Nat)
  | context (ring id : Nat)
  | skimSummary (ring id : Nat)
  | chunkLeaf (ring id : Nat)
  | chunkWrite (ring id : Nat)
  | posted
  | leaf
  | leafWrite (ev : Nat)
  deriving DecidableEq, Repr

/-- An outstanding access of the module to host memory (R298). -/
structure HostAcc where
  id      : Nat
  iova    : Nat
  len     : Nat
  write   : Bool
  purpose : Purpose
  deriving DecidableEq, Repr

/-- An entry of the MSI-X table (R287, R291). -/
structure MsixEntry where
  addr : Nat
  data : Nat
  mask : Bool
  deriving DecidableEq, Repr

/-- The CXL port, the rings and the interrupts (R285 to R298, R402). -/
structure Port where
  linkUp      : Bool
  ioOnly      : Bool
  speed       : Nat
  width       : Nat
  sq          : List Ring
  cq          : RecRing
  cqHeld      : List Completion
  eq          : RecRing
  eqHeld      : List EventRec
  eqLost      : Nat
  lostRun     : Nat
  evtVec      : Nat
  hostTimeout : Nat
  msix        : List MsixEntry
  msixPending : List Nat
  msixWindow  : List Nat
  msixDue     : List Nat
  hdm         : List (Option Nat)
  hostLines   : List Nat
  bisnp       : List Nat
  /-- Reads (decoder, offset, length) that wait for a line of the full snoop filter to come back (R290). -/
  waitReads   : List (Nat × Nat × Nat)
  hostAcc     : List HostAcc
  nextAcc     : Nat
  deriving DecidableEq, Repr

/-- What left the module: the model's output log. -/
inductive Out where
  | hostRead (id iova len : Nat)
  | hostWrite (iova : Nat) (bytes : List Byte)
  | msi (vector addr data : Nat)
  | memData (bytes : List Byte) (poison : List Bool)
  | memReject
  | writeDone (accepted : Bool)
  | snoopRsp (line : Nat)
  | bisnp (line : Nat)
  | doe (bytes : List Byte)
  | doeWords (words : List (BitVec 32))
  | smbus (bytes : List Byte)
  | smbusNack
  | uartStage (stage : Nat)
  | uartFailure (record : List Byte)
  | uartEvent (seq code sev : Nat)
  | peerWrite (addr : Nat) (bytes : List Byte)
  | syncPulse (advance : Nat)
  | jtagWord (value : Word)
  | tdoBypass
  deriving DecidableEq, Repr

/-! ## Registers -/

/-- The three copies of an RWS block, each a list of its registers (R359), with COMMIT_STATUS (R397). -/
structure Rws where
  shadow  : List Nat
  staged  : List Nat
  active  : List Nat
  pending : Bool
  late    : Bool
  status  : Nat
  deriving DecidableEq, Repr

/-- A snooper (R362 to R366, R414). -/
structure Snooper where
  mode   : Nat
  filt   : Nat
  mask   : Nat
  run    : Nat
  fp     : Nat
  blocks : Nat
  deriving DecidableEq, Repr

/-- The set-up registers that no other group holds (R394 to R414). -/
structure Regs where
  accessErr   : Nat
  rightsErr   : Nat
  pourSync    : Rws
  syncExtra   : Nat
  syncDiscard : Nat
  defaults    : Rws
  limits      : Rws
  policy      : Nat
  lpCfg       : Nat
  lpInForce   : Nat
  fillDone    : Bool
  fillTime    : Nat
  lpAct       : List Nat
  xlateRoot   : List Nat
  skimActive  : Bool
  skimChunks  : Nat
  cdcTimeout  : Nat
  splitA      : Nat
  splitD      : Nat
  splitD2     : Nat
  splitA2     : Nat
  splitX      : Nat
  splitStatus : Nat
  splitBusy   : Bool
  splitDone   : Nat
  snoopers    : List Snooper
  flashWrites : List (Nat × Nat)
  /-- FLEET_RANK as the key store area of flash holds it (R396). -/
  flashRank   : Nat
  deriving DecidableEq, Repr

/-! ## Events and fences -/

/-- Events, severities, escalation (R332 to R343, R407). -/
structure Events where
  nextSeq     : Nat
  openRecs    : List EventRec
  outstanding : List EventRec
  halts       : List Nat
  mfgHalt     : Bool
  sevSet      : List (Nat × Nat)
  sevForce    : List (Nat × Nat)
  counts      : List (Nat × Nat)
  /-- The record of an S5 event whose module reset ends the command that raised it (R338). -/
  resetDue    : Option (List Byte)
  deriving DecidableEq, Repr

/-- A fence in progress: the unit and whether its clocks have stopped (R345). -/
structure Fencing where
  unit    : Nat
  stopped : Bool
  cause   : Nat
  deriving DecidableEq, Repr

/-- A control core under restart (R357): tries so far, and whether it waits for the quiet time. -/
structure Restart where
  core  : Nat
  tries : Nat
  quiet : Bool
  deriving DecidableEq, Repr

/-- Fences, links and crossings (R344 to R358, R409). -/
structure Fences where
  fenced     : List Nat
  fencing    : List Fencing
  due        : List (Nat × Nat)
  dueFrames  : List Nat
  later      : List (Nat × Nat)
  laterFrames : List Nat
  retired    : List Nat
  linkDown   : List Nat
  crcRun     : List (Nat × Nat)
  retrain    : List Nat
  retrainBy  : List (Nat × Nat)
  retrainBad : List (Nat × Nat)
  restarts   : List Restart
  cdcDead    : List (Nat × Nat)
  /-- Channels whose PHY retrains its interface (R356; log 161). -/
  phyRetrain : List Nat
  deriving DecidableEq, Repr

/-! ## Memory -/

/-- A host window of BIND_TENSORS (R301). -/
structure HostWindow where
  va     : Nat
  iova   : Nat
  size   : Nat
  write  : Bool
  tensor : Nat
  deriving DecidableEq, Repr

/-- Memory by device physical address, the deviations of stored check bytes, the page tables' allocation cursors and
the row activation counts (R262 to R280). -/
structure Mem where
  cells     : List Host.Cell
  synd      : List (Nat × Nat)
  rowActs   : List (Nat × Nat)
  tableNext : List Nat
  windows   : List HostWindow
  /-- Frames given to plan regions: (device virtual frame, device physical frame) in 64 KiB units. -/
  frames    : List (Nat × Nat)
  deriving DecidableEq, Repr

/-! ## Patterns -/

/-- A heat template (R209). -/
structure Template where
  cls    : List Nat
  ramp   : Nat
  steady : Nat
  flush  : Nat
  reduce : Nat
  deriving DecidableEq, Repr, Inhabited

/-- A product descriptor (R216). -/
structure Product where
  a      : Nat
  at_    : Bool
  b      : Nat
  bt     : Bool
  layer  : Nat
  foldA  : Bool
  foldB  : Bool
  split  : Bool
  nk     : Nat
  q0     : Nat
  q      : Nat
  out    : Nat
  deriving DecidableEq, Repr, Inhabited

/-- A drain configuration (R217). -/
structure DrainCfg where
  stages  : Nat
  out     : Nat
  sandId  : Nat
  modes   : Nat
  dropP   : Nat
  func    : Nat
  deriv   : Nat
  res     : Nat
  res2    : Nat
  codes   : Nat
  vec     : List Nat
  alpha   : Nat
  kd      : Nat
  eps     : Nat
  sampleS : Nat
  sample  : Bool
  maskVec : Nat
  deriving DecidableEq, Repr, Inhabited

/-- Tensor numerics as resolved at load (R218, R406). -/
structure TensorNum where
  trackMode : Nat
  head      : Nat
  rise      : Nat
  fall      : Nat
  flushNum  : Nat
  srBits    : Nat
  frozen    : Bool
  tokens    : Bool
  vecCopy   : Bool
  vecFirst  : Nat
  deriving DecidableEq, Repr, Inhabited

/-- Layer numerics as resolved at load (R218, R406); t = 0 stands for n - 1. -/
structure LayerNum where
  t        : Nat
  c        : Nat
  policy   : Nat
  uflowMax : Nat
  deriving DecidableEq, Repr, Inhabited

/-- A region of the memory plan (R219). -/
structure Region where
  kind   : Nat
  place  : Nat
  tensor : Nat
  alt    : Nat
  base   : Nat
  size   : Nat
  spill  : Nat
  unit   : Nat
  deriving DecidableEq, Repr, Inhabited

/-- A reduction plan entry (R220). -/
structure PlanEntry where
  tensor  : Nat
  pairs   : Bool
  linkEnd : Nat
  level   : Nat
  side    : Nat
  tree    : Nat
  j       : Nat
  tiles   : Nat
  loc     : Nat
  dest    : Nat
  deriving DecidableEq, Repr, Inhabited

/-- A loaded pattern (R207 to R235). Function and derivative tables stay bytes. -/
structure Pattern where
  hash      : List Byte
  verMinor  : Nat
  fp        : List Byte
  slotLen   : Nat
  reserve   : Nat
  pourSlots : Nat
  recompMax : Nat
  nLayers   : Nat
  classes   : List (Nat × Nat)
  templates : List Template
  variants  : List (Nat × Nat)
  products  : List Product
  drains    : List DrainCfg
  funcs     : List (List Byte)
  derivs    : List (List Byte)
  chans     : List (Nat × Nat)
  colSums   : List Int
  palettes  : List (List Nat)
  maps      : List (List Byte)
  tnum      : List TensorNum
  lnum      : List LayerNum
  est0      : List Int
  updTabs   : List (List Nat × Nat)
  vecs      : List Nat
  chanDir   : List (Nat × Nat)
  regions   : List Region
  plans     : List (List PlanEntry)
  remap0    : List (List Nat)
  words     : List Nat
  variant   : Nat
  updDir    : List (Nat × Nat)
  updProgs  : List Byte
  programs  : List (List Byte)
  ladles    : List Nat
  deriving DecidableEq, Repr

/-! ## The heat -/

/-- The per-layer counts of one heat (R124). -/
structure LayerCounts where
  c : List Nat
  deriving DecidableEq, Repr, Inhabited

/-- A first-occurrence field of the heat record (R129): valid, layer, L, coordinates packed as the record has them. -/
structure First where
  layer : Nat
  tile  : Nat
  deriving DecidableEq, Repr

/-- An entry of an engine's accumulator bank (R85, R92): plain value or pair, by row and column, and whether a group
of it met zero times infinity (R97). -/
structure Acc where
  row : Nat
  col : Nat
  hi  : Nat
  lo  : Nat
  inv : Bool
  deriving DecidableEq, Repr, Inhabited

/-- An accumulator bank that holds the result of a product op (R154). -/
structure Bank where
  engine : Nat
  bank   : Nat
  odx    : Nat
  p      : Nat
  /-- The node (l, j) that the op formed (R88, R222). -/
  l      : Nat
  j      : Nat
  pairs  : Bool
  row0   : Nat
  rows   : Nat
  col0   : Nat
  cols   : Nat
  bad    : Bool
  vals   : List Acc
  deriving DecidableEq, Repr, Inhabited

/-- A tile kept in the retry buffer for recompute (R103, R118 to R120): the quotients by block, whether the recompute
is without extraction, and whether a group of it met zero times infinity; `kind` is the kind of the region that the tile lies in. -/
structure Retry where
  cfg     : Nat
  kind    : Nat
  tensor  : Nat
  tile    : Nat
  layer   : Nat
  coarse  : Bool
  inv     : Bool
  vals    : List (Nat × List FV)
  deriving DecidableEq, Repr, Inhabited

/-- A core: banks, drain configuration, retry buffer, recomputes used in the slot, and the tiles that its drain has put into the
planned retry buffer in the slot. -/
structure CoreSt where
  core    : Nat
  cfg     : Option Nat
  banks   : List Bank
  retry   : List Retry
  used    : Nat
  held    : Nat
  deriving DecidableEq, Repr, Inhabited

/-- The sums of one group of 32 elements of an output row (R172): S1 and S2 as pairs. -/
structure RowGroup where
  g    : Nat
  s1hi : Nat
  s1lo : Nat
  s2hi : Nat
  s2lo : Nat
  deriving DecidableEq, Repr, Inhabited

/-- Tiles under way to a link end in this slot (R194): each tile's streams as bytes. -/
structure LinkStream where
  linkEnd : Nat
  tensor  : Nat
  first   : Nat
  tiles   : List (List Byte)
  bad     : Bool
  /-- A group of the node met zero times infinity (R97). -/
  inv     : Bool
  deriving DecidableEq, Repr, Inhabited

/-- An invalid destination of the attempt (R28): a tile, a stretch of memory that holds nodes, or a bank. -/
inductive Invalid where
  | tile (tensor L : Nat)
  | node (addr len : Nat)
  | bank (core engine bank : Nat)
  deriving DecidableEq, Repr

/-- An open loop (R226): outer or inner, count, increment, iteration, and the span of RECOMPUTE_ALT left where its body began, with
whether that span's ops take effect (R228). -/
structure LoopSt where
  outer  : Bool
  count  : Nat
  inc    : Int
  iter   : Nat
  span   : Nat
  effect : Bool
  deriving DecidableEq, Repr

/-- A TOKEN_WAIT whose window is open (R227): its token and count, and how many destinations were noted before it. -/
structure TokenWait where
  token : Nat
  count : Nat
  from_ : Nat
  deriving DecidableEq, Repr

/-- How the op before in a program stands (R227): complete, waiting for the host, or abandoned. -/
inductive OpEnd where
  | done
  | waiting
  | abandoned
  deriving DecidableEq, Repr

/-- The sequencer of a program: open loops, the span of RECOMPUTE_ALT still to run and whether its ops take effect, whether a failed
TOKEN_WAIT spoils the slot, the windows still open, the destinations noted since the first of them, and how the preceding op
ended (R226 to R228). -/
structure Seq where
  prog    : Prog
  loops   : List LoopSt
  span    : Nat
  effect  : Bool
  spoiled : Bool
  waits   : List TokenWait
  dests   : List Invalid
  prev    : OpEnd
  deriving DecidableEq, Repr

/-- The phases of a RUN_HEATS operation (R30), with its start before the first ADMIT and its waits. -/
inductive Phase where
  | start
  | admitting
  | ramp
  | steady
  | flush
  | reduce
  | verdict
  | pour
  | waitSync
  | suspended
  deriving DecidableEq, Repr

/-- What becomes of a heat whose word is fixed (R199). -/
inductive Disposal where
  | commit
  | replay
  | skip
  deriving DecidableEq, Repr

/-- The RUN_HEATS operation (R304, R308). -/
structure Job where
  ring       : Nat
  tag        : Nat
  sqHead     : Nat
  irq        : Bool
  vector     : Nat
  args       : RunArgs
  phase      : Phase
  left       : Nat
  slotInHeat : Nat
  h          : Nat
  disposed   : Nat
  entry      : List Byte
  nextEntry  : Option (List Byte)
  seedsReady : Bool
  template   : Nat
  attemptOp  : Nat
  attempt    : Nat
  numVetoes  : Nat
  nonNumRun  : Nat
  disposal   : Disposal
  pourStep   : Nat
  suspend    : Bool
  urgent     : Bool
  cancel     : Bool
  endStatus  : Option Nat
  endDetail  : Option Nat
  silentEnd  : Bool
  noReplay   : Bool
  partialAt  : Option Phase
  skipOps    : Bool
  /-- Slots from the tick that opened ADMIT, and the stretch ac in them (R129). -/
  heatSlots  : Nat
  stretchAc  : Nat
  /-- The heat number at ADMIT (R129). -/
  heatAt     : Nat
  deriving DecidableEq, Repr

/-- The partial heat that an urgent suspension saved (R229). -/
structure Saved where
  status  : List (Nat × Nat)
  tokens  : List ((Nat × Nat) × Nat)
  alts    : List (Nat × Nat)
  obs     : List ((Nat × Nat) × Nat)
  counts  : List (Nat × LayerCounts)
  invalid : List Invalid
  written : List (Nat × Nat)
  nodes   : List (Nat × Nat)
  deriving DecidableEq, Repr

/-- Pour sync (R38 to R44). -/
structure Sync where
  latched   : Bool
  lead      : Nat
  arriving  : List Nat
  levelAt   : Bool
  waited    : Nat
  lateSeen  : Bool
  discard   : Bool
  window    : Nat
  pulseDue  : Bool
  pulsing   : Bool
  forced    : Bool
  deriving DecidableEq, Repr

/-- A row of a tile on its way to memory (R242): its place in canonical index order, whether its address is a store address, the
address, the bytes, and its snooper stream: tensor index, and index and length of each block. -/
structure RowWrite where
  key    : Nat
  direct : Bool
  addr   : Nat
  bytes  : List Byte
  tensor : Nat
  parts  : List (Nat × Nat)
  deriving DecidableEq, Repr

/-- What a heat holds and what lasts from heat to heat (chapters 2, 5, 6, 8, 9). -/
structure Heat where
  pattern   : Option Pattern
  shapes    : List (Nat × List Byte)
  bindings  : List (Nat × List Byte)
  slotLen   : Nat
  heatNum   : Nat
  updates   : Nat
  cursor    : Nat
  badState  : Bool
  badFence  : Bool
  badGeom   : Bool
  seeds     : List Nat
  alts      : List (Nat × Nat)
  tokens    : List ((Nat × Nat) × Nat)
  est       : List ((Nat × Nat) × Int)
  obs       : List ((Nat × Nat) × Nat)
  counts    : List (Nat × LayerCounts)
  totals    : List (Nat × LayerCounts)
  zeroRun   : List (Nat × Nat)
  gradSeen  : List Nat
  firstInv  : Option First
  firstNon  : Option First
  firstDes  : Option First
  budget    : Nat
  rereads   : Nat
  /-- Tiles whose next reading comes disturbed, by the address of their scale record (R122, R123; log 71), and whether the op that reads
  has had its re-read (R122). -/
  transient : List Nat
  refetched : Bool
  /-- The lowest tile that an event's occurrences concern, by layer and code (R310). -/
  minTile   : List ((Nat × Nat) × Nat)
  status    : List (Nat × Nat)
  carried   : Nat
  fixed     : Option Nat
  noStash   : Bool
  invalid   : List Invalid
  written   : List (Nat × Nat)
  /-- Stretches of memory, by address and length, into which an op of this attempt wrote nodes (R183, R193). -/
  nodes     : List (Nat × Nat)
  /-- Stored results that a group with zero times infinity feeds (R97). -/
  invProd   : List Invalid
  /-- Ops abandoned in this attempt (R28). -/
  abandons  : Nat
  cores     : List CoreSt
  seqs      : List Seq
  passSums  : List (Nat × List (Nat × Nat × Nat × Nat))
  /-- Row records by tensor and row (R172), as their groups' sums. -/
  rowRecs   : List ((Nat × Nat) × List RowGroup)
  /-- The stored s of a row by tensor and row (R173, R174). -/
  rowScale  : List ((Nat × Nat) × Nat)
  /-- Rows that the op under way has still to write: none between ops. -/
  rowBuf    : List RowWrite
  links     : List LinkStream
  /-- Numerics counts of the update units whose events are due in the next heat: layer, code, count, tile (R339). -/
  late      : List (Nat × Nat × Nat × Nat)
  leafData  : List (Nat × List Byte)
  leafMiss  : List (Nat × Nat)
  waitOps   : List Instr
  job       : Option Job
  saved     : Option Saved
  sync      : Sync
  /-- Channel tables and layers' scale exponents that firmware has written and that wait for step 4 of a pour (R34, R61, R205), and
  those that it has changed since load (R306). -/
  chanNew   : List (Nat × List (Nat × Nat))
  expNew    : List (Nat × Nat)
  chanSet   : List Nat
  expSet    : List Nat
  /-- What the memory-side units have sent at step 2 of the pour: w of a parameter by tensor and canonical index, none for a master
  pair that could not be read (R203). -/
  sent      : List ((Nat × Nat) × Option Nat)
  /-- Column sums W_g that the compute-die units have rewritten since load: by weight tensor, row and group (R83, R203). -/
  colSums   : List ((Nat × Nat × Nat) × Int)
  deriving DecidableEq, Repr

/-! ## Long operations -/

/-- A copy operation (R246 to R257). -/
structure CopyOp where
  opc     : Nat
  srcIova : Nat
  dstIova : Nat
  perm    : List Nat
  list    : Nat
  entries : Nat
  inHost  : Bool
  src     : List Byte
  dst     : List Byte
  units   : List Nat
  haveLst : Bool
  pos     : Nat
  moved   : Nat
  bad     : Nat
  ladle   : Nat
  leafs   : List (Nat × List Byte)
  deriving DecidableEq, Repr

/-- A fill operation (R146, R303). -/
structure FillOp where
  args    : FillArgs
  dst     : List Byte
  pos     : Nat
  written : Nat
  ladle   : Nat
  deriving DecidableEq, Repr

/-- A skim operation (R281 to R283). -/
structure SkimOp where
  base    : Nat
  length  : Nat
  summary : Nat
  pos     : Nat
  chunks  : Nat
  read    : Nat
  fixed   : Nat
  bad     : Nat
  addr    : Nat
  back    : Nat
  skipped : Nat
  fails   : List (Nat × Nat × Nat × Nat)
  ending  : Option Nat
  /-- The chunk under way began while a RUN_HEATS operation existed: it skips SRAM (R281). -/
  noSram  : Bool
  deriving DecidableEq, Repr

/-- A context transfer (R306). -/
structure CtxOp where
  save   : Bool
  area   : Nat
  length : Nat
  host   : Bool
  image  : List Byte
  /-- The bytes of an image to be saved that come from words which could not be corrected (R279). -/
  bad    : List Nat
  done   : Bool
  deriving DecidableEq, Repr

/-- What a long operation does. -/
inductive OpBody where
  | load (iova length : Nat) (reset : Bool) (role : Nat)
  | copy (c : CopyOp)
  | fill (f : FillOp)
  | skim (k : SkimOp)
  | context (c : CtxOp)
  deriving DecidableEq, Repr

/-- The state of an operation as QUERY 0x04 reports it (R307). -/
inductive OpState where
  | queued
  | running
  | suspendPending
  | suspended
  deriving DecidableEq, Repr

/-- A long operation other than RUN_HEATS (R294, R308). -/
structure Op where
  ring    : Nat
  tag     : Nat
  /-- Tells apart operations whose ring and TAG are the same (R308). -/
  id      : Nat
  opc     : Nat
  sqHead  : Nat
  irq     : Bool
  vector  : Nat
  state   : OpState
  cancel  : Bool
  silent  : Bool
  waitFor : List Nat
  endWith : Option Nat
  body    : OpBody
  deriving DecidableEq, Repr

/-- An operation that ended, for QUERY 0x04: ring, tag, opcode, and whether it ended because the link was lost (R307, R311). -/
structure Ended where
  ring : Nat
  tag  : Nat
  opc  : Nat
  link : Bool
  deriving DecidableEq, Repr

/-! ## The fleet -/

/-- Membership (R312 to R317). -/
structure Member where
  jobId    : Nat
  size     : Nat
  wire     : Nat
  deadline : Nat
  rank     : Nat
  present  : List Nat
  rxAddr   : List (Nat × Nat)
  rxBase   : Nat
  rxLen    : Nat
  resBase  : Nat
  resLen   : Nat
  half     : Nat
  fseq     : Nat
  deriving DecidableEq, Repr

/-- The exchange of one attempt (R320 to R327). -/
structure Exchange where
  on       : Bool
  heatNum  : Nat
  updates  : Nat
  uplinked : List Nat
  leaves   : List (Nat × Nat × Option (List Nat))
  reduced  : List Nat
  downs    : List Nat
  statuses : List (Nat × Nat × Nat)
  lost     : List (Nat × Nat × Nat)
  /-- Ranks a write to which has failed (R327). -/
  failed   : List Nat
  frozen   : Option Nat
  first    : Nat
  slots    : Nat
  ended    : Bool
  fleetFst : Nat
  deriving DecidableEq, Repr

/-- The fleet state of the module. -/
structure Fleet where
  member   : Option Member
  exch     : Exchange
  ignored  : Nat
  /-- The membership that FLEET_LEAVE ended, while the pattern stays: a survivor that joins again keeps its residuals
  (R331). -/
  left     : Option Member
  /-- The ranks that this member lost in the heat that ended the latest RUN_HEATS operation with ST_PEER_LOST; none after any other
  end (R331). -/
  peerLost : Option (List Nat)
  deriving DecidableEq, Repr

/-- The whole state of the module, with the model's own queue of waiting commands, output log and counter of free
values (log 3, 5, 7). -/
structure State where
  fuses   : Fuses
  boot    : Boot
  mbx     : Mailbox
  audit   : Audit
  pins    : Pins
  power   : Power
  port    : Port
  regs    : Regs
  events  : Events
  fences  : Fences
  mem     : Mem
  heat    : Heat
  ops     : List Op
  ended   : List Ended
  fleet   : Fleet
  out     : List Out
  freeCtr : Nat
  pending : List Instr
  deriving DecidableEq, Repr

/-! ## Reset -/

/-- A submission ring after reset (R402, R295). -/
def ring0 : Ring :=
  { base := 0, log2 := 6, enable := false, role := 0, key := [], head := 0, tail := 0, dbErr := 0, fetching := false,
    fetched := [], busy := false, counts := [] }

/-- A record ring after reset (R402, R296). -/
def recRing0 : RecRing := { base := 0, log2 := 6, enable := false, tail := 0, head := 0, used := 0, phase := true }

/-- The port after reset (R402, R290, R311; MSI-X mask bits: log 19). -/
def port0 : Port :=
  { linkUp := false, ioOnly := false, speed := 0, width := 0, sq := List.replicate 8 ring0, cq := recRing0, cqHeld := [],
    eq := recRing0, eqHeld := [], eqLost := 0, lostRun := 0, evtVec := 0, hostTimeout := 50,
    msix := List.replicate 64 { addr := 0, data := 0, mask := true }, msixPending := [], msixWindow := [], msixDue := [],
    hdm := [none, none], hostLines := [], bisnp := [], waitReads := [], hostAcc := [], nextAcc := 0 }

/-- An RWS block at its reset values (R359). -/
def rws0 (v : List Nat) : Rws := { shadow := v, staged := v, active := v, pending := false, late := false, status := 0 }

/-- Reset values of the pour sync block: registers 0x000, 0x008, 0x010 (R404). -/
def pourSyncReset (rank : Nat) : List Nat := [1024 * 16, 65536 + 256 * 2 ^ 20, rank]

/-- Reset value of the defaults register (R406). -/
def defaultsReset : Nat := 1 + 1 * 4 + 0 * 64 + 3 * 2 ^ 9 + 8 * 2 ^ 12 + 4 * 2 ^ 19 + 0 * 2 ^ 24 + 0 * 2 ^ 29 + 64 * 2 ^ 32

/-- Reset values of the limits: registers 0x000 and 0x008 (R413). -/
def limitsReset : List Nat := [1250, 100 + 92 * 2 ^ 8 + 95 * 2 ^ 16 + 95 * 2 ^ 24]

/-- The registers after a module reset, given what flash keeps: policy, LP_CFG and FLEET_RANK (R396). -/
def regsReset (policy lpCfg rank : Nat) : Regs :=
  { accessErr := 0, rightsErr := 0, pourSync := rws0 (pourSyncReset rank), syncExtra := 0, syncDiscard := 0,
    defaults := rws0 [defaultsReset], limits := rws0 limitsReset, policy := policy, lpCfg := lpCfg, lpInForce := 0,
    fillDone := false, fillTime := 0, lpAct := [], xlateRoot := List.replicate 16 0, skimActive := false, skimChunks := 0,
    cdcTimeout := 65536, splitA := 0, splitD := 0, splitD2 := 0, splitA2 := 0, splitX := 0, splitStatus := 0,
    splitBusy := false, splitDone := 0,
    snoopers := List.replicate 127 { mode := 0, filt := 0, mask := 0, run := 0, fp := 0, blocks := 0 },
    flashWrites := [], flashRank := rank }

/-- Factory value of LP_CFG (R410): LP_LOCAL 4, LP_GRAIN 2, LP_ACT_TH 1,024. -/
def lpCfgFactory : Nat := 4 + 2 * 2 ^ 5 + 1024 * 2 ^ 8

/-- Factory value of the policy word (R408): PAT_SIG_POLICY VERIFY. -/
def policyFactory : Nat := 1 * 2 ^ 8

/-- The default severities of R332, by code. -/
def defaultSev : List (Nat × Nat) :=
  [(0x01, 3), (0x02, 3), (0x03, 0), (0x04, 0), (0x05, 1), (0x06, 1), (0x07, 1), (0x08, 1), (0x09, 1)] ++
  [(0x10, 1), (0x11, 2), (0x12, 3), (0x13, 1), (0x14, 3), (0x15, 1), (0x20, 1), (0x21, 1)] ++
  [(0x30, 1), (0x31, 1), (0x32, 3), (0x40, 1), (0x41, 1)]

/-- Events after reset (R310, R333, R407). -/
def events0 : Events :=
  { nextSeq := 1, openRecs := [], outstanding := [], halts := [], mfgHalt := false, sevSet := defaultSev,
    sevForce := defaultSev, counts := [], resetDue := none }

/-- Fences after reset, before the sticky ones are applied again (R344). -/
def fences0 : Fences :=
  { fenced := [], fencing := [], due := [], dueFrames := [], later := [], laterFrames := [], retired := [], linkDown := [], crcRun := [], retrain := [],
    retrainBy := [], retrainBad := [], restarts := [], cdcDead := [], phyRetrain := [] }

/-- Memory with nothing listed: every byte reads 0, as the fill leaves it (R280, log 9). -/
def mem0 : Mem := { cells := [], synd := [], rowActs := [], tableNext := List.replicate 16 0, windows := [], frames := [] }

/-- Power after the management complex left power-on reset (R413, R428, R429): every controller term is 0. -/
def power0 : Power :=
  { powered := true, railsOn := false, rawVolt := 500, inPower := 0, inVolt := 0, inCurr := 0,
    cdTemp := List.replicate 16 0, bdTemp := List.replicate 16 0, mdTemp := List.replicate 8 0, iodTemp := 0,
    flowOk := false, leakIn := false, tripHeld := false, sp := 0, st := List.replicate 41 0,
    atLimit := List.replicate 41 false, pastStart := List.replicate 41 false, flowLost := false, lowFlow := 0,
    leak := false, nextStretch := 0, stretch := 0, bdDoubled := List.replicate 16 false }

/-- Pour sync after reset. -/
def sync0 : Sync :=
  { latched := false, lead := 0, arriving := [], levelAt := false, waited := 0, lateSeen := false,
    discard := false, window := 0, pulseDue := false, pulsing := false, forced := false }

/-- The heat state after reset: no pattern, heat number 0 (R400), SLOT_LEN 32,768. -/
def heat0 : Heat :=
  { pattern := none, shapes := [], bindings := [], slotLen := 32768, heatNum := 0, updates := 0, cursor := 0,
    badState := false, badFence := false, badGeom := false, seeds := [0, 0, 0, 0], alts := [],
    tokens := [], est := [], obs := [], counts := [], totals := [], zeroRun := [], gradSeen := [], firstInv := none,
    firstNon := none, firstDes := none, budget := 0, rereads := 0, transient := [], refetched := false, minTile := [], status := [],
    carried := 0, fixed := none, noStash := false, invalid := [], written := [], nodes := [],
    invProd := [], abandons := 0, cores := [], seqs := [], passSums := [], rowRecs := [], rowScale := [], rowBuf := [], links := [],
    late := [], leafData := [], leafMiss := [], waitOps := [], job := none, saved := none, sync := sync0, chanNew := [], expNew := [],
    chanSet := [], expSet := [], sent := [], colSums := [] }

/-- An exchange that has not begun. -/
def exch0 : Exchange :=
  { on := false, heatNum := 0, updates := 0, uplinked := [], leaves := [], reduced := [], downs := [],
    statuses := [], lost := [], failed := [], frozen := none, first := 0, slots := 0, ended := false, fleetFst := 0 }

/-- No member of a fleet (R313). -/
def fleet0 : Fleet := { member := none, exch := exch0, ignored := 0, left := none, peerLost := none }

/-- The mailbox after reset, with the keys that flash keeps (R382, R383, R415). -/
def mbxReset (keys : List Key) : Mailbox :=
  { keys := keys, code := 0, reqLen := 0, busy := false, status := 0, respLen := 0, request := zeros 4096,
    response := zeros 4096, session := 0, sessionKey := zeros 16, ringMask := 0, authNonce := none, debugNonce := none,
    authFailRun := 0, authLocked := false, authFail := 0, debugScope := 0, jtagClamp := none, jtagCount := 0 }

/-- Fuses of the model's part (log 1). -/
def fuses0 : Fuses :=
  { order := 2, serial := 0, fwKeyHash0 := zeros 48, fwKeyHash1 := zeros 48, fwKeyRevoke := 0, dbgKeyHash := zeros 48,
    svn := 0 }

/-- Start, boot record and flash of the model's part (R372, R375, R400; log 1 and 2). -/
def boot0 : Boot :=
  { stage := 1, ready := false, crucible := 0, timebase := 0, resetCause := 1, resetStart := 0, s5Record := zeros 64,
    startFail := 0, failRecords := [], startNumber := 0, failedSinceReady := 0, trialInvalidated := false,
    slotFailedVerify := false, slotA := { state := .active, image := [], svn := 0, keySlot := 0, factory := true },
    slotB := { state := .empty, image := [], svn := 0, keySlot := 0, factory := false }, runSlot := 0, runTrial := false, runSvn := 0,
    runHash := zeros 48, staging := none, stickyFences := [], stickyFrames := [], clearPending := false, certs := [],
    dbgKey := zeros 97 }

/-- H_0: SHA-384 of SERIAL as 8 bytes (R387), little-endian as R416 gives multi-byte integers (log 20). -/
def auditH0 (serial : Nat) : List Byte := sha384 (natLe 8 serial)

/-- The audit log of a new part (R387): nothing recorded. -/
def audit0 : Audit := { entries := [], checkpoints := [], seq := 0, chain := auditH0 0, deferred := [], flashOk := true }

/-- The pins as the board leaves them (R432): PERST# held low by its pull-down, no flow, no leak. A field is the
level, true for high; THERM_TRIP# and PWR_GOOD read high when released. -/
def pins0 : Pins :=
  { perst := false, syncIn := false, syncOut := false, thermTrip := true, pwrGood := true, flowSense := false,
    leakSense := true }

/-- The module right after its power-on reset, at stage ROM (R372, R400, R424). -/
def State.reset : State :=
  { fuses := fuses0, boot := boot0, mbx := mbxReset [], audit := audit0, pins := pins0, power := power0, port := port0,
    regs := regsReset policyFactory lpCfgFactory 0, events := events0, fences := fences0, mem := mem0, heat := heat0,
    ops := [], ended := [], fleet := fleet0, out := [], freeCtr := 0, pending := [] }

end Sys2Proof.Machine
end

