-- ==== Sys2Proof/Machine/Units.lean ====
section
/-! DEFINITION. Codes of statuses, events and units, what a fence covers, links and routes, and the geometry
fingerprint (01 R15 to R19, 09 R212, 12 R302, R310, 14 R344, R349). -/

namespace Sys2Proof.Machine

/-! ## Status codes (R302) -/

def stOk : Nat := 0x00
def stCancelled : Nat := 0x01
def stSuspended : Nat := 0x02
def stGeometry : Nat := 0x10
def stCorrupt : Nat := 0x11
def stInvalid : Nat := 0x12
def stAlias : Nat := 0x13
def stLength : Nat := 0x14
def stStash : Nat := 0x20
def stVetoed : Nat := 0x21
def stFenced : Nat := 0x22
def stRights : Nat := 0x30
def stConfig : Nat := 0x31
def stPeerLost : Nat := 0x32
def stTimeout : Nat := 0x33

/-! ## Event codes (R310) -/

def evNonfinite : Nat := 0x01
def evInvalidProduct : Nat := 0x02
def evOverflow : Nat := 0x03
def evFlush : Nat := 0x04
def evUnderflowRun : Nat := 0x05
def evRunnerFull : Nat := 0x06
def evBudget : Nat := 0x07
def evDesync : Nat := 0x08
def evSpill : Nat := 0x09
def evEccCe : Nat := 0x10
def evEccUe : Nat := 0x11
def evAddrFault : Nat := 0x12
def evLinkCrc : Nat := 0x13
def evCdcTimeout : Nat := 0x14
def evXlate : Nat := 0x15
def evSyncLate : Nat := 0x20
def evOverrun : Nat := 0x21
def evThermal : Nat := 0x30
def evPower : Nat := 0x31
def evWatchdog : Nat := 0x32
def evPeerLost : Nat := 0x40
def evBootFail : Nat := 0x41

/-- Is it an event code that R310 defines? -/
def eventDefined (c : Nat) : Bool := defaultSev.any fun e => e.1 = c

/-! ## Unit codes (R310) -/

/-- A unit code of a kind and an index. -/
def unitOf (kind i : Nat) : Nat := kind * 4096 + i
/-- The kind of a unit code. -/
def unitKind (c : Nat) : Nat := c / 4096
/-- The index of a unit code. -/
def unitIdx (c : Nat) : Nat := c % 4096
def coreUnit (i : Nat) : Nat := unitOf 0x0 i
def clusterUnit (i : Nat) : Nat := unitOf 0x1 i
def dieUnit (d : Nat) : Nat := unitOf 0x2 d
def bondedUnit (d : Nat) : Nat := unitOf 0x3 d
def ladleUnit (i : Nat) : Nat := unitOf 0x4 i
def controlUnit (i : Nat) : Nat := unitOf 0x5 i
def mdUnit (m : Nat) : Nat := unitOf 0x6 m
def channelUnit (n : Nat) : Nat := unitOf 0x7 n
def linkUnit (i : Nat) : Nat := unitOf 0x8 i
def linkEndUnit (e : Nat) : Nat := unitOf 0x9 e
def iodUnit : Nat := 0xA000
def noUnit : Nat := 0xF000

/-- How many units a kind has (R310). -/
def unitCount (kind : Nat) : Nat :=
  match kind with
  | 0x0 => 1024
  | 0x1 => 128
  | 0x2 => 16
  | 0x3 => 16
  | 0x4 => 40
  | 0x5 => 64
  | 0x6 => 8
  | 0x7 => 128
  | 0x8 => 42
  | 0x9 => 84
  | 0xA => 1
  | 0xF => 1
  | _ => 0

/-- Is it a defined unit code (R310)? -/
def unitDefined (c : Nat) : Bool := decide (c < 0x10000) && decide (unitIdx c < unitCount (unitKind c))

/-- The units whose fence covers a unit, itself among them (R344): a bonded DRAM die and its compute die go
together, a link end is its link, and the links of a memory-side die are not covered. -/
def covering (c : Nat) : List Nat :=
  let i := unitIdx c
  let die (d : Nat) : List Nat := [dieUnit d, bondedUnit d]
  match unitKind c with
  | 0x0 => c :: clusterUnit (i / 8) :: die (i / 64)
  | 0x1 => c :: die (i / 8)
  | 0x2 => die i
  | 0x3 => die i
  | 0x4 => if i < 32 then c :: die (i / 2) else [c, mdUnit (i - 32)]
  | 0x5 => c :: die (i / 4)
  | 0x7 => [c, mdUnit (i / 16)]
  | 0x9 => [linkUnit (i / 2)]
  | _ => [c]

/-- Is a unit covered by one of these fences? -/
def coveredBy (fs : List Nat) (c : Nat) : Bool := (covering c).any fun x => decide (x ∈ fs)

/-- The fences that answer requests: those in progress and those complete (R345). -/
def Fences.marked (f : Fences) : List Nat := f.fenced ++ f.fencing.map (·.unit)

/-- Is a unit fenced as its requesters see it: from ac 0 of the sequence on (R345)? -/
def State.fencedNow (s : State) (c : Nat) : Bool := coveredBy s.fences.marked c

/-- Is a unit fenced as registers and the fingerprint show it: from the last step on (R345, R409)? -/
def State.fencedReg (s : State) (c : Nat) : Bool := coveredBy s.fences.fenced c

/-- The four control cores of a die are all fenced: the die is (R344). -/
def allControlFenced (fs : List Nat) (d : Nat) : Bool := (List.range 4).all fun i => decide (controlUnit (4 * d + i) ∈ fs)

/-- Has the crossing from a source unit to a far unit timed out, so that it answers every transfer with a timeout reply
until it is reset (R352)? A channel whose PHY retrains answers no source (R356). -/
def State.deadTo (s : State) (source far : Nat) : Bool :=
  (s.fences.cdcDead.any fun e => decide (e.1 = source) && decide (e.2 ∈ covering far)) ||
    s.fences.phyRetrain.any fun n => decide (channelUnit n ∈ covering far)

/-! ## Links and routes (R16, R17, R19, R349) -/

/-- The compute die that MDm reaches through its link j (R17). -/
def mdNeighbour (m j : Nat) : Nat :=
  nth (nth [[0, 1], [2, 3], [3, 7], [11, 15], [14, 15], [12, 13], [8, 12], [0, 4]] m) j

/-- The compute dies that the two ends of a link join, or the memory-side die or IOD behind end B (R17), as unit
codes. -/
def linkEnds (i : Nat) : Nat × Nat :=
  if i < 12 then (dieUnit (4 * (i / 3) + i % 3), dieUnit (4 * (i / 3) + i % 3 + 1)) else
  if i < 24 then (dieUnit (i - 12), dieUnit (i - 12 + 4)) else
  if i < 40 then (dieUnit (mdNeighbour ((i - 24) / 2) (i % 2)), mdUnit ((i - 24) / 2)) else
  (dieUnit (i - 40), iodUnit)

/-- The die of a link end: end A of link i is 2i, end B is 2i + 1 (R17). -/
def linkEndDie (e : Nat) : Nat := if e % 2 = 0 then (linkEnds (e / 2)).1 else (linkEnds (e / 2)).2

/-- Links of a straight run along a row from column a to column b. -/
def rowRun (r a b : Nat) : List Nat := ((List.range 4).filter fun c => decide (min a b ≤ c) && decide (c < max a b)).map fun c => 3 * r + c

/-- Links of a straight run along a column from row a to row b. -/
def colRun (c a b : Nat) : List Nat := ((List.range 4).filter fun r => decide (min a b ≤ r) && decide (r < max a b)).map fun r => 12 + 4 * r + c

/-- The dimension-order route between compute dies: east-west first (R19). -/
def routeEw (a b : Nat) : List Nat := rowRun (a / 4) (a % 4) (b % 4) ++ colRun (b % 4) (a / 4) (b / 4)

/-- The other route: north-south first (R349). -/
def routeNs (a b : Nat) : List Nat := colRun (a % 4) (a / 4) (b / 4) ++ rowRun (b / 4) (a % 4) (b % 4)

/-- Is a link fenced or marked down, so that routes avoid it (R349, R358)? -/
def State.linkClosed (s : State) (i : Nat) : Bool := s.fencedNow (linkUnit i) || decide (i ∈ s.fences.linkDown)

/-- Does a link carry no traffic: fenced, marked down, or retraining (R349, R356, R358)? -/
def State.linkBroken (s : State) (i : Nat) : Bool := s.linkClosed i || decide (i ∈ s.fences.retrain)

/-- The link ends that receive, on the way from a to b along links whose end B lies toward the higher number. -/
def receivers (a b : Nat) (links : List Nat) : List Nat := links.map fun i => 2 * i + (if a < b then 1 else 0)

/-- The receiving link ends of the dimension-order route between compute dies (R19). -/
def hopsEw (a b : Nat) : List Nat :=
  receivers (a % 4) (b % 4) (rowRun (a / 4) (a % 4) (b % 4)) ++ receivers (a / 4) (b / 4) (colRun (b % 4) (a / 4) (b / 4))

/-- The receiving link ends of the other route (R349). -/
def hopsNs (a b : Nat) : List Nat :=
  receivers (a / 4) (b / 4) (colRun (a % 4) (a / 4) (b / 4)) ++ receivers (a % 4) (b % 4) (rowRun (b / 4) (a % 4) (b % 4))

/-- The route of a transfer between compute dies: east-west first unless a link on it is fenced or down, then
north-south first, then none (R349). -/
def State.dieRoute (s : State) (a b : Nat) : Option (List Nat) :=
  if (routeEw a b).all fun i => !s.linkClosed i then some (hopsEw a b) else
  if (routeNs a b).all fun i => !s.linkClosed i then some (hopsNs a b) else none

/-- The compute dies where transfers of a die enter and leave the mesh, each with the link to it: a memory-side die and
the IOD hang on two links, the one of the lower number first (R17, R19; log 135). -/
def State.ports (s : State) (x : Nat) : List (Nat × Option Nat) :=
  let over_ (base : Nat) (dies : Nat → Nat) : List (Nat × Option Nat) :=
    ((List.range 2).filter fun j => !s.linkClosed (base + j)).map fun j => (dies j, some (base + j))
  match unitKind x with
  | 0x6 => over_ (24 + 2 * unitIdx x) (mdNeighbour (unitIdx x))
  | 0xA => over_ 40 id
  | _ => [(unitIdx x, none)]

/-- The receiving link ends that a transfer passes from one die to another, given as unit codes; none where every
route crosses a fenced or downed link (R349). -/
def State.route (s : State) (a b : Nat) : Option (List Nat) :=
  if a = b then some [] else
  (s.ports a).findSome? fun p => (s.ports b).findSome? fun q =>
    (s.dieRoute p.1 q.1).map fun mid =>
      (match p.2 with | some i => [2 * i] | none => []) ++ mid ++ (match q.2 with | some i => [2 * i + 1] | none => [])

/-- Can a transfer run between two dies: is there a route, and does none of its links retrain (R349, R356)? -/
def State.canRoute (s : State) (a b : Nat) : Bool :=
  match s.route a b with
  | some l => l.all fun e => !decide (e / 2 ∈ s.fences.retrain)
  | none => false

/-- The die that a unit lies on, as a unit code. -/
def dieOf (u : Nat) : Nat :=
  let i := unitIdx u
  match unitKind u with
  | 0x0 => dieUnit (i / 64)
  | 0x1 => dieUnit (i / 8)
  | 0x2 => dieUnit i
  | 0x3 => dieUnit i
  | 0x4 => if i < 32 then dieUnit (i / 2) else mdUnit (i - 32)
  | 0x5 => dieUnit (i / 4)
  | 0x6 => mdUnit i
  | 0x7 => mdUnit (i / 16)
  | _ => iodUnit

/-- Does a transfer from a unit to another unit get an answer: a route, and no crossing that has timed out, neither from
the unit nor from its die (R349, R352)? -/
def State.reaches (s : State) (source far : Nat) : Bool :=
  s.canRoute (dieOf source) (dieOf far) && !s.deadTo source far && !s.deadTo (dieOf source) far &&
  !s.deadTo source (dieOf far)

/-! ## Geometry (R212) -/

/-- A mask with bit i set for each i below n that the test passes. -/
def maskOf (n : Nat) (p : Nat → Bool) : Nat := sumNat ((List.range n).map fun i => if p i then 2 ^ i else 0)

/-- The geometry descriptor (R212). -/
def State.geometry (s : State) : List Byte :=
  natLe 2 s.fuses.order ++ natLe 2 (maskOf 16 fun d => !s.fencedReg (dieUnit d)) ++
  natLe 2 (maskOf 8 fun m => !s.fencedReg (mdUnit m)) ++ natLe 6 (maskOf 42 fun i => !s.fencedReg (linkUnit i)) ++
  zeros 4 ++ natLe 16 (maskOf 128 fun n => !s.fencedReg (channelUnit n)) ++ zeros 32

/-- GEOM_FP: the first 16 bytes of the descriptor's SHA-384 (R212). -/
def State.fingerprint (s : State) : List Byte := (sha384 s.geometry).take 16

/-! ## Small tests on the state -/

/-- RUN_HEATS in progress or suspended. -/
def State.running (s : State) : Bool := s.heat.job.isSome

/-- RUN_HEATS suspended. -/
def State.jobSuspended (s : State) : Bool :=
  match s.heat.job with
  | some j => decide (j.phase = .suspended)
  | none => false

/-- Crucible mode (R379). -/
def State.inCrucible (s : State) : Bool := decide (s.boot.crucible ≠ 0)

/-- An S4 halt in force, or manufacturing test unlocked (R337, R392). -/
def State.halted (s : State) : Bool := !s.events.halts.isEmpty || s.events.mfgHalt

/-- Is the module powered and out of a thermal trip? -/
def State.alive (s : State) : Bool := s.power.powered && !s.power.tripHeld

/-- Can a command come in through the CXL link (log 11)? -/
def State.linkLive (s : State) : Bool := s.alive && s.port.linkUp

/-- Can it come in by anything but CXL.io and BAR0: not in crucible mode (R287, R379)? -/
def State.fullLink (s : State) : Bool := s.linkLive && !s.inCrucible

end Sys2Proof.Machine
end

