-- ==== Sys2Proof/Machine/Operands.lean ====
section
/-! DEFINITION. The operand forms of the ring commands: descriptor fields and payloads (12 R297, R299, R300, 13 R314).
-/

namespace Sys2Proof.Machine

/-- The opcode of a ring command (R299, R314); none for every other row. -/
def opcodeOf : Instr → Option Nat
  | .nop _ => some 0x00
  | .loadPattern _ _ _ _ => some 0x01
  | .bindTensors _ _ _ => some 0x02
  | .runHeats _ _ => some 0x03
  | .suspend _ _ _ => some 0x04
  | .resume _ _ _ => some 0x05
  | .cancel _ _ _ => some 0x06
  | .saveContext _ _ _ _ => some 0x07
  | .restoreContext _ _ _ _ => some 0x08
  | .copy _ _ _ _ => some 0x10
  | .gather _ _ _ _ _ _ _ => some 0x11
  | .scatter _ _ _ _ _ _ _ => some 0x12
  | .fill _ _ => some 0x13
  | .skim _ _ _ _ => some 0x20
  | .fenceUnit _ _ => some 0x21
  | .query _ _ _ _ _ => some 0x22
  | .setSeverity _ _ _ => some 0x23
  | .ackEvent _ _ => some 0x24
  | .fleetJoin _ _ => some 0x40
  | .fleetLeave _ => some 0x41
  | _ => none

/-- Does a ring accept an opcode (R292, R314)? -/
def ringAccepts (ring opc : Nat) : Bool :=
  opc == 0 ||
  match ring with
  | 0 => decide (opc ∈ [0x04, 0x05, 0x06, 0x22, 0x24])
  | 1 => decide (opc ∈ [0x01, 0x02, 0x03, 0x07, 0x08])
  | 6 => decide (opc ∈ [0x20, 0x21, 0x23, 0x22])
  | 7 => decide (opc ∈ [0x40, 0x41])
  | r => decide (2 ≤ r ∧ r ≤ 5) && decide (opc ∈ [0x10, 0x11, 0x12, 0x13])

/-- The role that a command needs: 0 none, 1 OPERATOR, 2 INSTALLER (R299, R314; LOAD_PATTERN: PAT_LOAD_ROLE, R214). -/
def roleNeeded (policy opc : Nat) : Nat :=
  if opc = 0x00 ∨ opc = 0x22 then 0 else
  if opc = 0x21 ∨ opc = 0x23 then 2 else
  if opc = 0x01 then (if bitOf policy 10 then 2 else 1) else 1

/-- Does a long operation accept SUSPEND, RESUME and CANCEL (R299)? -/
def isSuspendable (opc : Nat) : Bool := decide (opc ∈ [0x03, 0x10, 0x11, 0x12, 0x13, 0x20])

/-- Are all payload bytes outside these (offset, length) fields zero (R300)? -/
def restZero (d : List Byte) (used : List (Nat × Nat)) : Bool :=
  ((List.range 56).map (· + 8)).all fun i =>
    used.any (fun f => decide (f.1 ≤ i) && decide (i < f.1 + f.2)) || decide (d.getD i 0 = 0)

/-- The five 3-bit fields of PERM (R300). -/
def permOf (v : Nat) : List Nat := (List.range 5).map fun k => fld v (3 * k + 2) (3 * k)

/-- The policy fields of RUN_HEATS under DEFAULT_POLICY (R300). -/
def runArgsOf (d : List Byte) : RunArgs :=
  let b32 := u d 32 1
  let dflt := bitOf b32 7
  { heatList := u d 8 8, heats := u d 16 4, recCount := u d 20 4, recArea := u d 24 8,
    numReplays := if dflt then 1 else b32 % 16, afterHalt := !dflt && bitOf b32 4, defaultPolicy := dflt,
    replayLimit := if dflt then 3 else u d 33 1 % 16, seeds := u d 40 8 }

/-- Reads a payload (R300, R314): the command, or none where a reserved byte or bit is not zero. -/
def decodePayload (c : Rc) (opc : Nat) (d : List Byte) : Option Instr :=
  let ok (used : List (Nat × Nat)) (extra : Bool) (i : Instr) : Option Instr := if restZero d used && extra then some i else none
  match opc with
  | 0x00 => ok [] true (.nop c)
  | 0x01 => ok [(8, 17)] (decide (u d 24 1 < 2)) (.loadPattern c (u d 8 8) (u d 16 8) (bitOf (u d 24 1) 0))
  | 0x02 => ok [(8, 12)] true (.bindTensors c (u d 8 8) (u d 16 4))
  | 0x03 =>
    let b := u d 32 1
    ok [(8, 26), (40, 8)] (decide (fld b 6 5 = 0) && (bitOf b 7 || decide (u d 33 1 < 16))) (.runHeats c (runArgsOf d))
  | 0x04 => ok [(8, 1), (12, 4)] true (.suspend c (u d 8 1) (u d 12 4))
  | 0x05 => ok [(8, 1), (12, 4)] true (.resume c (u d 8 1) (u d 12 4))
  | 0x06 => ok [(8, 1), (12, 4)] true (.cancel c (u d 8 1) (u d 12 4))
  | 0x07 => ok [(8, 17)] (decide (u d 24 1 < 2)) (.saveContext c (u d 8 8) (u d 16 8) (bitOf (u d 24 1) 0))
  | 0x08 => ok [(8, 17)] (decide (u d 24 1 < 2)) (.restoreContext c (u d 8 8) (u d 16 8) (bitOf (u d 24 1) 0))
  | 0x10 => ok [(8, 18)] (decide (u d 24 2 < 2 ^ 15)) (.copy c (u d 8 8) (u d 16 8) (permOf (u d 24 2)))
  | 0x11 =>
    ok [(8, 18), (32, 13)] (decide (u d 24 2 < 2 ^ 15) && decide (u d 44 1 < 2))
      (.gather c (u d 8 8) (u d 16 8) (permOf (u d 24 2)) (u d 32 8) (u d 40 4) (bitOf (u d 44 1) 0))
  | 0x12 =>
    ok [(8, 18), (32, 13)] (decide (u d 24 2 < 2 ^ 15) && decide (u d 44 1 < 2))
      (.scatter c (u d 8 8) (u d 16 8) (permOf (u d 24 2)) (u d 32 8) (u d 40 4) (bitOf (u d 44 1) 0))
  | 0x13 =>
    ok [(8, 9), (18, 8), (32, 8)] true
      (.fill c { dst := u d 8 8, mode := u d 16 1, sandId := u d 18 2, a := BitVec.ofNat 32 (u d 20 4),
                 func := u d 24 2, heat := u d 32 8 })
  | 0x20 => ok [(8, 24)] true (.skim c (u d 8 8) (u d 16 8) (u d 24 8))
  | 0x21 => ok [(8, 2)] true (.fenceUnit c (u d 8 2))
  | 0x22 => ok [(8, 1), (12, 16)] true (.query c (u d 8 1) (u d 12 4) (u d 16 8) (u d 24 4))
  | 0x23 => ok [(8, 2)] true (.setSeverity c (u d 8 1) (u d 9 1))
  | 0x24 => ok [(8, 8)] true (.ackEvent c (u d 8 8))
  | 0x40 =>
    ok [(8, 11), (20, 44)] true
      (.fleetJoin c { peers := u d 8 8, size := u d 16 2, wire := u d 18 1, deadline := u d 20 4, jobId := u d 24 8,
                      rxBase := u d 32 8, rxLen := u d 40 8, resBase := u d 48 8, resLen := u d 56 8 })
  | 0x41 => ok [] true (.fleetLeave c)
  | _ => none

/-- Reads a 64-byte descriptor fetched by a ring (R297). -/
def decodeDesc (ring sqHead : Nat) (d : List Byte) : Fetched :=
  let w := u d 0 4
  let opc := w % 256
  let c : Rc := { ring := ring, tag := u d 4 4, irq := bitOf w 8, urgent := bitOf w 9, wait := bitOf w 10, vector := fld w 21 16 }
  let clean := decide (fld w 15 11 = 0) && decide (fld w 31 22 = 0)
  { cmd := if clean && ringAccepts ring opc then decodePayload c opc d else none, opc := opc, rc := c, sqHead := sqHead }

/-- Is a list of five numbers a permutation of 0 to 4 (R247)? -/
def isPerm (p : List Nat) : Bool := decide (p.length = 5) && (List.range 5).all fun k => decide (k ∈ p)

/-- The range checks of the payloads (R300, R303, R314) that hold whatever the state; each failure is
ST_DESC_INVALID. -/
def payloadOk : Instr → Bool
  | .bindTensors _ _ n => decide (1 ≤ n ∧ n ≤ 4096)
  | .runHeats _ a => decide (1 ≤ a.heats) && decide (1 ≤ a.recCount) && (a.defaultPolicy || decide (1 ≤ a.replayLimit ∧ a.replayLimit ≤ 15))
      && decide (a.numReplays ≤ 15)
  | .suspend _ r _ => decide (r ≤ 7)
  | .resume _ r _ => decide (r ≤ 7)
  | .cancel _ r _ => decide (r ≤ 7)
  | .copy _ _ _ p => isPerm p
  | .gather _ _ _ p _ n _ => decide (p = [0, 1, 2, 3, 4]) && decide (1 ≤ n ∧ n ≤ 16777216)
  | .scatter _ _ _ p _ n _ => decide (p = [0, 1, 2, 3, 4]) && decide (1 ≤ n ∧ n ≤ 16777216)
  | .fill _ a => decide (a.mode ≤ 2)
  | .fenceUnit _ c => unitDefined c && decide (unitKind c ≤ 9)
  | .query _ c _ _ _ => decide (1 ≤ c ∧ c ≤ 6)
  | .setSeverity _ c v => eventDefined c && decide (v ≤ 5)
  | _ => true

/-- The policy that a RUN_HEATS carries, with DEFAULT_POLICY resolved (R199, R200, R300). -/
def policyOf (a : RunArgs) : RunArgs :=
  if a.defaultPolicy then { a with numReplays := 1, afterHalt := false, replayLimit := 3 } else a

end Sys2Proof.Machine
end

