-- ==== Sys2Proof/Machine/Ops.lean ====
section
/-! DEFINITION. The shared operations of the module: output, snoopers, host accesses, interrupts, completion and event
records, the audit log, fences, the end of operations, the module reset, and the raising of an event with its
reactions (12 R291 to R298, 14 R332 to R345, R362 to R366, 15 R375, R387 to R389). -/

namespace Sys2Proof.Machine

/-- Appends to the output log. -/
def State.emit (s : State) (o : Out) : State := { s with out := s.out ++ [o] }

/-- Draws the next index of a free value (log 7). -/
def State.draw (s : State) : Nat × State := (s.freeCtr, { s with freeCtr := s.freeCtr + 1 })

/-! ## Snoopers (R362 to R366) -/

/-- The unit whose fence takes a snooper out of service (R398): its ladle or its link. -/
def snooperUnit (n : Nat) : Nat :=
  if n < 40 then ladleUnit n else if n < 124 then linkUnit ((n - 40) / 2) else iodUnit

/-- A stream id (R363). -/
def streamId (kind tensor : Nat) : Nat := kind * 4096 + tensor % 4096

/-- The index of R365: kind, tensor index and 48 more bits. -/
def snoopIndex (kind tensor low : Nat) : Nat := kind * 2 ^ 60 + tensor % 4096 * 2 ^ 48 + low % 2 ^ 48

/-- One snooper takes a transfer given as its blocks (index bits [47:0], bytes) (R364, R365). -/
def Snooper.take (n : Snooper) (kind tensor : Nat) (blocks : List (Nat × List Byte)) : Snooper :=
  let id := streamId kind tensor
  if id &&& n.mask ≠ n.filt &&& n.mask then n else
  let bytes := (blocks.map (·.2)).flatten
  match n.mode with
  | 1 => { n with run := (crc32cFrom (BitVec.ofNat 32 n.run) bytes).toNat, blocks := (n.blocks + 1) % 2 ^ 64 }
  | 2 => { n with run := (crc64From (BitVec.ofNat 64 n.run) bytes).toNat, blocks := (n.blocks + 1) % 2 ^ 64 }
  | 3 => { n with
      fp := blocks.foldl (fun acc b => acc ^^^ (crc64 (natLe 8 (snoopIndex kind tensor b.1) ++ b.2)).toNat) n.fp,
      blocks := (n.blocks + blocks.length) % 2 ^ 64 }
  | _ => n

/-- Snooper number n observes a transfer; a fenced snooper observes nothing. -/
def State.snoop (s : State) (n kind tensor : Nat) (blocks : List (Nat × List Byte)) : State :=
  if s.fencedNow (snooperUnit n) then s else
  { s with regs := { s.regs with snoopers := setAt s.regs.snoopers n fun x => x.take kind tensor blocks } }

/-- Cuts a transfer at an address into its 64-byte aligned units (R365). -/
def addrBlocksGo : Nat → Nat → List Byte → List (Nat × List Byte)
  | 0, _, _ => []
  | k + 1, a, bs =>
    if bs.isEmpty then [] else
    let n := 64 - a % 64
    (a / 64, bs.take n) :: addrBlocksGo k (a + n) (bs.drop n)

/-- The blocks of a transfer at an address. -/
def addrBlocks (a : Nat) (bs : List Byte) : List (Nat × List Byte) := addrBlocksGo (bs.length / 64 + 2) a bs

/-! ## Host accesses (R298) -/

/-- Issues a read of host memory. -/
def State.hostRead (s : State) (iova len : Nat) (p : Purpose) : State :=
  let id := s.port.nextAcc
  State.emit { s with port := { s.port with nextAcc := id + 1, hostAcc := s.port.hostAcc ++ [⟨id, iova, len, false, p⟩] } }
    (.hostRead id iova len)

/-- A transfer as the snoopers see it (R363, R365): kind, tensor index, and the index and length of each of its blocks;
without such a list its blocks are the 64-byte aligned units of its address. -/
structure Stream where
  kind   : Nat
  tensor : Nat
  parts  : List (Nat × Nat)
  deriving DecidableEq, Repr, Inhabited

/-- A transfer of a kind whose blocks are cut by address. -/
def byAddress (kind : Nat) : Stream := { kind := kind, tensor := 0, parts := [] }

/-- Cuts bytes into blocks of given indices and lengths. -/
def splitParts : List (Nat × Nat) → List Byte → List (Nat × List Byte)
  | [], _ => []
  | p :: ps, bs => if bs.isEmpty then [] else (p.1, bs.take p.2) :: splitParts ps (bs.drop p.2)

/-- The blocks from a byte of the transfer on. -/
def dropParts : List (Nat × Nat) → Nat → List (Nat × Nat)
  | [], _ => []
  | p :: ps, n => if n < p.2 then (p.1, p.2 - n) :: ps else dropParts ps (n - p.2)

/-- The blocks of a piece of a transfer: `a` is its address, `o` its offset in the transfer. -/
def Stream.blocks (t : Stream) (a o : Nat) (bs : List Byte) : List (Nat × List Byte) :=
  if t.parts.isEmpty then addrBlocks a bs else splitParts (dropParts t.parts o) bs

/-- A transfer passes one receiving link end: its snooper takes it, and flits that pass their check end a run of failures
there (R358, R362). -/
def State.arrive (s : State) (e kind tensor : Nat) (blocks : List (Nat × List Byte)) : State :=
  State.snoop { s with fences := { s.fences with crcRun := del s.fences.crcRun e } } (40 + e) kind tensor blocks

/-- A transfer crosses from one die to another over the links of its route (R19, R362). -/
def State.cross (s : State) (a b kind tensor : Nat) (blocks : List (Nat × List Byte)) : State :=
  if a = b then s else
  match s.route a b with
  | some l => l.foldl (fun s e => s.arrive e kind tensor blocks) s
  | none => s

/-- Sends bytes to host memory, past the snooper of that direction. -/
def State.sendHostAs (s : State) (iova : Nat) (bytes : List Byte) (t : Stream) : State :=
  (s.emit (.hostWrite iova bytes)).snoop 126 t.kind t.tensor (t.blocks iova 0 bytes)

/-- Sends bytes to host memory as CXL.cache traffic (stream kind 0xD). -/
def State.sendHost (s : State) (iova : Nat) (bytes : List Byte) : State := s.sendHostAs iova bytes (byAddress 0xD)

/-- Issues a write of host memory whose answer is awaited. -/
def State.hostWriteAs (s : State) (iova : Nat) (bytes : List Byte) (p : Purpose) (t : Stream) : State :=
  let id := s.port.nextAcc
  State.sendHostAs { s with port := { s.port with
    nextAcc := id + 1, hostAcc := s.port.hostAcc ++ [⟨id, iova, bytes.length, true, p⟩] } } iova bytes t

/-- Issues such a write as CXL.cache traffic. -/
def State.hostWrite (s : State) (iova : Nat) (bytes : List Byte) (p : Purpose) : State :=
  s.hostWriteAs iova bytes p (byAddress 0xD)

/-! ## Interrupts (R291) -/

/-- A record is to be signalled on a vector; the message goes out at INTERRUPT_SEND. In crucible mode only vector 63
is signalled (R379). -/
def State.signal (s : State) (v : Nat) : State :=
  if s.inCrucible && decide (v ≠ 63) then s else { s with port := { s.port with msixDue := addTo s.port.msixDue v } }

/-! ## Completion records (R294, R296, R309) -/

/-- The 32 bytes of a completion record (R309). -/
def Completion.enc (c : Completion) (phase : Bool) : List Byte :=
  natLe 32 (c.tag % 2 ^ 32 + c.status % 256 * 2 ^ 32 + c.opc % 256 * 2 ^ 40 + c.ring % 8 * 2 ^ 48 +
    (if c.final then 2 ^ 51 else 0) + (if phase then 2 ^ 63 else 0) + c.sqHead % 2 ^ 16 * 2 ^ 64 +
    c.detail0 % 2 ^ 64 * 2 ^ 96 + c.detail1 % 2 ^ 64 * 2 ^ 160)

/-- The number of entries of a ring. -/
def entriesOf (log2 : Nat) : Nat := 2 ^ log2

/-- Is a record ring full: one more record would overwrite one that the host has not freed (R296)? -/
def RecRing.full (r : RecRing) : Bool := decide (entriesOf r.log2 ≤ r.used)

/-- Takes the next slot of a record ring: PHASE turns over at each pass (R296). -/
def RecRing.advance (r : RecRing) : RecRing :=
  let t := (r.tail + 1) % entriesOf r.log2
  { r with tail := t, used := r.used + 1, phase := if t = 0 then !r.phase else r.phase }

/-- The host frees the records before a new head index; the head of a full ring written again frees the whole ring (R296). -/
def RecRing.free (r : RecRing) (value : Nat) : RecRing :=
  let e := entriesOf r.log2
  let d := (value + e - (r.tail + e - r.used) % e) % e
  { r with head := value, used := r.used - (if d = 0 ∧ r.used = e then e else d) }

/-- Can a record be written now? -/
def State.canWrite (s : State) (r : RecRing) : Bool := s.linkLive && r.enable && !r.full

/-- Writes held completion records, in order, while the ring takes them. -/
def State.flushCq (s : State) : Nat → State
  | 0 => s
  | k + 1 =>
    match s.port.cqHeld with
    | [] => s
    | c :: rest =>
      if s.canWrite s.port.cq then
        let r := s.port.cq
        let s := s.sendHost (r.base + 32 * r.tail) (c.enc r.phase)
        let s := { s with port := { s.port with cq := r.advance, cqHeld := rest } }
        (if c.irq then s.signal c.vector else s).flushCq k
      else s

/-- Files a completion record: it is written at once, or held while the ring is full (R296). -/
def State.post (s : State) (c : Completion) : State :=
  let s := { s with port := { s.port with cqHeld := s.port.cqHeld ++ [c] } }
  s.flushCq s.port.cqHeld.length

/-- The completion record of a command (R309). -/
def completionOf (c : Rc) (opc sqHead status d0 d1 : Nat) : Completion :=
  { tag := c.tag, status := status, opc := opc, ring := c.ring, final := true, sqHead := sqHead, detail0 := d0,
    detail1 := d1, irq := c.irq, vector := c.vector }

/-- Completes a command finally. -/
def State.complete (s : State) (c : Rc) (opc sqHead status d0 d1 : Nat) : State :=
  s.post (completionOf c opc sqHead status d0 d1)

/-! ## Event records (R296, R310, R341) -/

/-- The 64 bytes of an event record (R310). -/
def EventRec.enc (e : EventRec) (phase : Bool) (lost : Nat) : List Byte :=
  natLe 64 (e.seq % 2 ^ 64 + e.code % 256 * 2 ^ 64 + e.sev % 8 * 2 ^ 72 + (if e.escalated then 2 ^ 75 else 0) +
    (if e.poison then 2 ^ 76 else 0) + (if 1 ≤ e.sev then 2 ^ 77 else 0) + (if phase then 2 ^ 79 else 0) +
    e.unit % 2 ^ 16 * 2 ^ 80 + min e.count 65535 * 2 ^ 96 + min lost 65535 * 2 ^ 112 + e.heatNum % 2 ^ 64 * 2 ^ 128 +
    e.slot % 2 ^ 32 * 2 ^ 192 + e.layer % 2 ^ 10 * 2 ^ 224 + e.data % 2 ^ 256 * 2 ^ 256)

/-- The vector field of a severity in EVT_VEC (R402): none for S0 or when disabled. -/
def State.sevVector (s : State) (sev : Nat) : Option Nat :=
  if sev = 0 then none else
  let f := fld s.port.evtVec (8 * sev - 1) (8 * sev - 8)
  if bitOf f 7 then some (f % 64) else none

/-- Writes held event records, in order, while the ring takes them. -/
def State.flushEq (s : State) : Nat → State
  | 0 => s
  | k + 1 =>
    match s.port.eqHeld with
    | [] => s
    | e :: rest =>
      if s.canWrite s.port.eq then
        let r := s.port.eq
        let s := s.sendHost (r.base + 64 * r.tail) (e.enc r.phase s.port.lostRun)
        let s := { s with port := { s.port with eq := r.advance, eqHeld := rest, lostRun := 0 } }
        (match s.sevVector e.sev with
          | some v => s.signal v
          | none => s).flushEq k
      else s

/-- Files an event record for the event ring: written, held (up to 256), or counted as lost, in which case it is not
outstanding (R296, R342). -/
def State.postEvent (s : State) (e : EventRec) : State :=
  let s := if 2 ≤ e.sev then s.emit (.uartEvent e.seq e.code e.sev) else s
  if s.canWrite s.port.eq || decide (s.port.eqHeld.length < 256) then
    let s := { s with port := { s.port with eqHeld := s.port.eqHeld ++ [e] } }
    s.flushEq s.port.eqHeld.length
  else
    { s with
      port := { s.port with eqLost := satAdd 16 s.port.eqLost 1, lostRun := satAdd 16 s.port.lostRun 1 },
      events := { s.events with outstanding := s.events.outstanding.filter fun o => o.seq ≠ e.seq,
                                halts := s.events.halts.filter fun q => q ≠ e.seq } }

/-- Writes the open records that `f` takes: the tick closes them to merging (R341). -/
def State.closeEvents (s : State) (f : EventRec → Bool) : State :=
  (s.events.openRecs.filter f).foldl State.postEvent
    { s with events := { s.events with openRecs := s.events.openRecs.filter fun e => !f e } }

/-! ## The audit log (R387 to R389) -/

/-- Keeps the areas circular: entries go in blocks of 2,048, checkpoints one at a time (R388). -/
def Audit.trim (a : Audit) : Audit :=
  { a with
    entries := if 253952 < a.entries.length then a.entries.drop 2048 else a.entries,
    checkpoints := if 4096 < a.checkpoints.length then a.checkpoints.drop 1 else a.checkpoints }

/-- A checkpoint: SEQ, H_n, reserved bytes and the identity key's signature, a free value (R388, log 18). -/
def State.checkpointBytes (s : State) (n : Nat) : List Byte :=
  natLe 8 s.audit.seq ++ s.audit.chain ++ zeros 104 ++ natBe 96 (Config.identitySignature n).toNat

/-- Writes a checkpoint. -/
def State.checkpoint (s : State) : State :=
  let (n, s) := s.draw
  { s with audit := { s.audit with checkpoints := s.audit.checkpoints ++ [s.checkpointBytes n] }.trim }

/-- Appends an entry to the chained log (R387). Every 1,024 entries a checkpoint follows (R388). -/
def State.auditAppend (s : State) (action role status : Nat) (key object : List Byte) : State :=
  let seq := s.audit.seq + 1
  let body := natLe 8 seq ++ natLe 4 s.boot.startNumber ++ zeros 4 ++ natLe 8 (s.boot.timebase / 2 ^ 20) ++
    natLe 1 action ++ natLe 1 role ++ natLe 1 status ++ zeros 1 ++ slice key 0 16 ++ slice object 0 36
  let h := sha384 (s.audit.chain ++ body)
  let s := { s with audit := { s.audit with entries := s.audit.entries ++ [body ++ h], seq := seq, chain := h }.trim }
  if seq % 1024 = 0 then s.checkpoint else s

/-- Records an action that proceeds even while flash accepts no writes: its entry then waits (R389). -/
def State.auditLate (s : State) (action role status : Nat) (key object : List Byte) : State :=
  if s.audit.flashOk then s.auditAppend action role status key object else
  { s with audit := { s.audit with deferred := s.audit.deferred ++ [(⟨action, role, status, key, object⟩ : Deferred)] } }

/-- The opcodes whose counts end a role grant's entry, in the order of R299. -/
def grantOpcodes : List Nat :=
  [0x00, 0x01, 0x02, 0x03, 0x04, 0x05, 0x06, 0x07, 0x08] ++ [0x10, 0x11, 0x12, 0x13, 0x20, 0x21, 0x22, 0x23, 0x24]

/-- OBJECT of an ending role grant: one 16-bit count per opcode (R387). -/
def grantObject (counts : List (Nat × Nat)) : List Byte :=
  (grantOpcodes.map fun o => natLe 2 (min (look 0 counts o) 65535)).flatten

/-- Ends the role of a ring, with its entry (R385, R387). -/
def State.endRole (s : State) (r : Nat) : State :=
  let q := s.port.sq.getD r ring0
  if q.role = 0 then s else
  let s := s.auditLate 0x03 q.role stOk q.key (grantObject q.counts)
  { s with port := { s.port with sq := setAt s.port.sq r fun q => { q with role := 0, key := [], counts := [] } } }

/-- Ends the mailbox session and the roles of the rings in a mask (R385, R386). -/
def State.endSession (s : State) (mask : Nat) : State :=
  let s := ((List.range 8).filter fun r => bitOf mask r).foldl State.endRole s
  let s := if s.mbx.session = 0 then s else s.auditLate 0x03 s.mbx.session stOk s.mbx.sessionKey (grantObject [])
  { s with mbx := { s.mbx with session := 0, sessionKey := zeros 16, ringMask := 0 } }

/-! ## Module reset (R375, R376, R396) -/

/-- Restarts the whole module at stage ROM, keeping flash and fuses: RESET_CAUSE names the cause and, for an S5
reaction, holds its record. A pending clear of the sticky fences takes effect (R344, R408). Crucible mode is entered at
ROM when the start-failure counter reads 3 (R379). -/
def State.moduleReset (s : State) (cause : Nat) (rec5 : List Byte) : State :=
  let s := (List.range 8).foldl State.endRole s
  let s := s.endSession 0
  let s := if s.boot.clearPending then
      s.boot.stickyFences.foldl (fun s u => s.auditLate 0x16 0 stOk [] (natLe 2 u ++ [3])) s
    else s
  let b := s.boot
  State.emit { s with
    boot := { b with
      stage := 1, ready := false, crucible := if b.startFail = 3 then 1 else 0, timebase := 0, resetCause := cause,
      resetStart := b.startNumber, s5Record := if cause = 2 then slice rec5 0 64 else zeros 64,
      startNumber := b.startNumber + 1, trialInvalidated := b.trialInvalidated, slotFailedVerify := false, staging := none,
      runHash := zeros 48, runSvn := 0, runTrial := false,
      stickyFences := if b.clearPending then [] else b.stickyFences,
      stickyFrames := if b.clearPending then [] else b.stickyFrames, clearPending := false },
    mbx := mbxReset s.mbx.keys,
    pins := { s.pins with syncOut := false },
    power := { power0 with rawVolt := s.power.rawVolt, powered := s.power.powered },
    port := port0,
    regs := regsReset s.regs.policy s.regs.lpCfg s.regs.flashRank,
    events := events0, fences := fences0, mem := mem0,
    heat := { heat0 with shapes := s.heat.shapes },
    ops := [], ended := [], fleet := fleet0 } (.uartStage 1)

/-! ## The start of a fence (R344, R345) -/

/-- Adds to what flash records as STICKY (R344). -/
def State.recordSticky (s : State) (u : Nat) : State :=
  if bitOf s.regs.policy 0 then s else
  { s with boot := { s.boot with stickyFences := addTo s.boot.stickyFences u } }

/-- Step 1 of the fence sequence for one unit: it is marked in its fence points, recorded if STICKY, and audited with
its cause (0 command, 1 S2 reaction, 2 remap, 3 start) (R345, R417). A downed link is down until it is fenced (R358). -/
def State.fenceMark (s : State) (u cause : Nat) : State :=
  if u ∈ s.fences.marked then s else
  let s := { s with fences := { s.fences with
    fencing := s.fences.fencing ++ [({ unit := u, stopped := false, cause := cause } : Fencing)],
    linkDown := s.fences.linkDown.filter fun i => linkUnit i ≠ u } }
  let s := s.recordSticky u
  s.auditLate 0x15 0 stOk [] (natLe 2 u ++ [BitVec.ofNat 8 cause])

/-- Fences a unit: a link end stands for its link, a bonded DRAM die takes its compute die with it, and the fourth
control core of a die takes the die (R344). -/
def State.fenceStart (s : State) (u cause : Nat) : State :=
  match unitKind u with
  | 0x9 => s.fenceMark (linkUnit (unitIdx u / 2)) cause
  | 0x5 =>
    let s := s.fenceMark u cause
    if allControlFenced s.fences.marked (unitIdx u / 4) then s.fenceMark (dieUnit (unitIdx u / 4)) cause else s
  | _ => s.fenceMark u cause

/-- Applies due fences in ascending unit code (R335). -/
def State.applyFences (s : State) (l : List (Nat × Nat)) : State :=
  (sortNat (l.map (·.1))).foldl (fun s u => s.fenceStart u (look 1 l u)) s

/-! ## The end of operations -/

/-- The command fields of an operation. -/
def Op.rc (o : Op) : Rc := ⟨o.ring, o.tag, o.irq, false, false, o.vector⟩

/-- DETAIL0 and DETAIL1 of a finished operation (R303). -/
def Op.details (s : State) (o : Op) : Nat × Nat :=
  match o.body with
  | .load _ _ _ _ => (0, 0)
  | .copy c => (c.moved, c.bad)
  | .fill f => (f.written, 0)
  | .skim k => (k.chunks, 0)
  | .context c => (c.image.length, if c.save then 0 else s.heat.heatNum)

/-- Is it the same operation: ring and TAG? -/
def Op.is (o : Op) (ring id : Nat) : Bool := decide (o.ring = ring) && decide (o.id = id)

/-- Notes an operation that ended, for QUERY 0x04: the latest one of its ring and TAG (R307, R311). -/
def State.noteEnded (s : State) (ring tag opc : Nat) (link : Bool) : State :=
  { s with ended := (s.ended.filter fun e => !(decide (e.ring = ring) && decide (e.tag = tag))) ++ [⟨ring, tag, opc, link⟩] }

/-- Removes an operation and writes its final record; none is written after a link loss (R311). -/
def State.finishOp (s : State) (o : Op) (status d0 d1 : Nat) : State :=
  let s := { s with ops := s.ops.filter fun x => !x.is o.ring o.id,
                    port := { s.port with hostAcc := s.port.hostAcc.filter fun a => match a.purpose with
                      | .image r t | .copySrc r t | .copyDst r t | .gatherList r t | .context r t | .skimSummary r t
                      | .chunkLeaf r t | .chunkWrite r t =>
                        !(decide (r = o.ring) && decide (t = o.id))
                      | _ => true } }
  let s := match o.body with
    | .skim _ => { s with regs := { s.regs with skimActive := s.ops.any fun x => decide (x.opc = 0x20) } }
    | _ => s
  let s := s.noteEnded o.ring o.tag o.opc o.silent
  if o.silent then s else s.complete o.rc o.opc o.sqHead status d0 d1

/-- Replaces an operation. -/
def State.setOp (s : State) (o : Op) : State := { s with ops := s.ops.map fun x => if x.is o.ring o.id then o else x }

/-- The outstanding operation with a ring and TAG. -/
def State.findOp (s : State) (ring id : Nat) : Option Op := s.ops.find? fun o => o.is ring id

/-- The first outstanding operation with a ring and TAG. -/
def State.findTag (s : State) (ring tag : Nat) : Option Op :=
  s.ops.find? fun o => decide (o.ring = ring) && decide (o.tag = tag)

/-- The 320-byte summary of a skim (R283): counts, then the 16 lowest failing words (address, syndrome, kind, bit). -/
def SkimOp.summaryBytes (k : SkimOp) : List Byte :=
  let head := natLe 8 k.read ++ natLe 8 k.fixed ++ natLe 8 k.bad ++ natLe 8 k.addr ++ natLe 8 k.back ++ natLe 8 k.skipped ++
    natLe 4 k.fails.length ++ natLe 4 k.chunks ++ zeros 8
  slice (head ++ (k.fails.map fun f => natLe 16 (f.1 + f.2.1 * 2 ^ 64 + f.2.2.1 * 2 ^ 72 + f.2.2.2 * 2 ^ 74)).flatten) 0 320

/-- Ends a long operation: a skim writes its summary first, for the chunks it completed (R281); the others complete at
once. -/
def State.endOp (s : State) (o : Op) (status : Nat) : State :=
  match o.body with
  | .skim k =>
    if o.silent then s.finishOp o status 0 0 else
    if k.ending.isSome then s else
    (s.setOp { o with body := .skim { k with ending := some status } }).hostWriteAs k.summary k.summaryBytes
      (.skimSummary o.ring o.id) (byAddress 0xA)
  | _ =>
    let d := o.details s
    s.finishOp o status d.1 d.2

/-- The fields of the RUN_HEATS operation's records. -/
def Job.rc (j : Job) : Rc := ⟨j.ring, j.tag, j.irq, false, false, j.vector⟩

/-- A heat's pour sync is over: edges under way, the level and the windows of discarded syncs stay (R41, R44). -/
def Sync.fresh (y : Sync) : Sync :=
  { y with latched := false, lead := 0, waited := 0, lateSeen := false, pulseDue := false, pulsing := false, forced := false }

/-- Ends the RUN_HEATS operation: its final record, or none after a lost link; fences that were due at a coming pour
are applied at once (R304, R311, R335), and a saved partial heat is discarded (R308). The ranks whose loss ended it with
ST_PEER_LOST are kept for a join that goes on without them (R331). -/
def State.endJob (s : State) (status : Nat) : State :=
  match s.heat.job with
  | none => s
  | some j =>
    let s := { s with
      heat := { s.heat with job := none, saved := none, sync := s.heat.sync.fresh },
      fleet := { s.fleet with exch := exch0, peerLost := if status = stPeerLost then some (s.fleet.exch.lost.map Prod.fst) else none },
      port := { s.port with hostAcc := s.port.hostAcc.filter fun a => match a.purpose with
        | .seedBlock | .heatEntry _ | .heatRecord => false
        | _ => true } }
    let s := s.noteEnded j.ring j.tag 0x03 j.silentEnd
    let s := if j.silentEnd then s else s.complete j.rc 0x03 j.sqHead status (j.endDetail.getD j.disposed) s.heat.heatNum
    let due := s.fences.due ++ s.fences.later
    State.applyFences { s with fences := { s.fences with due := [], later := [] } } due

/-! ## Raising an event (R332 to R343) -/

/-- The severity in force for a code (R333). -/
def State.sevOf (s : State) (code : Nat) : Nat := look 1 s.events.sevForce code

/-- Codes whose records never escalate (R342). -/
def neverEscalates (code : Nat) : Bool := decide (1 ≤ code ∧ code ≤ 9) || code == evPeerLost

/-- The cause bit of an S3 reaction (R336). -/
def vetoBit (code : Nat) : Nat := if code ≤ 2 then 0 else if code ≤ 8 then 2 else 11

/-- Sets a bit of a unit's copy of the status word (R197). -/
def setStatus (l : List (Nat × Nat)) (unit bit : Nat) : List (Nat × Nat) := put l unit (look 0 l unit ||| 2 ^ bit)

/-- Is a heat under way whose word is not yet fixed (R198, R336), nor frozen in a fleet (R324)? -/
def State.wordOpen (s : State) : Bool :=
  match s.heat.job with
  | some j =>
    (j.phase == .admitting || j.phase == .ramp || j.phase == .steady || j.phase == .flush || j.phase == .reduce ||
      j.phase == .verdict) && s.heat.fixed.isNone && s.fleet.exch.frozen.isNone
  | none => false

/-- Sets a veto cause from a unit: in the heat's word while that is open, else carried into the next heat, or into
the saved copies of an urgent suspension; nothing without a RUN_HEATS operation (R28, R37, R336). -/
def State.cause (s : State) (unit bit : Nat) : State :=
  match s.heat.job with
  | none => s
  | some _ =>
    if s.wordOpen then { s with heat := { s.heat with status := setStatus s.heat.status unit bit } } else
    match s.heat.saved with
    | some v => { s with heat := { s.heat with saved := some { v with status := setStatus v.status unit bit } } }
    | none => { s with heat := { s.heat with carried := s.heat.carried ||| 2 ^ bit } }

/-- The S2 target of an event (R332): a unit, or a frame given by its device physical address. -/
def s2Target (code unit data : Nat) : Option (Nat ⊕ Nat) :=
  if code = evEccCe ∨ code = evEccUe ∨ code = evAddrFault then
    (if unitKind unit = 0x3 ∨ unitKind unit = 0x7 then some (.inr (fld data 127 64 / 65536 * 65536)) else some (.inl unit))
  else if code = evLinkCrc ∨ code = evCdcTimeout then some (.inl unit)
  else if code = evWatchdog ∧ unitKind unit = 0x5 then some (.inl unit)
  else none

/-- Can the fence sequence be applied to a unit (R344)? -/
def fenceable (u : Nat) : Bool := unitDefined u && decide (unitKind u ≤ 9)

/-- Retires a frame at once, without its copy to a spare: the address mapping and the spare follow in `retireFrame` of
the pour; here the frame is recorded (R347). -/
def State.markRetired (s : State) (frame : Nat) : State :=
  let s := { s with fences := { s.fences with retired := addTo s.fences.retired frame } }
  let s := if bitOf s.regs.policy 0 then s else
    { s with boot := { s.boot with stickyFrames := addTo s.boot.stickyFrames frame } }
  s.auditLate 0x17 0 stOk [] (natLe 8 frame)

/-- Is the heat past the tick that opens POUR (R335)? -/
def State.pastVerdict (s : State) : Bool :=
  match s.heat.job with
  | some j => j.phase == .pour || j.phase == .waitSync
  | none => false

/-- An S2 reaction: the target is fenced at once without a RUN_HEATS operation, else at the coming pour, or at the
next one when this pour has begun (R335). Frames wait for the same moment. -/
def State.degrade (s : State) (t : Nat ⊕ Nat) : State :=
  match t with
  | .inl u =>
    if !fenceable u then s else
    if !s.running then s.fenceStart u 1 else
    if s.pastVerdict then { s with fences := { s.fences with later := addTo s.fences.later (u, 1) } } else
    { s with fences := { s.fences with due := addTo s.fences.due (u, 1) } }
  | .inr f =>
    if s.pastVerdict then { s with fences := { s.fences with laterFrames := addTo s.fences.laterFrames f } } else
    { s with fences := { s.fences with dueFrames := addTo s.fences.dueFrames f } }

/-- An S4 reaction (R337): the running heat is vetoed and not replayed, or the job stops at the boundary; chunked
operations end with ST_CANCELLED at their next boundary, which a suspended one has reached. -/
def State.haltJobs (s : State) (unit seq : Nat) : State :=
  let s := if s.events.outstanding.any (fun e => decide (e.seq = seq)) then
      { s with events := { s.events with halts := addTo s.events.halts seq } }
    else s
  let chunked (o : Op) : Bool := decide (o.opc ∈ [0x10, 0x11, 0x12, 0x13, 0x20])
  let idle := s.ops.filter fun o => chunked o && decide (o.state = .suspended)
  let s := { s with ops := s.ops.map fun o => if chunked o then { o with endWith := some (o.endWith.getD stCancelled) } else o }
  let s := idle.foldl (fun s o => s.endOp o stCancelled) s
  match s.heat.job with
  | none => s
  | some j =>
    if j.phase = .suspended ∧ s.heat.saved.isNone then s.endJob stCancelled else
    if j.phase = .start ∧ s.heat.saved.isNone then s.endJob stCancelled else
    let early := s.wordOpen || s.heat.saved.isSome
    let s := if early then s.cause unit 11 else s
    { s with heat := { s.heat with job := some { j with endStatus := some (j.endStatus.getD stCancelled), noReplay := j.noReplay || early } } }

/-- The reaction of one severity level beyond the record (R334 to R338, S5 apart). -/
def State.react (s : State) (level code unit data seq : Nat) : State :=
  match level with
  | 2 => match s2Target code unit data with
    | some t => s.degrade t
    | none => s
  | 3 => s.cause iodUnit (vetoBit code)
  | 4 => s.haltJobs iodUnit seq
  | _ => s

/-- The slot of a record: within the heat, or all ones outside a heat (R310). -/
def State.eventSlot (s : State) : Nat :=
  match s.heat.job with
  | some j => if j.phase = .suspended ∨ j.phase = .start then 0xFFFFFFFF else j.slotInHeat
  | none => 0xFFFFFFFF

/-- Merges one more occurrence into an open record; EV_LINK_CRC adds up flits and keeps its flags (R341, R358). -/
def EventRec.merge (e : EventRec) (n data : Nat) : EventRec :=
  { e with count := satAdd 16 e.count n,
           data := if e.code = evLinkCrc then satAdd 16 (e.data % 2 ^ 16) (data % 2 ^ 16) + (e.data ||| data) / 2 ^ 16 * 2 ^ 16
             else e.data }

/-- The reactions of an occurrence: those of its record's configured level, and of its escalated level (R342). -/
def State.reactTo (s : State) (e : EventRec) (data : Nat) : State :=
  let s := s.react (if e.escalated then e.sev - 1 else e.sev) e.code e.unit data e.seq
  if e.escalated then s.react e.sev e.code e.unit data e.seq else s

/-- Raises n occurrences of an event at a configured severity: it merges into the open record of its class, or forms a new one, escalated when
one of its class is outstanding, one level up to S5; the reactions of its levels follow for every occurrence (R334, R338, R341, R342). An S5 reaction writes
the record and resets the module at the end of the command; nothing else is then raised (R340). -/
def State.raiseWith (s : State) (base code unit layer data n : Nat) (bad : Bool) : State :=
  let same (e : EventRec) : Bool := decide (e.code = code) && decide (e.unit = unit) && decide (e.layer = layer)
  if s.events.resetDue.isSome then s else
  match s.events.openRecs.find? same with
  | some e =>
    let s := { s with events := { s.events with openRecs := s.events.openRecs.map fun e => if same e then e.merge n data else e } }
    s.reactTo e data
  | none =>
    let raised := s.events.outstanding.any same && !neverEscalates code
    let sev := if raised then min 5 (base + 1) else base
    let e : EventRec := {
      seq := s.events.nextSeq, code := code, sev := sev, escalated := raised, poison := bad,
      unit := unit, count := min n 65535, heatNum := s.heat.heatNum, slot := s.eventSlot, layer := layer, data := data }
    let ev := s.events
    let s := { s with events := { ev with
      nextSeq := ev.nextSeq + 1, openRecs := ev.openRecs ++ [e],
      outstanding := if 1 ≤ sev then ev.outstanding ++ [e] else ev.outstanding,
      counts := if 1 ≤ sev then put ev.counts code (satAdd 32 (look 0 ev.counts code) 1) else ev.counts } }
    if sev = 5 then
      let t := s.postEvent e
      { t with events := { t.events with resetDue := some (e.enc s.port.eq.phase s.port.lostRun) } }
    else s.reactTo e data

/-- Raises n occurrences of an event at the severity that the map holds for its code (R333). -/
def State.raiseN (s : State) (code unit layer data n : Nat) (bad : Bool) : State :=
  s.raiseWith (s.sevOf code) code unit layer data n bad

/-- The module reset that an S5 event of this command is due (R338). -/
def State.settleReset (s : State) : State :=
  match s.events.resetDue with
  | some rec5 => s.moduleReset 2 rec5
  | none => s

/-- Raises one occurrence. -/
def State.raise (s : State) (code unit layer data : Nat) : State := s.raiseN code unit layer data 1 false

/-! ## Ring helpers -/

/-- The submission ring with a number. -/
def State.ring (s : State) (r : Nat) : Ring := s.port.sq.getD r ring0

/-- Changes a submission ring. -/
def State.setRing (s : State) (r : Nat) (f : Ring → Ring) : State :=
  { s with port := { s.port with sq := setAt s.port.sq r f } }

/-- Changes the registers. -/
def State.setRegs (s : State) (f : Regs → Regs) : State := { s with regs := f s.regs }

/-- Counts a refused register access (R394, R402, R415). -/
def State.accessError (s : State) : State := s.setRegs fun r => { r with accessErr := satAdd 32 r.accessErr 1 }

/-- Counts a write that the session's role does not allow (R384). -/
def State.rightsError (s : State) : State := s.setRegs fun r => { r with rightsErr := satAdd 32 r.rightsErr 1 }

/-- An event that carries all its severity's reaction state but is due to a firmware operation alone is left to the
caller; this clears the due work of the coming pour (R335). -/
def State.clearDue (s : State) : State := { s with fences := { s.fences with due := [], dueFrames := [] } }

end Sys2Proof.Machine
end

