-- ==== Sys2Proof/Machine/Mailbox.lean ====
section
/-! DEFINITION. The security mailbox: identity, sessions and roles, keys, firmware staging, the audit log's reading and
debug unlock (15 R367 to R371, R381 to R393, 16 R415 to R417). -/

namespace Sys2Proof.Machine

/-! ## Firmware images (R369) -/

/-- The components of an image header: type, offset, length. -/
def fwComponents (img : List Byte) : List (Nat × Nat × Nat) :=
  (List.range 8).map fun i => (u img (80 + 16 * i) 1, u img (84 + 16 * i) 4, u img (88 + 16 * i) 4)

/-- The header ranges of R369. -/
def fwHeaderOk (img : List Byte) : Bool :=
  let body := u img 16 8
  decide (512 ≤ img.length) && decide (slice img 0 8 = ascii "TIHOYFW1") && decide (u img 8 4 = 1) && decide (u img 12 4 ≤ 64) &&
  decide (body ≤ 96 * 2 ^ 20 - 512) && decide (512 + body ≤ img.length) && decide (u img 24 1 ≤ 1) && decide (u img 25 1 ≤ 1) &&
  zeroBytes img 26 6 && zeroBytes img 208 208 &&
  (List.range 8).all (fun i =>
    let t := u img (80 + 16 * i) 1
    decide (t ≤ 4) && zeroBytes img (81 + 16 * i) 3 && zeroBytes img (92 + 16 * i) 4 &&
      (t == 0 || decide (u img (84 + 16 * i) 4 + u img (88 + 16 * i) 4 ≤ body)))

/-- Does an image verify against the fuses (R369)? -/
def fwVerifies (f : Fuses) (img : List Byte) : Bool :=
  let body := slice img 512 (u img 16 8)
  let slot := u img 24 1
  fwHeaderOk img && !bitOf f.fwKeyRevoke slot &&
  (match (fwComponents img).find? (fun c => c.1 = 1) with
    | some c =>
      let key := slice body c.2.1 97
      decide (sha384 key = if slot = 0 then f.fwKeyHash0 else f.fwKeyHash1) &&
      ecdsaVerify key (slice img 0 416) (slice img 416 48) (slice img 464 48)
    | none => false) &&
  decide (sha384 body = slice img 32 48) && (fwComponents img).any (fun c => c.1 = 2) && decide (f.svn ≤ u img 12 4)

/-- A firmware slot: 0 is A, 1 is B. -/
def Boot.slot (b : Boot) (i : Nat) : FwSlot := if i = 0 then b.slotA else b.slotB

/-- Changes a firmware slot. -/
def Boot.setSlot (b : Boot) (i : Nat) (x : FwSlot) : Boot := if i = 0 then { b with slotA := x } else { b with slotB := x }

/-- Any TRIAL slot other than this one becomes BACKUP: at most one slot is TRIAL (R370; DESIGN CHOICE, log 143). -/
def Boot.soleTrial (b : Boot) (t : Nat) : Boot :=
  let x := b.slot (1 - t)
  if x.state = .trial then b.setSlot (1 - t) { x with state := .backup } else b

/-- The slot that STAGE_FIRMWARE writes: one that is neither ACTIVE nor TRIAL, else the TRIAL slot (R371). -/
def Boot.stageTarget (b : Boot) : Nat :=
  let free (x : FwSlot) : Bool := x.state != .active && x.state != .trial
  if free b.slotB then (if free b.slotA && b.slotB.state == .backup then 0 else 1) else
  if free b.slotA then 0 else if b.slotA.state == .trial then 0 else 1

/-- The code of a slot state (R416). -/
def SlotState.code : SlotState → Nat
  | .empty => 0
  | .trial => 1
  | .active => 2
  | .backup => 3
  | .invalid => 4

/-! ## One request (R386, R415) -/

/-- What a mailbox command answers. -/
structure Reply where
  status : Nat
  bytes  : List Byte
  state  : State
  deriving DecidableEq, Repr

/-- A reply without a response. -/
def answer (st : Nat) (s : State) : Reply := ⟨st, [], s⟩

/-- Writes STATUS, RESP_LEN and the response, clears BUSY and signals vector 63 (R415). -/
def State.respond (s : State) (st : Nat) (bytes : List Byte) : State :=
  let m := s.mbx
  State.signal { s with mbx := { m with
    busy := false, status := st, respLen := bytes.length, response := patch m.response 0 bytes } } 63

/-- Takes a request: the buffer, CODE and REQ_LEN as the host wrote them. -/
def State.takeRequest (s : State) (code : Nat) (req : List Byte) : State :=
  { s with mbx := { s.mbx with
    code := code, reqLen := min req.length 0xFFFF, busy := true, request := patch s.mbx.request 0 (req.take 4096) } }

/-- Runs one mailbox command: crucible mode, the session's role, the request's layout, then the effect (R386, R416). A
request longer than the buffer is ST_DESC_INVALID (R415). -/
def State.mailbox (s : State) (code : Nat) (req : List Byte) (inCruc : Bool) (role : Nat) (len : Nat)
    (zero : List (Nat × Nat)) (f : State → Reply) : State :=
  if !s.linkLive then s else
  if s.mbx.busy then s.accessError else
  let s := s.takeRequest code req
  let r :=
    if 4096 < req.length then answer stInvalid s else
    if s.inCrucible && !inCruc then answer stConfig s else
    if s.mbx.session < role then answer stRights s else
    if req.length < len || !(zero.all fun z => zeroBytes req z.1 z.2) then answer stInvalid s else f s
  r.state.respond r.status r.bytes

/-- Is the action refused because its audit entry cannot be written (R389)? -/
def State.auditable (s : State) (f : State → Reply) : Reply := if s.audit.flashOk then f s else answer stConfig s

/-- Appends an entry under the mailbox session. -/
def State.auditMbx (s : State) (action st : Nat) (object : List Byte) : State :=
  s.auditAppend action s.mbx.session st s.mbx.sessionKey object

/-! ## The commands -/

/-- The response of GET_IDENTITY (R416). -/
def State.identity (s : State) : List Byte :=
  let inst := s.mbx.keys.filter fun k => k.role = 2
  let oper := s.mbx.keys.filter fun k => k.role = 1
  let head := natLe 8 s.fuses.serial ++ natLe 1 s.fuses.order ++ zeros 3 ++ natLe 4 s.fuses.svn ++
    natLe 1 s.boot.slotA.state.code ++ natLe 1 s.boot.slotB.state.code ++ zeros 2 ++ natLe 4 s.boot.slotA.svn ++
    natLe 4 s.boot.slotB.svn ++ natLe 1 (if inst.isEmpty then 0 else 1) ++ natLe 1 inst.length ++ natLe 1 oper.length
  slice head 0 64 ++ ((inst ++ oper).map (·.id)).flatten

def mbxGetIdentity (req : List Byte) (s : State) : State :=
  s.mailbox 0x01 req true 0 0 [] fun s => ⟨stOk, s.identity, s⟩

def mbxAuthNonce (req : List Byte) (s : State) : State :=
  s.mailbox 0x02 req true 0 0 [] fun s =>
    let (n, s) := s.draw
    let v := natBe 48 (Config.nonce n).toNat
    ⟨stOk, v, { s with mbx := { s.mbx with authNonce := some v } }⟩

/-- The 82-byte message of AUTH (R383). -/
def authMessage (serial : Nat) (nonce : List Byte) (role mask : Nat) (key : List Byte) : List Byte :=
  ascii "HSAUTH01" ++ natLe 8 serial ++ nonce ++ natLe 1 role ++ natLe 1 mask ++ key

/-- A refused AUTH: counted, and locked after 8 in a row (R383). -/
def State.authFailure (s : State) : State :=
  let m := s.mbx
  let run := m.authFailRun + 1
  { s with mbx := { m with
    authFail := satAdd 32 m.authFail 1, authFailRun := min run 8, authLocked := m.authLocked || decide (8 ≤ run) } }

/-- Grants a role to the session and to each ring in the mask (R383). -/
def State.grant (s : State) (role mask : Nat) (key : List Byte) : State :=
  let s := if s.mbx.session = 0 then s else s.endSession 0
  let s := { s with mbx := { s.mbx with session := role, sessionKey := key, ringMask := mask, authFailRun := 0 } }
  ((List.range 8).filter fun r => bitOf mask r).foldl
    (fun s r => (s.endRole r).setRing r fun q => { q with role := role, key := key, counts := [] }) s

def mbxAuth (req : List Byte) (s : State) : State :=
  s.mailbox 0x03 req true 0 128 [(2, 14)] fun s => s.auditable fun s =>
    let role := u req 0 1
    let mask := u req 1 1
    let key := slice req 16 16
    let object := natLe 1 role ++ natLe 1 mask
    if role ≠ 1 ∧ role ≠ 2 then answer stInvalid s else
    let nonce := s.mbx.authNonce
    let s := { s with mbx := { s.mbx with authNonce := none } }
    let good := !s.mbx.authLocked && (match nonce, s.mbx.keys.find? (fun k => k.id = key) with
      | some n, some k => decide (role ≤ k.role) &&
          ecdsaVerify k.enc (authMessage s.fuses.serial n role mask key) (slice req 32 48) (slice req 80 48)
      | _, _ => false)
    if good then answer stOk ((s.grant role mask key).auditAppend 0x01 role stOk key object)
    else answer stRights (s.authFailure.auditAppend 0x02 0 stRights key object)

def mbxLockoutExpiry (s : State) : State :=
  if s.mbx.authLocked then { s with mbx := { s.mbx with authLocked := false, authFailRun := 0 } } else s

def mbxRelease (req : List Byte) (s : State) : State :=
  s.mailbox 0x04 req true 1 2 [(0, 1)] fun s => answer stOk (s.endSession (u req 1 1))

/-- The most keys of a role (R382). -/
def keySlots (role : Nat) : Nat := if role = 2 then 4 else 32

/-- Is the module claimed (R382)? -/
def State.claimed (s : State) : Bool := s.mbx.keys.any fun k => k.role = 2

def mbxEnrollKey (req : List Byte) (s : State) : State :=
  s.mailbox 0x10 req false 0 113 [(1, 15)] fun s =>
    let role := u req 0 1
    let enc := slice req 16 97
    let id := keyIdOf enc
    let claims := !s.claimed && decide (role = 2)
    if s.mbx.session < 2 && !claims then answer stRights s else
    s.auditable fun s =>
    if (role ≠ 1 ∧ role ≠ 2) ∨ (ecDecode enc).isNone ∨ s.mbx.keys.any (fun k => k.id = id) ∨
        keySlots role ≤ (s.mbx.keys.filter fun k => k.role = role).length then answer stInvalid s else
    let s := { s with mbx := { s.mbx with keys := s.mbx.keys ++ [({ enc := enc, id := id, role := role } : Key)] } }
    let s := s.auditMbx 0x04 stOk id
    ⟨stOk, id, if claims then s.auditMbx 0x06 stOk id else s⟩

def mbxRevokeKey (req : List Byte) (s : State) : State :=
  s.mailbox 0x11 req false 2 32 [(0, 16)] fun s => s.auditable fun s =>
    let id := slice req 16 16
    match s.mbx.keys.find? (fun k => k.id = id) with
    | none => answer stInvalid s
    | some k =>
      if k.role = 2 ∧ (s.mbx.keys.filter fun x => x.role = 2).length = 1 then answer stConfig s else
      let s := { s with mbx := { s.mbx with keys := s.mbx.keys.filter fun x => x.id ≠ id } }
      let s := s.auditMbx 0x05 stOk id
      let s := ((List.range 8).filter fun r => (s.ring r).role ≠ 0 ∧ (s.ring r).key = id).foldl State.endRole s
      answer stOk (if s.mbx.session ≠ 0 ∧ s.mbx.sessionKey = id then s.endSession 0 else s)

def mbxStageFirmware (req : List Byte) (s : State) : State :=
  s.mailbox 0x20 req true 2 128 [(13, 115)] fun s => s.auditable fun s =>
    let ofs := u req 0 8
    let len := u req 8 4
    let last := bitOf (u req 12 1) 0
    if len = 0 ∨ 3968 < len ∨ 1 < u req 12 1 ∨ req.length < 128 + len ∨ 96 * 2 ^ 20 < ofs + len then answer stInvalid s else
    let b := s.boot
    let t := b.staging.getD b.stageTarget
    let old := if b.staging.isSome then (b.slot t).image else []
    let img := patch old ofs (slice req 128 len)
    let good := last && fwVerifies s.fuses img
    let x : FwSlot := { state := if !last then .empty else if good then .trial else .invalid, image := img, svn := u img 12 4,
                         keySlot := u img 24 1, factory := false }
    let b := if last && good then b.soleTrial t else b
    let s := { s with boot := { b.setSlot t x with staging := if last then none else some t } }
    let st := if last && !good then stInvalid else stOk
    let s := s.auditMbx 0x20 st (natLe 4 t ++ natLe 4 x.svn)
    ⟨st, natLe 8 img.length ++ (if last then natLe 1 t else []), s⟩

/-- The slot in state ACTIVE. -/
def Boot.activeSlot (b : Boot) : Option Nat :=
  if b.slotA.state == .active then some 0 else if b.slotB.state == .active then some 1 else none

def mbxAdvanceSvn (req : List Byte) (s : State) : State :=
  s.mailbox 0x21 req false 2 0 [] fun s => s.auditable fun s =>
    match s.boot.activeSlot with
    | none => answer stConfig s
    | some i =>
      let v := max s.fuses.svn (s.boot.slot i).svn
      let s := { s with fuses := { s.fuses with svn := v } }
      answer stOk (s.auditMbx 0x21 stOk (natLe 4 i ++ natLe 4 v))

def mbxClearStartFail (req : List Byte) (s : State) : State :=
  s.mailbox 0x22 req true 2 0 [] fun s => s.auditable fun s =>
    answer stOk (State.auditMbx { s with boot := { s.boot with startFail := 0 } } 0x22 stOk [])

/-- RESET_MODULE: the response goes out before the reset begins; a reset proceeds whatever flash does (R389, R416). -/
def mbxResetModule (req : List Byte) (s : State) : State :=
  let role := s.mbx.session
  let fits := s.linkLive && !s.mbx.busy && decide (2 ≤ role) && decide (req.length ≤ 4096)
  let s := s.mailbox 0x23 req true 2 0 [] fun s => answer stOk (s.auditLate 0x23 role stOk s.mbx.sessionKey [])
  if fits then s.moduleReset 0x04 [] else s

def mbxAuditRead (req : List Byte) (s : State) : State :=
  s.mailbox 0x30 req true 1 9 [] fun s =>
    let first := u req 0 8
    if 1 < u req 8 1 then answer stInvalid s else
    if bitOf (u req 8 1) 0 then
      ⟨stOk, ((s.audit.checkpoints.filter fun c => first ≤ u c 0 8).take 15).flatten, s⟩
    else ⟨stOk, ((s.audit.entries.filter fun e => first ≤ u e 0 8).take 31).flatten, s⟩

def mbxAuditCheckpoint (req : List Byte) (s : State) : State :=
  s.mailbox 0x31 req false 1 0 [] fun s => s.auditable fun s =>
    let s := s.checkpoint
    ⟨stOk, s.audit.checkpoints.getLast?.getD [], s⟩

def mbxDebugNonce (req : List Byte) (s : State) : State :=
  s.mailbox 0x40 req false 0 0 [] fun s =>
    let (n, s) := s.draw
    let v := natBe 48 (Config.nonce n).toNat
    ⟨stOk, v, { s with mbx := { s.mbx with debugNonce := some v } }⟩

/-- The checks of DEBUG_UNLOCK (R392): both signatures, the enrolled installer key, and one nonce and scope in both.
The debug public key is held to DBG_KEY_HASH (log 22). -/
def State.unlockOk (s : State) (req : List Byte) : Bool :=
  let token := slice req 0 180
  let unlock := slice req 192 212
  let dbg := s.boot.dbgKey
  (match s.mbx.debugNonce, s.mbx.keys.find? (fun k => k.role = 2 ∧ k.id = slice token 68 16) with
    | some n, some k =>
      decide (slice token 0 84 = ascii "HSCONSNT" ++ natLe 8 s.fuses.serial ++ n ++ slice token 64 4 ++ k.id) &&
      decide (slice unlock 0 116 = ascii "HSUNLOCK" ++ natLe 8 s.fuses.serial ++ n ++ slice token 64 4 ++ sha384 token) &&
      ecdsaVerify k.enc (slice token 0 84) (slice token 84 48) (slice token 132 48) &&
      decide (sha384 dbg = s.fuses.dbgKeyHash) && ecdsaVerify dbg (slice unlock 0 116) (slice unlock 116 48) (slice unlock 164 48)
    | _, _ => false)

def mbxDebugUnlock (req : List Byte) (s : State) : State :=
  s.mailbox 0x41 req false 0 404 [(180, 12)] fun s => s.auditable fun s =>
    let scope := u req 64 4
    if s.unlockOk req then
      let s := { s with mbx := { s.mbx with debugScope := s.mbx.debugScope ||| scope } }
      let s := s.auditAppend 0x30 3 stOk (slice req 68 16) (natLe 4 scope)
      answer stOk (if bitOf scope 1 then
        let s := s.haltJobs iodUnit 0
        { s with events := { s.events with mfgHalt := true, halts := s.events.halts.filter fun q => q ≠ 0 } } else s)
    else answer stRights (s.auditAppend 0x31 0 stRights (slice req 68 16) (natLe 4 scope))

/-- Writes the entries that waited while flash accepted no writes (R389). -/
def flashAgain (s : State) : State :=
  let l := s.audit.deferred
  l.foldl (fun s d => s.auditAppend d.action d.role d.status d.key d.object)
    { s with audit := { s.audit with flashOk := true, deferred := [] } }

/-- A GO of the mailbox (R415): the command that CODE names, with REQ_LEN bytes of the request buffer. -/
def State.mailboxGo (s : State) : State :=
  let m := s.mbx
  if m.busy then s.accessError else
  if 4096 < m.reqLen then s.respond stInvalid [] else
  let req := m.request.take m.reqLen
  match m.code with
  | 0x01 => mbxGetIdentity req s
  | 0x02 => mbxAuthNonce req s
  | 0x03 => mbxAuth req s
  | 0x04 => mbxRelease req s
  | 0x10 => mbxEnrollKey req s
  | 0x11 => mbxRevokeKey req s
  | 0x20 => mbxStageFirmware req s
  | 0x21 => mbxAdvanceSvn req s
  | 0x22 => mbxClearStartFail req s
  | 0x23 => mbxResetModule req s
  | 0x30 => mbxAuditRead req s
  | 0x31 => mbxAuditCheckpoint req s
  | 0x40 => mbxDebugNonce req s
  | 0x41 => mbxDebugUnlock req s
  | _ => s.respond stInvalid []

/-! ## Attestation over DOE (R390, R391) -/

/-- The report of R391 up to its signature. -/
def State.report (s : State) (nonce : List Byte) : List Byte :=
  let flags := (if s.inCrucible then 1 else 0) + (if s.mbx.debugScope % 2 = 1 then 2 else 0) +
    (if bitOf s.mbx.debugScope 1 then 4 else 0) + (if s.boot.runTrial then 8 else 0)
  let policies := natLe 8 s.regs.policy ++ natLe 8 s.regs.lpCfg ++ natLe 8 (nth s.regs.pourSync.active 2)
  let store := (s.mbx.keys.map fun k => k.enc ++ k.id ++ natLe 1 k.role).flatten ++ policies
  ascii "TIHOYATT" ++ natLe 8 s.fuses.serial ++ natLe 1 s.fuses.order ++ natLe 1 flags ++ zeros 2 ++ natLe 4 s.fuses.svn ++
    natLe 4 (if s.inCrucible then 0 else s.boot.runSvn) ++ s.boot.runHash ++ s.fingerprint ++
    (match s.heat.pattern with
      | some p => p.hash
      | none => zeros 48) ++
    sha384 store ++ s.audit.chain ++ natLe 8 s.audit.seq ++ slice nonce 0 48

/-- ATTEST: the report with the identity key's signature, a free value (log 18). -/
def attestReport (nonce : List Byte) (s : State) : State :=
  if !s.linkLive then s else
  let (n, s) := s.draw
  s.emit (.doe (s.report nonce ++ natBe 96 (Config.identitySignature n).toNat))

/-- GET_CERTS: a byte range of the certificate chain (R390). -/
def getCertBytes (offset length : Nat) (s : State) : State :=
  if !s.linkLive then s else s.emit (.doe ((s.boot.certs.drop offset).take length))

end Sys2Proof.Machine
end

