-- ==== Sys2Proof/Machine/Memory.lean ====
section
/-! DEFINITION. Memory: the device physical map and the LPDDR6 interleave, the cells in their canonical form, the
address-folded code and what a read finds, partial writes, the page tables and the walk (11 R262 to R280, 10 R258 to
R261). -/

namespace Sys2Proof.Machine

/-! ## Cells: a sorted list without repeats and without zero bytes (R280: an unlisted byte reads 0) -/

/-- The byte at an address. -/
def cellGet : List Host.Cell → Nat → Byte
  | [], _ => 0
  | c :: cs, a => if c.1 = a then c.2 else cellGet cs a

/-- The listed cells of a run of bytes. -/
def cellsOf : Nat → List Byte → List Host.Cell
  | _, [] => []
  | a, b :: bs => if b = 0 then cellsOf (a + 1) bs else (a, b) :: cellsOf (a + 1) bs

/-- Writes a run of bytes. -/
def cellSet (cs : List Host.Cell) (a : Nat) (bs : List Byte) : List Host.Cell :=
  cs.filter (fun c => decide (c.1 < a)) ++ cellsOf a bs ++ cs.filter (fun c => decide (a + bs.length ≤ c.1))

/-- Reads a run of bytes. -/
def cellRead (cs : List Host.Cell) (a n : Nat) : List Byte :=
  let near := cs.filter fun c => decide (a ≤ c.1) && decide (c.1 < a + n)
  (List.range n).map fun i => cellGet near (a + i)

/-- The canonical form of a listing by number: keys strictly rising, no entry with what an unlisted key has. -/
def canonical {α : Type} [DecidableEq α] (unlisted : α) : List (Nat × α) → Bool
  | [] => true
  | [c] => decide (c.2 ≠ unlisted)
  | c :: d :: cs => decide (c.1 < d.1) && decide (c.2 ≠ unlisted) && canonical unlisted (d :: cs)

/-- Files the deviation of a word's check byte; a valid check byte is not listed. -/
def syndSet (l : List (Nat × Nat)) (w S : Nat) : List (Nat × Nat) :=
  l.filter (fun e => decide (e.1 < w)) ++ (if S = 0 then [] else [(w, S)]) ++ l.filter (fun e => decide (w < e.1))

/-- Memory.wf: bytes and check-byte deviations are in canonical form. -/
def Mem.wf (m : Mem) : Bool := canonical 0 m.cells && canonical 0 m.synd

/-! ## The device physical map (R262 to R268) -/

/-- One GiB. -/
def gib : Nat := 2 ^ 30
/-- Base of the LPDDR6 windows. -/
def lpBase : Nat := 0x010000000000
/-- Base of the core-store window. -/
def coreBase : Nat := 0x080000000000
/-- Base of the cluster-store window. -/
def clusterBase : Nat := 0x080080000000

/-- C: the bytes of one channel, by order code (R1, R266). -/
def State.chanBytes (s : State) : Nat := if s.fuses.order = 2 then 16 * gib else 8 * gib
/-- Lc in force (R266, R410). -/
def State.lpLocal (s : State) : Nat := min (fld s.regs.lpInForce 4 0 * gib) s.chanBytes
/-- The grain in force (R267, R410). -/
def State.lpGrain (s : State) : Nat :=
  match fld s.regs.lpInForce 7 5 with
  | 0 => 256
  | 1 => 1024
  | 3 => 65536
  | 4 => 2097152
  | _ => 4096
/-- Active channels of MDm in the list act (R268). -/
def State.actOf (s : State) (m : Nat) : List Nat := s.regs.lpAct.filter fun n => decide (n / 16 = m)
/-- Base of the local window of MDm (R266). -/
def State.localBase (s : State) (m : Nat) : Nat := lpBase + 128 * (s.chanBytes - s.lpLocal) + m * 16 * s.lpLocal
/-- Size of the interleaved window (R266). -/
def State.interSize (s : State) : Nat := s.regs.lpAct.length * (s.chanBytes - s.lpLocal)

/-- resolve of R267: channel and in-channel offset of a window offset. -/
def resolve (act : List Nat) (grain o extra : Nat) : Nat × Nat :=
  let c := o / grain
  (nth act (c % max act.length 1), c / max act.length 1 * grain + o % grain + extra)

/-- The channel and in-channel offset of an LPDDR6 address; none between windows. -/
def State.lpResolve (s : State) (a : Nat) : Option (Nat × Nat) :=
  if a < lpBase then none else
  let o := a - lpBase
  if o < s.interSize then some (resolve s.regs.lpAct s.lpGrain o 0) else
  (List.range 8).findSome? fun m =>
    let b := s.localBase m
    if b ≤ a ∧ a < b + (s.actOf m).length * s.lpLocal then
      some (resolve (s.actOf m) s.lpGrain (a - b) (s.chanBytes - s.lpLocal))
    else none

/-- Where a word lives: the unit that events name and the location L of R275. -/
structure Loc where
  unit : Nat
  loc  : Nat
  deriving DecidableEq, Repr

/-- Locates a device physical address; none for an unpopulated range of R262. -/
def State.locate (s : State) (a : Nat) : Option Loc :=
  if a < 256 * gib then
    some ⟨bondedUnit (a / (16 * gib)), a / (16 * gib) * 2 ^ 31 + a % (16 * gib) / 8⟩
  else if a < 0x030000000000 then
    (s.lpResolve a).map fun r => ⟨channelUnit r.1, 2 ^ 38 + r.1 * 2 ^ 31 + r.2 / 8⟩
  else if coreBase ≤ a ∧ a < clusterBase then
    some ⟨coreUnit ((a - coreBase) / 2097152), 2 * 2 ^ 38 + (a - coreBase) / 8⟩
  else if clusterBase ≤ a ∧ a < clusterBase + 0x80000000 then
    some ⟨clusterUnit ((a - clusterBase) / 16777216), 3 * 2 ^ 38 + (a - clusterBase) / 8⟩
  else none

/-- May a leaf point to an address (R259)? It is populated, and its channel is not fenced (R268). -/
def State.mapped (s : State) (a : Nat) : Bool :=
  match s.locate a with
  | some l => !(decide (unitKind l.unit = 0x7) && s.fencedNow l.unit)
  | none => false

/-- Is an address populated and in no fenced unit? -/
def State.populated (s : State) (a : Nat) : Bool :=
  match s.locate a with
  | some l => !s.fencedNow l.unit
  | none => false

/-- Does a whole range pass a test of its addresses? A 256-byte grain is the finest step of any window. -/
def grainsAll (a n : Nat) (p : Nat → Bool) : Bool := (List.range (n / 256 + 2)).all fun i => p (a + min (256 * i) (n - 1))

/-- Is a whole range populated? -/
def State.rangePopulated (s : State) (a n : Nat) : Bool := grainsAll a n s.populated

/-- The unit that holds an address: a bonded DRAM die, a channel, a core or a cluster; the IOD for none. -/
def State.ownerUnit (s : State) (a : Nat) : Nat :=
  match s.locate a with
  | some l => l.unit
  | none => iodUnit

/-- The die that holds an address, as a unit code. -/
def State.holder (s : State) (a : Nat) : Nat := dieOf (s.ownerUnit a)

/-! ## The address-folded code (R275 to R277) -/

/-- The weight of a byte. -/
def byteWeight (b : Nat) : Nat := ((List.range 8).filter fun i => b.testBit i).length

/-- Columns of the 64 data bits (R276): the weight-3 bytes, then the first eight of weight 5. -/
def dataColumns : List Nat :=
  (List.range 256).filter (fun b => byteWeight b = 3) ++ ((List.range 256).filter fun b => byteWeight b = 5).take 8

/-- Columns g_0 to g_39 of the location bits (R276): non-zero bytes of even weight. -/
def locColumns : List Nat := ((List.range 256).filter fun b => b ≠ 0 && byteWeight b % 2 = 0).take 40

/-- XOR of the columns of the set bits of a value. -/
def foldCols (cols : List Nat) (v : Nat) : Nat :=
  ((List.range cols.length).zip cols).foldl (fun acc e => if v.testBit e.1 then acc ^^^ e.2 else acc) 0

/-- The check byte of a word at a location (R276). -/
def foldCheck (d loc : Nat) : Nat := foldCols dataColumns d ^^^ foldCols locColumns loc

/-- What a read finds in a word (R277). -/
inductive Found where
  | good
  | fixedData (bit : Nat)
  | fixedCheck
  | bad
  | poisoned
  | addrFault (k : Nat)
  deriving DecidableEq, Repr

/-- Classifies a syndrome (R277), row by row. -/
def classify (S : Nat) : Found :=
  if S = 0 then .good else
  if byteWeight S % 2 = 1 then
    (if byteWeight S = 1 then .fixedCheck else
      match dataColumns.findIdx? (· == S) with
      | some i => .fixedData i
      | none => .bad)
  else if S = 0xFF then .poisoned else
  match locColumns.findIdx? (· == S) with
  | some k => .addrFault k
  | none => .bad

/-- Is the data usable: good or corrected? -/
def Found.usable : Found → Bool
  | .good | .fixedData _ | .fixedCheck => true
  | _ => false

/-- The stored syndrome of the word that holds an address: how its check byte differs from the right one (log 10). -/
def Mem.syndrome (m : Mem) (a : Nat) : Nat := look 0 m.synd (a / 8)

/-- The 8 data bytes of the word that holds an address. -/
def Mem.word (m : Mem) (a : Nat) : Nat := leNat (cellRead m.cells (a / 8 * 8) 8)

/-- What a reader of the word gets: corrected data where it can be corrected. -/
def Mem.readWord (m : Mem) (a : Nat) : Nat × Found :=
  let d := m.word a
  match classify (m.syndrome a) with
  | .fixedData i => (d ^^^ 2 ^ i, .fixedData i)
  | f => (d, f)

/-- DATA of an ECC event (R310). -/
def eccData (loc S k a : Nat) : Nat := loc % 2 ^ 40 + S % 256 * 2 ^ 40 + k % 64 * 2 ^ 48 + a * 2 ^ 64

/-- Raises the event of a word that was not good (R277, R279). -/
def State.eccEvent (s : State) (a : Nat) (f : Found) : State :=
  match s.locate a with
  | none => s
  | some l =>
    let S := s.mem.syndrome a
    match f with
    | .good => s
    | .fixedData _ | .fixedCheck => s.raise evEccCe l.unit 0 (eccData l.loc S 0 (a / 8 * 8))
    | .addrFault k => s.raise evAddrFault l.unit 0 (eccData l.loc S k (a / 8 * 8))
    | .poisoned => s.raiseN evEccUe l.unit 0 (eccData l.loc S 0 (a / 8 * 8)) 1 true
    | .bad => s.raise evEccUe l.unit 0 (eccData l.loc S 0 (a / 8 * 8))

/-- The row that holds an LPDDR6 address, with its channel (R274). Rows of 2 KiB and 16 banks: log 21. -/
def State.rowOf (s : State) (a : Nat) : Option Nat := (s.lpResolve a).map fun r => r.1 * 2 ^ 30 + r.2 / 2048

/-- The activation counts after one more activation of a row: at LP_ACT_TH the controller issues refresh management for
the bank, which clears the bank's counts (R274). -/
def activateRow (th : Nat) (acts : List (Nat × Nat)) (row : Nat) : List (Nat × Nat) :=
  let n := look 0 acts row + 1
  if th ≤ n then acts.filter fun e => !(decide (e.1 / 2 ^ 30 = row / 2 ^ 30) && decide (e.1 % 16 = row % 16)) else put acts row n

/-- The rows that an access to a range opens, each once (log 21). -/
def State.rowsOf (s : State) (a n : Nat) : List Nat :=
  if a < lpBase then [] else
  ((List.range (n / 256 + 2)).map fun i => s.rowOf (a + min (256 * i) (n - 1))).foldl (fun l r =>
    match r with
    | some x => addTo l x
    | none => l) []

/-- Counts one activation of every row that an access to a range opens (R274). -/
def State.activate (s : State) (a n : Nat) : State :=
  { s with mem := { s.mem with
      rowActs := (s.rowsOf a n).foldl (activateRow (max 256 (fld s.regs.lpInForce 23 8))) s.mem.rowActs } }

/-- What a read of a range returns: bytes (corrected where possible), the usability of each word, and the count of
unusable words. -/
structure Read where
  bytes : List Byte
  found : List Found
  deriving DecidableEq, Repr

/-- Were all words usable? -/
def Read.ok (r : Read) : Bool := r.found.all Found.usable

/-- Reads the words of a range under R277 and raises their events. -/
def State.readMem (s : State) (a n : Nat) : Read × State :=
  if n = 0 then (⟨[], []⟩, s) else
  let first := a / 8
  let count := (a + n - 1) / 8 - first + 1
  let odd := s.mem.synd.filter fun e => decide (first ≤ e.1) && decide (e.1 < first + count)
  let s := s.activate a n
  if odd.isEmpty then (⟨cellRead s.mem.cells a n, [.good]⟩, s) else
  let words := (List.range count).map fun i => (8 * (first + i), s.mem.readWord (8 * (first + i)))
  let all := (words.map fun w => natLe 8 w.2.1).flatten
  let s := words.foldl (fun s w => s.eccEvent w.1 w.2.2) s
  (⟨slice all (a % 8) n, words.map (·.2.2)⟩, s)

/-- The bytes as stored, without a check of their words: for a test of the model on what memory holds, never for a read
that the spec gives a unit. -/
def State.peek (s : State) (a n : Nat) : List Byte := cellRead s.mem.cells a n

/-- Stores bytes whose words all get valid check bytes. -/
def State.poke (s : State) (a : Nat) (bs : List Byte) : State :=
  if bs.isEmpty then s else
  let first := a / 8
  let last := (a + bs.length + 7) / 8
  { s with mem := { s.mem with
    cells := cellSet s.mem.cells a bs,
    synd := s.mem.synd.filter fun e => !(decide (first ≤ e.1) && decide (e.1 < last)) } }

/-- Marks the word at an address poisoned (R279). -/
def State.poison (s : State) (a : Nat) : State := { s with mem := { s.mem with synd := syndSet s.mem.synd (a / 8) 0xFF } }

/-- Merges bytes into part of one word (R279): the word is read, and written poisoned when that read is not usable. -/
def State.mergeWord (s : State) (a : Nat) (bs : List Byte) : Bool × State :=
  let w := s.mem.readWord a
  if s.mem.syndrome a = 0 then (true, s.poke a bs) else
  let s := s.eccEvent a w.2
  let s := (s.poke (a / 8 * 8) (natLe 8 w.1)).poke a bs
  if w.2.usable then (true, s) else (false, s.poison a)

/-- Writes bytes; partial words at the ends are merged. The flag tells whether the merging reads were usable. -/
def State.writeMem (s : State) (a : Nat) (bs : List Byte) : Bool × State :=
  if bs.isEmpty then (true, s) else
  let s := s.activate a bs.length
  let h := if a % 8 = 0 then 0 else min bs.length (8 - a % 8)
  let t := (bs.length - h) % 8
  let (ok1, s) := if h = 0 then (true, s) else s.mergeWord a (bs.take h)
  let mid := (bs.drop h).take (bs.length - h - t)
  let s := s.poke (a + h) mid
  let (ok2, s) := if t = 0 then (true, s) else s.mergeWord (a + bs.length - t) (bs.drop (bs.length - t))
  (ok1 && ok2, s)

/-- Writes words whose source could not be corrected as poisoned words (R279): `bad` lists the flags of the source's
words, the first of them holding the first byte. -/
def State.poisonRange (s : State) (a : Nat) (bad : List Bool) : State :=
  ((List.range bad.length).zip bad).foldl (fun s e => if e.2 then s.poison (a + 8 * e.1) else s) s

/-! ## Translation (R258 to R261) -/

/-- Base of the reserved area of a die (R264): its top 64 MiB, where the page tables start (log 14). -/
def tableBase (d : Nat) : Nat := d * (16 * gib) + 16 * gib - 64 * 2 ^ 20

/-- What a walk yields: a fault kind of R310 (0 to 3), a device physical address, a host IOVA, or a fenced or timeout
reply on the way (R345, R349, R352). -/
inductive Walk where
  | fault (kind : Nat)
  | device (a : Nat)
  | host (iova : Nat)
  | fenced
  deriving DecidableEq, Repr

/-- The 64 KiB frames that a region outside the stores covers (R219). -/
def Region.frameCount (r : Region) : Nat := if r.size = 0 then 0 else ceilDiv (r.base % 65536 + r.size) 65536

/-- The whole frames of a region as base and size: what it maps (R219). -/
def Region.span (r : Region) : Nat × Nat := (65536 * (r.base / 65536), 65536 * r.frameCount)

/-- Does an address lie in a plan region of a frozen tensor while a RUN_HEATS operation is in progress or suspended? Its
leaves then carry no WR (R260). -/
def State.frozenVa (s : State) (va : Nat) : Bool :=
  s.running && match s.heat.pattern with
    | some p => p.regions.any fun r => decide (r.place ≠ 0x40) && decide (r.place ≠ 0x41) && (p.tnum.getD r.tensor default).frozen
        && overlaps va 1 r.span.1 r.span.2
    | none => false

/-- Checks a leaf and forms the output address (R259). -/
def State.leaf (s : State) (e size va : Nat) (write : Bool) : Walk :=
  let out := fld e 55 8 * 256
  if out % size ≠ 0 then .fault 2 else
  if !(if write then bitOf e 2 && !s.frozenVa va else bitOf e 1) then .fault 1 else
  let a := out + va % size
  if bitOf e 4 then .host a else if s.mapped a && decide (a < coreBase) then .device a else .fault 3

/-- A word of a page table as the MMU and firmware read it: corrected where it can be, and no valid entry where it cannot
(R277, R279; log 136). -/
def Mem.entry (m : Mem) (a : Nat) : Nat := if (m.readWord a).2.usable then (m.readWord a).1 else 0

/-- Walks the tables from an entry's level (3, 2, 1 left to go); the first part lists the words read (R259). -/
def State.walkGo (s : State) (d va : Nat) (write : Bool) : Nat → Nat → List Nat × Walk
  | 0, _ => ([], .fault 2)
  | k + 1, base =>
    let (idx, size) := if k = 2 then (fld va 47 30, 2 ^ 30) else if k = 1 then (fld va 29 21, 2 ^ 21) else (fld va 20 16, 65536)
    let at_ := base + 8 * idx
    let e := s.mem.entry at_
    if !bitOf e 0 then ([at_], .fault 0) else
    if fld e 7 5 ≠ 0 ∨ fld e 63 56 ≠ 0 then ([at_], .fault 2) else
    if bitOf e 3 then ([at_], s.leaf e size va write) else
    if k = 0 ∨ bitOf e 4 then ([at_], .fault 2) else
    let next := fld e 55 8 * 256
    let align := if k = 2 then 4096 else 256
    if next / (16 * gib) ≠ d ∨ next % align ≠ 0 ∨ 256 * gib ≤ next then ([at_], .fault 2) else
    let r := s.walkGo d va write k next
    (at_ :: r.1, r.2)

/-- The die whose tables serve an access that starts on a die (R258): a memory-side die uses its neighbour of link 0,
or of link 1 while that is fenced; none while both are. -/
def State.tableDie (s : State) (unit : Nat) : Option Nat :=
  match unitKind unit with
  | 0x2 => some (unitIdx unit)
  | 0x6 =>
    let m := unitIdx unit
    if !s.fencedNow (dieUnit (mdNeighbour m 0)) then some (mdNeighbour m 0) else
    if !s.fencedNow (dieUnit (mdNeighbour m 1)) then some (mdNeighbour m 1) else none
  | _ => some 0

/-- The walk of a device virtual address for an access that starts on a die: the table words read and the outcome. -/
def State.walk (s : State) (unit va : Nat) (write : Bool) : List Nat × Walk :=
  match s.tableDie unit with
  | none => ([], .fault 0)
  | some d =>
    let root := nth s.regs.xlateRoot d
    if root = 0 ∨ 2 ^ 48 ≤ va then ([], .fault 0) else
    if unitKind unit = 0x6 ∧ ¬ s.reaches unit (dieUnit d) then ([], .fenced) else s.walkGo d va write 3 root

/-- Translates a device virtual address for an access that starts on a die (R258, R259). -/
def State.translate (s : State) (unit va : Nat) (write : Bool) : Walk := (s.walk unit va write).2

/-- DATA of EV_XLATE_FAULT (R310). -/
def xlateData (va : Nat) (write : Bool) (kind : Nat) : Nat := va % 2 ^ 48 + (if write then 2 ^ 48 else 0) + kind * 2 ^ 49

/-- Stores one entry of a die's tables. -/
def State.setEntry (s : State) (a v : Nat) : State := s.poke a (natLe 8 v)

/-- The next table of an entry, made if the entry is not valid: tables are taken upward from the level-1 table, which
holds 2 MiB (log 14). A leaf in the way is split into leaves of the next size (R347). -/
def State.tableBelow (s : State) (d a size childSize n : Nat) : Nat × State :=
  let e := s.mem.entry a
  let s := s.eccEvent a (s.mem.readWord a).2
  if bitOf e 0 && !bitOf e 3 then (fld e 55 8 * 256, s) else
  let cur := nth s.mem.tableNext d
  let at_ := roundUp (if cur = 0 then tableBase d + 2 ^ 21 else cur) size
  let s := { s with mem := { s.mem with tableNext := setAt s.mem.tableNext d fun _ => at_ + size } }
  let fill := if bitOf e 0 then
      ((List.range n).map fun i => natLe 8 (e + i * childSize)).flatten
    else zeros size
  ((at_, (s.poke at_ fill).setEntry a (1 + at_)))

/-- Writes the 64 KiB leaf of a virtual frame into one die's tables. -/
def State.mapOn (s : State) (d va entry : Nat) : State :=
  let root := if nth s.regs.xlateRoot d = 0 then tableBase d else nth s.regs.xlateRoot d
  let s := s.setRegs fun r => { r with xlateRoot := setAt r.xlateRoot d fun _ => root }
  let (t2, s) := s.tableBelow d (root + 8 * fld va 47 30) 4096 (2 ^ 21) 512
  let (t3, s) := s.tableBelow d (t2 + 8 * fld va 29 21) 256 65536 32
  s.setEntry (t3 + 8 * fld va 20 16) entry

/-- Writes the leaf of a virtual frame into every die's tables, identically (R258). -/
def State.mapFrame (s : State) (va entry : Nat) : State :=
  ((List.range 16).filter fun d => !s.fencedNow (dieUnit d)).foldl (fun s d => s.mapOn d va entry) s

/-- A leaf entry: rights, HOST and the page base (R259). -/
def leafEntry (rd wr host : Bool) (out : Nat) : Nat :=
  1 + (if rd then 2 else 0) + (if wr then 4 else 0) + 8 + (if host then 16 else 0) + out

/-! ## Accesses by device virtual address -/

/-- The pieces of a range that lie in one 64 KiB page each. -/
def pagePieces : Nat → Nat → Nat → List (Nat × Nat)
  | 0, _, _ => []
  | k + 1, a, n =>
    if n = 0 then [] else
    let m := min n (65536 - a % 65536)
    (a, m) :: pagePieces k (a + m) (n - m)

/-- The address of each block of a run. -/
def withAddrs : Nat → List (Nat × List Byte) → List (Nat × Nat × List Byte)
  | _, [] => []
  | a, b :: bs => (a, b) :: withAddrs (a + b.2.length) bs

/-- Blocks pass between a die and the memory at a device physical address, over the links on the way (R19, R362):
outward from the die, or toward it. -/
def State.carry (s : State) (die : Nat) (out : Bool) (a kind tensor : Nat) (blocks : List (Nat × List Byte)) : State :=
  if a < 256 * gib ∧ s.holder a = die then s else
  let spots := (withAddrs a blocks).map fun x => (s.holder x.1, x.2)
  (spots.foldl (fun l x => addTo l x.1) []).foldl (fun s far =>
    s.cross (if out then die else far) (if out then far else die) kind tensor ((spots.filter fun x => decide (x.1 = far)).map (·.2))) s

/-- What a read by virtual address meets: `fault` says that it brought no data, for a translation fault or, where `fenced`
holds as well, for a fenced or timeout reply (R261, R346). -/
structure VRead where
  bytes  : List Byte
  usable : Bool
  fault  : Bool
  fenced : Bool
  miss   : Bool
  found  : List Found
  deriving DecidableEq, Repr

/-- The bytes of a host range that this slot or chunk has already been given (R298). -/
def State.leafLook (s : State) (iova n : Nat) : Option (List Byte) :=
  (s.heat.leafData.find? fun e => decide (e.1 ≤ iova) && decide (iova + n ≤ e.1 + e.2.length)).map fun e =>
    slice e.2 (iova - e.1) n

/-- Does a request from a unit on a die get through to another unit: that one is not fenced, a route leads to it, and no
crossing on the way has timed out (R345, R349, R352)? -/
def State.answers (s : State) (unit ev far : Nat) : Bool :=
  !s.fencedNow far && s.reaches unit far && !s.deadTo ev far && !s.deadTo ev (dieOf far)

/-- What a piece of an access meets: a range with an unpopulated grain faults as its page does (R259, R268), and a unit
that does not answer gives a fenced or timeout reply. -/
def State.walkPiece (s : State) (unit ev : Nat) (p : Nat × Nat) (write : Bool) : Walk :=
  match s.translate unit p.1 write with
  | .device a =>
    if !grainsAll a p.2 s.mapped then .fault 3 else
    if grainsAll a p.2 fun x => s.answers unit ev (s.ownerUnit x) then .device a else .fenced
  | .host a => if s.answers unit ev iodUnit then .host a else .fenced
  | w => w

/-- The first fault of an access: virtual address and kind. -/
def State.firstFault (s : State) (unit ev : Nat) (ps : List (Nat × Nat)) (write : Bool) : Option (Nat × Nat) :=
  ps.findSome? fun p => match s.walkPiece unit ev p write with
    | .fault k => some (p.1, k)
    | _ => none

/-- Does a piece of an access get a fenced or timeout reply? -/
def State.meetsFence (s : State) (unit ev : Nat) (ps : List (Nat × Nat)) (write : Bool) : Bool :=
  ps.any fun p => decide (s.walkPiece unit ev p write = .fenced)

/-- Raises the events of the table words that the walks of an access read (R277). -/
def State.walkEvents (s : State) (unit : Nat) (ps : List (Nat × Nat)) (write : Bool) : State :=
  if s.mem.synd.isEmpty then s else
  (ps.flatMap fun p => (s.walk unit p.1 write).1).foldl (fun s a => s.eccEvent a (s.mem.readWord a).2) s

/-- The pieces of a range. -/
def piecesOf (va n : Nat) : List (Nat × Nat) := pagePieces (n / 65536 + 2) va n

/-- Reads by device virtual address from a unit (R258, R261): an access that faults raises its event and returns no data; a
HOST leaf takes the host's answer, or notes that it must be asked for. -/
def State.readVa (s : State) (unit evUnit va n : Nat) (t : Stream) : VRead × State :=
  let s := s.walkEvents unit (piecesOf va n) false
  match s.firstFault unit evUnit (piecesOf va n) false with
  | some (a, k) => (⟨zeros n, false, true, false, false, []⟩, s.raise evXlate evUnit 0 (xlateData a false k))
  | none =>
    if s.meetsFence unit evUnit (piecesOf va n) false then (⟨zeros n, false, true, true, false, []⟩, s) else
    (piecesOf va n).foldl (fun (acc : VRead × State) p =>
      let (r, s) := acc
      match s.walkPiece unit evUnit p false with
      | .fault _ | .fenced => (r, s)
      | .host iova =>
        (match s.leafLook iova p.2 with
        | some b => ({ r with bytes := r.bytes ++ b }, s.cross iodUnit unit t.kind t.tensor (t.blocks p.1 (p.1 - va) b))
        | none => ({ r with bytes := r.bytes ++ zeros p.2, miss := true },
            { s with heat := { s.heat with leafMiss := addTo s.heat.leafMiss (iova, p.2) } }))
      | .device a =>
        let (d, s) := s.readMem a p.2
        ({ r with bytes := r.bytes ++ d.bytes, usable := r.usable && d.ok, found := r.found ++ d.found },
          s.carry unit false a t.kind t.tensor (t.blocks p.1 (p.1 - va) d.bytes)))
      (⟨[], true, false, false, false, []⟩, s)

/-- What a write by virtual address meets: whether the merging reads were usable; `fault` says that it was dropped, for a
translation fault or, where `fenced` holds as well, for a fenced or timeout reply. -/
structure VWrite where
  usable : Bool
  fault  : Bool
  fenced : Bool
  deriving DecidableEq, Repr

/-- Writes by device virtual address from a unit; an access that faults is dropped and raises its event (R261). Through a
HOST leaf it goes out as a host access of the given purpose (R298). -/
def State.writeVa (s : State) (unit evUnit va : Nat) (bs : List Byte) (why : Purpose) (t : Stream) : VWrite × State :=
  let s := s.walkEvents unit (piecesOf va bs.length) true
  match s.firstFault unit evUnit (piecesOf va bs.length) true with
  | some (a, k) => (⟨true, true, false⟩, s.raise evXlate evUnit 0 (xlateData a true k))
  | none =>
    if s.meetsFence unit evUnit (piecesOf va bs.length) true then (⟨true, true, true⟩, s) else
    let r := (piecesOf va bs.length).foldl (fun (acc : VWrite × List Byte × State) p =>
      let (w, left, s) := acc
      let now := left.take p.2
      match s.walkPiece unit evUnit p true with
      | .fault _ | .fenced => (w, left.drop p.2, s)
      | .host iova =>
        let blocks := t.blocks p.1 (p.1 - va) now
        let u : Stream := { t with parts := blocks.map fun b => (b.1, b.2.length) }
        (w, left.drop p.2, (s.cross unit iodUnit t.kind t.tensor blocks).hostWriteAs iova now why u)
      | .device a =>
        let (ok, s) := (s.carry unit true a t.kind t.tensor (t.blocks p.1 (p.1 - va) now)).writeMem a now
        ({ w with usable := w.usable && ok }, left.drop p.2, s))
      ((⟨true, false, false⟩ : VWrite), bs, s)
    (r.1, r.2.2)

end Sys2Proof.Machine
end

