-- ==== Sys2Proof/Machine/Registers.lean ====
section
/-! DEFINITION. The registers of BAR0: what a write does, what a read returns, and the operations that writes start:
commits, ring enables, the severity map, the fence policy, the split-write test and the snoopers (16 R394 to R419, 14
R359 to R361, 11 R284). -/

namespace Sys2Proof.Machine

/-! ## Commits (R359, R360, R397, R404 to R406, R413) -/

/-- The shadow check of the pour sync block (R404, R405). -/
def pourSyncOk (s : State) (v : List Nat) : Bool :=
  let r0 := nth v 0
  let role := fld r0 1 0
  let adv := fld r0 16 4
  decide (role ≠ 3) && decide (256 ≤ adv ∧ adv ≤ 4096) &&
  (s.fleet.member.isNone ||
    (decide (nth v 2 = nth s.regs.pourSync.active 2) && decide (role ≠ 0) && !(role == 1 && !bitOf r0 2)))

/-- The shadow check of the defaults register (R406). -/
def defaultsOk (v : List Nat) : Bool :=
  let r := nth v 0
  decide (fld r 1 0 ≠ 3) && decide (fld r 18 12 ≤ 64) && decide (3 ≤ fld r 23 19 ∧ fld r 23 19 ≤ 16) &&
  decide (fld r 28 24 ≤ 24) && decide (fld r 30 29 ≠ 3)

/-- The shadow check of the limits (R413). -/
def limitsOk (v : List Nat) : Bool :=
  let c := nth v 0
  let t := nth v 1
  decide (400 ≤ c ∧ c ≤ 1250) && decide (85 ≤ fld t 7 0 ∧ fld t 7 0 ≤ 103) && decide (80 ≤ fld t 15 8 ∧ fld t 15 8 ≤ 94) &&
  decide (80 ≤ fld t 23 16 ∧ fld t 23 16 ≤ 100) && decide (80 ≤ fld t 31 24 ∧ fld t 31 24 ≤ 100)

/-- COMMIT on one block's copies: a consistent shadow is captured; `late` marks one accepted less than 64 ac before
the tick, which waits for the following tick (R360, R361). -/
def Rws.commit (r : Rws) (ok late : Bool) : Rws :=
  if ok then { r with staged := r.shadow, pending := true, late := late, status := stOk } else { r with status := stConfig }

/-- The block of a commit. -/
def Regs.rws (r : Regs) : CommitBlock → Rws
  | .pourSync => r.pourSync
  | .defaults => r.defaults
  | .limits => r.limits

/-- Replaces the copies of a block. -/
def Regs.setRws (r : Regs) (b : CommitBlock) (x : Rws) : Regs :=
  match b with
  | .pourSync => { r with pourSync := x }
  | .defaults => { r with defaults := x }
  | .limits => { r with limits := x }

/-- BAR0 offset of a block's COMMIT (R395, R397). -/
def commitOffset : CommitBlock → Nat
  | .pourSync => 0x30F0
  | .defaults => 0x40F0
  | .limits => 0xA0F0

/-- Must a commit of the block come under an installer session (R395)? -/
def commitGuarded : CommitBlock → Bool
  | .defaults => false
  | _ => true

/-- Does the block's shadow hold its rules? -/
def State.commitOk (s : State) : CommitBlock → Bool
  | .pourSync => pourSyncOk s s.regs.pourSync.shadow
  | .defaults => defaultsOk s.regs.defaults.shadow
  | .limits => limitsOk s.regs.limits.shadow

/-- An audit entry of an installer field: offset and value (R417). -/
def fieldObject (offset value : Nat) : List Byte := natLe 8 offset ++ natLe 8 value

/-- A write of 1 to GO of a COMMIT register (R360, R384, R387, R389). -/
def State.commitGo (s : State) (b : CommitBlock) (late : Bool) : State :=
  let set (x : Rws) (s : State) : State := s.setRegs fun r => r.setRws b x
  let x := s.regs.rws b
  if commitGuarded b && decide (s.mbx.session < 2) then
    let s := set { x with status := stRights } s.rightsError
    if s.audit.flashOk then s.auditAppend 0x11 s.mbx.session stRights s.mbx.sessionKey (fieldObject (commitOffset b) 1) else s
  else if commitGuarded b && !s.audit.flashOk then set { x with status := stConfig } s
  else
    let ok := s.commitOk b
    let s := set (x.commit ok late) s
    if commitGuarded b then
      s.auditAppend (if ok then 0x10 else 0x11) s.mbx.session (if ok then stOk else stConfig) s.mbx.sessionKey
        (fieldObject (commitOffset b) 1)
    else s

/-- The registers outside crucible mode answer (R398). -/
def State.barLive (s : State) : Bool := s.linkLive && !s.inCrucible

/-- A staged copy becomes active, all fields at once (R360). -/
def Rws.apply (r : Rws) : Rws := if r.pending then { r with active := r.staged, pending := false, status := stOk } else r

/-- Applies the staged copy of a block at its commit point. A new FLEET_RANK is then written to flash (R396). -/
def State.commitApply (s : State) (b : CommitBlock) : State :=
  let x := s.regs.rws b
  if !x.pending then s else
  let rank := nth x.staged 2
  let writes : List (Nat × Nat) := if b = .pourSync ∧ rank ≠ nth x.active 2 then [(0x3010, rank)] else []
  s.setRegs fun r => { r.setRws b x.apply with flashWrites := r.flashWrites ++ writes }

/-! ## Rings (R402, R403) -/

/-- May a ring be enabled (R403)? -/
def State.enableOk (s : State) : RingSel → Bool
  | .sq r =>
    let q := s.ring r
    decide (r < 8) && decide (6 ≤ q.log2 ∧ q.log2 ≤ 16) && decide (q.base % (64 * 2 ^ q.log2) = 0) &&
    (!s.port.cq.enable || decide (q.log2 ≤ s.port.cq.log2)) && (!s.port.eq.enable || decide (q.log2 ≤ s.port.eq.log2))
  | .cq =>
    let q := s.port.cq
    decide (6 ≤ q.log2 ∧ q.log2 ≤ 16) && decide (q.base % (32 * 2 ^ q.log2) = 0) &&
    s.port.sq.all fun x => !x.enable || decide (x.log2 ≤ q.log2)
  | .eq =>
    let q := s.port.eq
    decide (6 ≤ q.log2 ∧ q.log2 ≤ 16) && decide (q.base % (64 * 2 ^ q.log2) = 0) &&
    s.port.sq.all fun x => !x.enable || decide (x.log2 ≤ q.log2)

/-- Is a ring enabled? -/
def State.ringOn (s : State) : RingSel → Bool
  | .sq r => (s.ring r).enable
  | .cq => s.port.cq.enable
  | .eq => s.port.eq.enable

/-- ENABLE from 0 to 1: HEAD and TAIL are cleared first; a refused enable leaves 0 and is counted (R403). Records that
were held are written once their ring is on. -/
def State.enableRing (s : State) (sel : RingSel) : State :=
  if s.ringOn sel then s else
  let ok := s.enableOk sel
  let s := match sel with
    | .sq r => s.setRing r fun q => { q with head := 0, tail := 0, fetching := false, fetched := [], busy := false, enable := ok }
    | .cq => { s with port := { s.port with cq := { s.port.cq with head := 0, tail := 0, used := 0, phase := true, enable := ok } } }
    | .eq => { s with port := { s.port with eq := { s.port.eq with head := 0, tail := 0, used := 0, phase := true, enable := ok } } }
  if !ok then s.accessError else
  match sel with
  | .sq _ => s
  | .cq => s.flushCq s.port.cqHeld.length
  | .eq => s.flushEq s.port.eqHeld.length

/-- Clearing ENABLE of a submission ring: fetching stops, the role ends, dispatched operations run on (R403). -/
def State.disableRing (s : State) (r : Nat) : State :=
  if !(s.ring r).enable then s else
  let s := s.endRole r
  let s := s.setRing r fun q => { q with enable := false, fetching := false, fetched := [] }
  { s with port := { s.port with hostAcc := s.port.hostAcc.filter fun a => a.purpose != .descriptor r } }

/-- Clearing ENABLE of a record ring is ignored while a submission ring is enabled (R403). -/
def State.disableRecords (s : State) (sel : RingSel) : State :=
  if s.port.sq.any (·.enable) then s else
  match sel with
  | .cq => { s with port := { s.port with cq := { s.port.cq with enable := false } } }
  | .eq => { s with port := { s.port with eq := { s.port.eq with enable := false } } }
  | .sq _ => s

/-- A write of a control register of a ring: LOG2_ENTRIES of an enabled ring is ignored and counted; then ENABLE
(R402, R403). -/
def State.writeRingCtrl (s : State) (sel : RingSel) (v : Nat) : State :=
  let log2 := v % 32
  let on := bitOf v 8
  let old := match sel with
    | .sq r => (s.ring r).log2
    | .cq => s.port.cq.log2
    | .eq => s.port.eq.log2
  let s := if old = log2 then s else if s.ringOn sel then s.accessError else
    match sel with
    | .sq r => s.setRing r fun q => { q with log2 := log2 }
    | .cq => { s with port := { s.port with cq := { s.port.cq with log2 := log2 } } }
    | .eq => { s with port := { s.port with eq := { s.port.eq with log2 := log2 } } }
  if on then s.enableRing sel else
  match sel with
  | .sq r => s.disableRing r
  | sel => if s.ringOn sel then s.disableRecords sel else s

/-- A write of BASE (R403). -/
def State.writeRingBase (s : State) (sel : RingSel) (v : Nat) : State :=
  if s.ringOn sel then s.accessError else
  match sel with
  | .sq r => s.setRing r fun q => { q with base := v }
  | .cq => { s with port := { s.port with cq := { s.port.cq with base := v } } }
  | .eq => { s with port := { s.port with eq := { s.port.eq with base := v } } }

/-! ## Severities, policies, the split-write test, snoopers -/

/-- Under an installer session, a write of an installer field takes effect and is audited; otherwise it is ignored,
counted and audited as refused (R384, R387, R389). -/
def State.installerWrite (s : State) (offset value : Nat) (f : State → State) : State :=
  if s.mbx.session < 2 then
    let s := s.rightsError
    if s.audit.flashOk then s.auditAppend 0x11 s.mbx.session stRights s.mbx.sessionKey (fieldObject offset value) else s
  else if !s.audit.flashOk then s
  else (f s).auditAppend 0x10 2 stOk s.mbx.sessionKey (fieldObject offset value)

/-- Writes word SEV_w of the severity map: fields of undefined codes are reserved, a field of 6 or 7 keeps its value
(R407); the values count from the next tick (R333). -/
def State.setSevWord (s : State) (w v : Nat) : State :=
  let one (e : Nat × Nat) : Nat × Nat :=
    let f := fld v (8 * (e.1 % 8) + 2) (8 * (e.1 % 8))
    if e.1 / 8 = w ∧ f ≤ 5 then (e.1, f) else e
  { s with events := { s.events with sevSet := s.events.sevSet.map one } }

/-- SEVERITY_MAP_WRITE: a write of SEV_w under the installer's right. -/
def State.severityWrite (s : State) (w v : Nat) : State :=
  if w ≤ 9 then s.installerWrite (0x5000 + 8 * w) v fun s => s.setSevWord w v else s

/-- CLEAR_STICKY and CANCEL_CLEAR (R408): both bits at once are ignored. -/
def State.stickyWrite (s : State) (v : Nat) : State :=
  let clear := bitOf v 0
  let cancel := bitOf v 1
  if clear = cancel then s else
  s.installerWrite 0x6008 v fun s => { s with boot := { s.boot with clearPending := clear } }

/-- Queues a new value of a field kept in flash; it takes effect after the flash write (R396, R418). -/
def State.flashField (s : State) (offset v : Nat) : State :=
  if s.mbx.session < 2 then
    let s := s.rightsError
    if s.audit.flashOk then s.auditAppend 0x11 s.mbx.session stRights s.mbx.sessionKey (fieldObject offset v) else s
  else if !s.audit.flashOk then s
  else s.setRegs fun r => { r with flashWrites := r.flashWrites ++ [(offset, v)] }

/-- The end of the oldest pending flash write: done, the field takes its value and the entry is made; failed, the
change is refused and flash accepts no writes until it says so (R389, R396). -/
def State.flashDone (s : State) (ok : Bool) : State :=
  match s.regs.flashWrites with
  | [] => s
  | (offset, v) :: rest =>
    let s := s.setRegs fun r => { r with flashWrites := rest }
    let refuse (r : Regs) : Regs :=
      if offset = 0x3010 then { r with pourSync := { r.pourSync with active := setAt r.pourSync.active 2 fun _ => r.flashRank, status := stConfig } }
      else r
    if !ok then { s.setRegs refuse with audit := { s.audit with flashOk := false } } else
    let s := s.setRegs fun r =>
      if offset = 0x6000 then { r with policy := v } else if offset = 0x7000 then { r with lpCfg := v } else { r with flashRank := v }
    s.auditLate 0x10 2 stOk s.mbx.sessionKey (fieldObject offset v)

/-- GO of the split-write test (R284, R412): D is stored at A with the check byte of D2 at A2, XORed with X. The stored
deviation is the XOR with the word's own check byte (log 10). -/
def State.splitGo (s : State) : State :=
  let r := s.regs
  let bad (a : Nat) : Bool := decide (a % 8 ≠ 0) || !s.populated a
  let st :=
    if s.mbx.session < 2 then stRights else if !s.audit.flashOk then stConfig else if s.running then stConfig else
    if bad r.splitA || bad r.splitA2 then stInvalid else stOk
  let s :=
    if st ≠ stOk then s else
    match s.locate r.splitA, s.locate r.splitA2 with
    | some l, some l2 =>
      let dev := foldCheck r.splitD l.loc ^^^ foldCheck r.splitD2 l2.loc ^^^ r.splitX
      let s := s.poke r.splitA (natLe 8 r.splitD)
      let s := { s with mem := { s.mem with synd := syndSet s.mem.synd (r.splitA / 8) dev } }
      s.setRegs fun r => { r with splitDone := (r.splitDone + 1) % 2 ^ 32 }
    | _, _ => s
  let s := s.setRegs fun r => { r with splitStatus := st }
  if s.audit.flashOk then
    s.auditAppend 0x18 s.mbx.session st s.mbx.sessionKey (natLe 8 r.splitA ++ natLe 8 r.splitA2 ++ natLe 1 r.splitX)
  else s

/-- A write of a snooper's RUN (R364, R414). -/
def Snooper.setRun (n : Snooper) (v : Nat) : Snooper := { n with run := if n.mode = 1 then v % 2 ^ 32 else v % 2 ^ 64 }

/-- A write of one register of a snooper; a fenced snooper ignores it (R398, R414). -/
def State.snooperWrite (s : State) (n ofs v : Nat) : State :=
  if s.fencedNow (snooperUnit n) then s else
  s.setRegs fun r => { r with snoopers := setAt r.snoopers n fun x =>
    match ofs with
    | 0x00 => { x with mode := fld v 1 0, filt := fld v 31 16, mask := fld v 47 32 }
    | 0x08 => x.setRun v
    | 0x10 => { x with fp := v }
    | 0x18 => { x with blocks := v }
    | _ => x }

/-! ## What a read returns -/

/-- A list of 8-bit fields packed from bit 0. -/
def packBytes (l : List Nat) : Nat := leNat (l.map fun v => BitVec.ofNat 8 v)

/-- The RUN field of the status word: 0 none, 1 in progress, 2 suspended (R400). -/
def State.runField (s : State) : Nat := if !s.running then 0 else if s.jobSuspended then 2 else 1

/-- Status word 0x000 (R400). -/
def State.statusWord (s : State) : Nat :=
  s.boot.stage + bit' s.boot.ready 3 + bit' s.inCrucible 4 + bit' s.halted 5 + bit' s.claimed 6 +
    bit' (s.mbx.debugScope ≠ 0) 7 + bit' s.fleet.member.isSome 8 + bit' s.heat.pattern.isSome 9 + bit' s.heat.badState 10 +
    s.runField * 2 ^ 12
where
  /-- A bit at a place. -/
  bit' (b : Bool) (i : Nat) : Nat := if b then 2 ^ i else 0

/-- The identity block (R399). -/
def State.readIdentity (s : State) (o : Nat) : Nat :=
  match o with
  | 0x000 => Config.vendorId.toNat + 0x4816 * 2 ^ 16 + s.fuses.order * 2 ^ 32 + Config.stepping.toNat * 2 ^ 40
  | 0x008 => s.fuses.serial
  | 0x010 => 16 + 8 * 2 ^ 5 + 8 * 2 ^ 10 + 8 * 2 ^ 14 + (if s.fuses.order = 2 then 16 else 8) * 2 ^ 18 + 2 ^ 32
  | 0x018 => s.fuses.svn + s.boot.runSvn * 2 ^ 8 + s.boot.runSlot * 2 ^ 16 + (if s.boot.runTrial then 2 ^ 17 else 0)
  | 0x020 => Config.vendorId.toNat + 2 ^ 16
  | _ => 0

/-- The status block (R400, R401). -/
def State.readStatus (s : State) (o : Nat) : Nat :=
  if 0x108 ≤ o ∧ o < 0x148 then u s.boot.s5Record (o - 0x108) 8 else
  if 0x188 ≤ o ∧ o < 0x1B8 then u (s.boot.failRecords.flatten) (o - 0x188) 8 else
  match o with
  | 0x000 => s.statusWord
  | 0x008 => u s.fingerprint 0 8
  | 0x010 => u s.fingerprint 8 8
  | 0x018 => s.heat.slotLen
  | 0x020 => s.power.stretch
  | 0x028 => s.heat.heatNum
  | 0x030 => s.boot.timebase % 2 ^ 64
  | 0x038 => s.regs.accessErr + s.regs.rightsErr * 2 ^ 32
  | 0x040 => s.mbx.authFail
  | 0x100 => s.boot.resetCause + s.boot.resetStart % 2 ^ 32 * 2 ^ 32
  | 0x180 => s.boot.crucible + s.boot.startFail * 2 ^ 4
  | _ => 0

/-- The ring block (R402). -/
def State.readRings (s : State) (o : Nat) : Nat :=
  let recCtrl (r : RecRing) : Nat := r.log2 + (if r.enable then 2 ^ 8 else 0) + r.tail * 2 ^ 16 + r.head * 2 ^ 32
  if o < 0x100 then
    let q := s.ring (o / 0x20)
    if o % 0x20 = 0 then q.base else
    if o % 0x20 = 8 then
      q.log2 + (if q.enable then 2 ^ 8 else 0) + q.role * 2 ^ 9 + q.head * 2 ^ 16 + q.tail * 2 ^ 32 + q.dbErr * 2 ^ 48
    else 0
  else
  match o with
  | 0x100 => s.port.cq.base
  | 0x108 => recCtrl s.port.cq
  | 0x110 => s.port.eq.base
  | 0x118 => recCtrl s.port.eq + s.port.eqLost * 2 ^ 48
  | 0x120 => s.port.evtVec
  | 0x128 => s.port.hostTimeout
  | _ => 0

/-- COMMIT_STATUS (R397). -/
def Rws.statusReg (r : Rws) : Nat := r.status + (if r.pending then 2 ^ 8 else 0)

/-- The fence and policy block (R408, R409). -/
def State.readPolicy (s : State) (o : Nat) : Nat :=
  let mask (n : Nat) (f : Nat → Nat) : Nat := maskOf n fun i => s.fencedReg (f i)
  if 0x080 ≤ o ∧ o < 0x100 then maskOf 64 fun i => s.fencedReg (coreUnit (8 * (o - 0x080) + i)) else
  match o with
  | 0x000 => s.regs.policy
  | 0x010 => (if s.boot.clearPending then 1 else 0) + s.boot.stickyFences.length % 2 ^ 16 * 2 ^ 16 +
      s.boot.stickyFrames.length % 2 ^ 32 * 2 ^ 32
  | 0x040 => mask 16 dieUnit + mask 8 mdUnit * 2 ^ 16
  | 0x048 => mask 42 linkUnit + (maskOf 16 fun i => decide (i ∈ s.fences.linkDown)) * 2 ^ 48
  | 0x050 => maskOf 26 fun i => decide (i + 16 ∈ s.fences.linkDown)
  | 0x058 => mask 64 channelUnit
  | 0x060 => mask 64 fun i => channelUnit (64 + i)
  | 0x100 => mask 64 clusterUnit
  | 0x108 => mask 64 fun i => clusterUnit (64 + i)
  | _ => 0

/-- The memory block (R410). -/
def State.readMemory (s : State) (o : Nat) : Nat :=
  let act (i : Nat) : Nat := maskOf 64 fun b => decide (64 * i + b ∈ s.regs.lpAct)
  if 0x040 ≤ o ∧ o < 0x0C0 then
    let d := (o - 0x040) / 8
    if s.fencedReg (dieUnit d) then 0 else nth s.regs.xlateRoot d
  else
  match o with
  | 0x000 => s.regs.lpCfg
  | 0x008 => s.regs.lpInForce
  | 0x010 => (if s.regs.fillDone then 1 else 0) + s.regs.lpAct.length * 2 ^ 8 + s.regs.fillTime * 2 ^ 32
  | 0x018 => act 0
  | 0x020 => act 1
  | 0x028 => maskOf 16 fun d => nth s.power.bdDoubled d
  | 0x100 => (if s.regs.skimActive then 1 else 0) + s.regs.skimChunks * 2 ^ 32
  | _ => 0

/-- Temperatures, 0 for a fenced die (R413). -/
def State.temps (s : State) (l : List Nat) (f : Nat → Nat) : List Nat :=
  ((List.range l.length).zip l).map fun e => if s.fencedReg (f e.1) then 0 else e.2

/-- The limits and telemetry (R413). -/
def State.readTelemetry (s : State) (o : Nat) : Nat :=
  let p := s.power
  match o with
  | 0x000 => nth s.regs.limits.shadow 0
  | 0x008 => nth s.regs.limits.shadow 1
  | 0x0F8 => s.regs.limits.statusReg
  | 0x040 => p.inPower + p.inVolt * 2 ^ 16 + p.inCurr * 2 ^ 32
  | 0x048 => packBytes ((s.temps p.cdTemp dieUnit).take 8)
  | 0x050 => packBytes ((s.temps p.cdTemp dieUnit).drop 8)
  | 0x058 => packBytes ((s.temps p.bdTemp bondedUnit).take 8)
  | 0x060 => packBytes ((s.temps p.bdTemp bondedUnit).drop 8)
  | 0x068 => packBytes (s.temps p.mdTemp mdUnit)
  | 0x070 => p.iodTemp % 256 + (if p.flowOk then 2 ^ 8 else 0) + (if p.leakIn then 2 ^ 9 else 0)
  | _ => 0

/-- A snooper's registers (R414). -/
def State.readSnooper (s : State) (n o : Nat) : Nat :=
  let x := s.regs.snoopers.getD n { mode := 0, filt := 0, mask := 0, run := 0, fp := 0, blocks := 0 }
  if s.fencedReg (snooperUnit n) then (if o = 0 then 2 ^ 63 else 0) else
  match o with
  | 0x00 => x.mode + x.filt * 2 ^ 16 + x.mask * 2 ^ 32
  | 0x08 => if x.mode = 1 then x.run % 2 ^ 32 else x.run
  | 0x10 => x.fp
  | 0x18 => x.blocks
  | _ => 0

/-- The mailbox registers and buffers (R415). -/
def State.readMailbox (s : State) (o : Nat) : Nat :=
  let m := s.mbx
  if 0x1000 ≤ o ∧ o < 0x2000 then u m.request (o - 0x1000) 8 else
  if 0x2000 ≤ o ∧ o < 0x3000 then u m.response (o - 0x2000) 8 else
  match o with
  | 0x0 => m.code * 2 ^ 8 + m.reqLen * 2 ^ 16
  | 0x8 => (if m.busy then 1 else 0) + m.status * 2 ^ 8 + m.respLen * 2 ^ 16 + m.session * 2 ^ 32 + m.ringMask * 2 ^ 40
  | _ => 0

/-- The MSI-X table and the pending-bit array (R287). -/
def State.readMsix (s : State) (o : Nat) : Nat :=
  if o < 1024 then
    match s.port.msix[o / 16]? with
    | some e => if o % 16 = 0 then e.addr else e.data + (if e.mask then 2 ^ 32 else 0)
    | none => 0
  else if o = 0x8000 then maskOf 64 fun v => decide (v ∈ s.port.msixPending) else 0

/-- The 64-bit value of a BAR0 register at an 8-byte aligned offset: reserved offsets read 0 (R287, R394), and in
crucible mode only the live blocks answer (R398). -/
def State.readReg (s : State) (o : Nat) : Nat :=
  let live := !s.inCrucible
  if o < 0x1000 then s.readIdentity o else
  if o < 0x2000 then (if live ∨ 0x1180 ≤ o ∧ o < 0x11B8 then s.readStatus (o - 0x1000) else 0) else
  if 0x1E0000 ≤ o ∧ o < 0x1F0000 then s.readMailbox (o - 0x1E0000) else
  if 0x1F0000 ≤ o then s.readMsix (o - 0x1F0000) else
  if !live then 0 else
  if o < 0x3000 then s.readRings (o - 0x2000) else
  if o < 0x4000 then
    (match o - 0x3000 with
    | 0x000 => nth s.regs.pourSync.shadow 0
    | 0x008 => nth s.regs.pourSync.shadow 1
    | 0x010 => nth s.regs.pourSync.shadow 2
    | 0x018 => s.regs.syncExtra + s.regs.syncDiscard * 2 ^ 32
    | 0x0F8 => s.regs.pourSync.statusReg
    | _ => 0) else
  if o < 0x5000 then
    (match o - 0x4000 with
    | 0x000 => nth s.regs.defaults.shadow 0
    | 0x0F8 => s.regs.defaults.statusReg
    | _ => 0) else
  if o < 0x6000 then
    (if o < 0x5050 then
      sumNat (s.events.sevSet.map fun e => if e.1 / 8 = (o - 0x5000) / 8 then e.2 * 2 ^ (8 * (e.1 % 8)) else 0)
    else if 0x5100 ≤ o ∧ o < 0x5900 then look 0 s.events.counts ((o - 0x5100) / 8) else 0) else
  if o < 0x7000 then s.readPolicy (o - 0x6000) else
  if o < 0x8000 then s.readMemory (o - 0x7000) else
  if o < 0x9000 then (if o = 0x8000 then s.regs.cdcTimeout else 0) else
  if o < 0xA000 then
    (match o - 0x9000 with
    | 0x000 => s.regs.splitA
    | 0x008 => s.regs.splitD
    | 0x010 => s.regs.splitD2
    | 0x018 => s.regs.splitA2
    | 0x020 => s.regs.splitX
    | 0x028 => s.regs.splitStatus + (if s.regs.splitBusy then 2 ^ 8 else 0) + s.regs.splitDone * 2 ^ 32
    | _ => 0) else
  if o < 0xB000 then s.readTelemetry (o - 0xA000) else
  if 0x10000 ≤ o ∧ o < 0x11FC0 then s.readSnooper ((o - 0x10000) / 64) (o % 64) else 0

/-- n bytes of BAR0 from an aligned offset. -/
def State.readRegs (s : State) (o n : Nat) : List Byte := ((List.range (n / 8)).map fun i => natLe 8 (s.readReg (o + 8 * i))).flatten

/-! ## What a write does -/

/-- Merges a written half or whole register into what it held. -/
def mergeReg (old offset size v : Nat) : Nat :=
  if size = 8 then v % 2 ^ 64 else
  if offset % 8 = 0 then v % 2 ^ 32 + old / 2 ^ 32 * 2 ^ 32 else old % 2 ^ 32 + v % 2 ^ 32 * 2 ^ 32

/-- The bits a write carries, the other half 0: for fields that act on a 1. -/
def strobes (offset size v : Nat) : Nat := mergeReg 0 offset size v

/-- Writes a shadow register of an RWS block, reserved bits masked off (R359). -/
def Rws.write (r : Rws) (i mask v : Nat) : Rws := { r with shadow := setAt r.shadow i fun _ => v &&& mask }

/-- A write into the MSI-X table: unmasking a vector whose pending bit is set sends its message (R291). -/
def State.msixWrite (s : State) (o size v : Nat) : State :=
  if 1024 ≤ o then s else
  let i := o / 16
  let old := s.readMsix (o / 8 * 8)
  let new := mergeReg old o size v
  let s := { s with port := { s.port with msix := setAt s.port.msix i fun e =>
    if o % 16 < 8 then { e with addr := new } else { e with data := new % 2 ^ 32, mask := bitOf new 32 } } }
  match s.port.msix[i]? with
  | some e =>
    if !e.mask ∧ i ∈ s.port.msixPending then
      { s with port := { s.port with msixPending := s.port.msixPending.filter (· ≠ i), msixDue := addTo s.port.msixDue i } }
    else s
  | none => s

/-- A write into the mailbox (R415). -/
def State.mailboxWrite (s : State) (o size v : Nat) : State :=
  let m := s.mbx
  if 0x1000 ≤ o ∧ o < 0x2000 then { s with mbx := { m with request := patch m.request (o - 0x1000) (natLe size v) } } else
  if 0x2000 ≤ o ∧ o < 0x3000 then { s with mbx := { m with response := patch m.response (o - 0x2000) (natLe size v) } } else
  if o / 8 = 0 then
    let new := mergeReg (s.readMailbox 0) o size v
    let s := { s with mbx := { m with code := fld new 15 8, reqLen := fld new 31 16 } }
    if bitOf (strobes o size v) 0 then s.mailboxGo else s
  else s

/-- A write into the ring block (R402, R403). -/
def State.ringsWrite (s : State) (o new : Nat) : State :=
  if o < 0x100 then
    (if o % 0x20 = 0 then s.writeRingBase (.sq (o / 0x20)) new else
     if o % 0x20 = 8 then s.writeRingCtrl (.sq (o / 0x20)) new else s)
  else
  match o with
  | 0x100 => s.writeRingBase .cq new
  | 0x108 => s.writeRingCtrl .cq new
  | 0x110 => s.writeRingBase .eq new
  | 0x118 => s.writeRingCtrl .eq new
  | 0x120 => if (List.range 5).any fun i => bitOf new (8 * i + 6) then s else
      { s with port := { s.port with evtVec := new % 2 ^ 40 } }
  | 0x128 => { s with port := { s.port with hostTimeout := new % 2 ^ 14 } }
  | _ => s

/-- A write into the split-write block (R412). -/
def State.splitWriteReg (s : State) (o new go : Nat) : State :=
  if s.regs.splitBusy then s.accessError else
  let field (f : Regs → Regs) : State := s.installerWrite (0x9000 + o) new fun s => s.setRegs f
  match o with
  | 0x000 => field fun r => { r with splitA := new % 2 ^ 56 }
  | 0x008 => field fun r => { r with splitD := new }
  | 0x010 => field fun r => { r with splitD2 := new }
  | 0x018 => field fun r => { r with splitA2 := new % 2 ^ 56 }
  | 0x020 =>
    let s := field fun r => { r with splitX := new % 256 }
    if bitOf go 8 then s.splitGo else s
  | _ => s

/-- A write that the blocks other than mailbox and MSI-X take: `o` is the aligned offset, `new` the merged value and
`go` the bits written. -/
def State.blockWrite (s : State) (o new go : Nat) : State :=
  if o < 0x2000 then s else
  if o < 0x3000 then s.ringsWrite (o - 0x2000) new else
  match o with
  | 0x3000 => s.setRegs fun r => { r with pourSync := r.pourSync.write 0 (2 ^ 17 - 1) new }
  | 0x3008 => s.setRegs fun r => { r with pourSync := r.pourSync.write 1 (2 ^ 40 - 1) new }
  | 0x3010 => s.setRegs fun r => { r with pourSync := r.pourSync.write 2 (2 ^ 12 - 1) new }
  | 0x30F0 => if bitOf go 0 then s.commitGo .pourSync false else s
  | 0x4000 => s.setRegs fun r => { r with defaults := r.defaults.write 0 (2 ^ 48 - 1 - 2 ^ 31) new }
  | 0x40F0 => if bitOf go 0 then s.commitGo .defaults false else s
  | 0x6000 => if fld new 9 8 = 3 then s else s.flashField 0x6000 (new &&& (1 + 15 * 2 ^ 8))
  | 0x6008 => s.stickyWrite go
  | 0x7000 => s.flashField 0x7000 (new % 2 ^ 24)
  | 0x8000 => s.setRegs fun r => { r with cdcTimeout := new % 2 ^ 21 }
  | 0xA000 => s.setRegs fun r => { r with limits := r.limits.write 0 (2 ^ 16 - 1) new }
  | 0xA008 => s.setRegs fun r => { r with limits := r.limits.write 1 (2 ^ 32 - 1) new }
  | 0xA0F0 => if bitOf go 0 then s.commitGo .limits false else s
  | o =>
    if 0x5000 ≤ o ∧ o < 0x5050 then s.severityWrite ((o - 0x5000) / 8) new else
    if 0x9000 ≤ o ∧ o < 0xA000 then s.splitWriteReg (o - 0x9000) new go else
    if 0x10000 ≤ o ∧ o < 0x11FC0 then s.snooperWrite ((o - 0x10000) / 64) (o % 64) new else s

/-- A host write to BAR0 (R287, R394, R395, R398): an access that is not an aligned 32-bit or 64-bit one is ignored and
counted; in crucible mode only the mailbox and the MSI-X table take writes. -/
def State.regWrite (s : State) (o size v : Nat) : State :=
  if !s.linkLive || decide (0x200000 ≤ o) then s else
  let aligned := (size = 4 ∧ o % 4 = 0) ∨ (size = 8 ∧ o % 8 = 0)
  if ¬ aligned then (if s.inCrucible then s else s.accessError) else
  let o8 := o / 8 * 8
  if 0x1E0000 ≤ o ∧ o < 0x1F0000 then s.mailboxWrite (o - 0x1E0000) size v else
  if 0x1F0000 ≤ o then s.msixWrite (o - 0x1F0000) size v else
  if s.inCrucible then s else
  s.blockWrite o8 (mergeReg (s.readReg o8) o size v) (strobes o size v)

/-- The unit in whose domain a register lives (R418): a snooper's link end or ladle, or a die's temperature. -/
def registerUnit (o : Nat) : Nat :=
  if 0x10000 ≤ o ∧ o < 0x11FC0 then
    let n := (o - 0x10000) / 64
    if n < 40 then ladleUnit n else if n < 124 then linkEndUnit (n - 40) else iodUnit
  else if 0xA048 ≤ o ∧ o < 0xA058 then dieUnit (o - 0xA048)
  else if 0xA058 ≤ o ∧ o < 0xA068 then bondedUnit (o - 0xA058)
  else if 0xA068 ≤ o ∧ o < 0xA070 then mdUnit (o - 0xA068)
  else iodUnit

end Sys2Proof.Machine
end

