-- ==== Sys2Proof/Machine/Power.lean ====
section
/-! DEFINITION. Power, pins, the CXL link, the start stages, the stretch controller, SMBus, JTAG and DOE (15 R367 to
R380, R390 to R393, 17 R420 to R434, 12 R311). -/

namespace Sys2Proof.Machine

/-! ## The link (R311) -/

/-- Ends the RUN_HEATS operation for a lost link: a suspended one, or one that has not begun a heat, at once; a running
one at its heat boundary, as for HALT (R37, R311). -/
def State.jobLinkLoss (s : State) : State :=
  match s.heat.job with
  | none => s
  | some j =>
    let s := { s with heat := { s.heat with job := some { j with silentEnd := true, endStatus := some (j.endStatus.getD stCancelled) } } }
    if j.phase = .suspended ∨ j.phase = .start then s.endJob stCancelled else s

/-- One long operation at a lost link: chunked ones end at their next chunk boundary, which a suspended one and a skim that has done
its chunks have reached; those that move data through the port end at once (R311, log 23). No line of the snoop filter, which is
reset, is waited for any more. -/
def State.opLinkLoss (s : State) (o : Op) : State :=
  let o := { o with silent := true, waitFor := [], endWith := some (o.endWith.getD stCancelled) }
  let now : Bool := match o.body with
    | .load _ _ _ _ => true
    | .context c => c.host
    | .copy c => decide (o.state = .suspended) || c.src.isEmpty || c.dst.isEmpty || (c.inHost && !c.haveLst)
    | .fill f => decide (o.state = .suspended) || f.dst.isEmpty
    | .skim k => decide (o.state = .suspended) || k.ending.isSome
  if now then s.finishOp o stCancelled 0 0 else s.setOp o

/-- Loss of the link or PERST#: the port, the rings and the snoop filter are reset, roles and the session end, no
completion records are written (R311, R385). -/
def State.linkLoss (s : State) : State :=
  if !s.port.linkUp then s else
  let s := (List.range 8).foldl State.endRole s
  let s := s.endSession 0
  let s := s.ops.foldl State.opLinkLoss s
  let s := s.jobLinkLoss
  { s with port := { port0 with
      eqHeld := s.port.eqHeld, eqLost := s.port.eqLost, lostRun := s.port.lostRun, evtVec := s.port.evtVec,
      hostTimeout := s.port.hostTimeout, nextAcc := s.port.nextAcc } }

/-- Link speeds and widths of R285. -/
def linkModeOk (speed width : Nat) : Bool := decide (speed ∈ [64, 32, 16, 8]) && decide (width ∈ [8, 4, 2, 1])

/-- The link trains: only out of PERST#, in stage LINK or later, or in crucible mode with CXL.io alone (R285, R372,
R379). -/
def State.linkTrained (s : State) (speed width : Nat) : State :=
  if s.alive && s.pins.perst && s.mbx.jtagClamp.isNone && linkModeOk speed width && (s.inCrucible || decide (6 ≤ s.boot.stage)) then
    { s with port := { s.port with linkUp := true, ioOnly := s.inCrucible, speed := speed, width := width } }
  else s

/-! ## Start stages (R372 to R380) -/

/-- A start-failure record (R377). -/
def failRecord (stage cause unit slot start time : Nat) : List Byte :=
  natLe 16 (stage % 16 + cause % 256 * 2 ^ 4 + unit % 2 ^ 16 * 2 ^ 12 + slot % 4 * 2 ^ 28 + start % 2 ^ 32 * 2 ^ 32 +
    time % 2 ^ 64 * 2 ^ 64)

/-- The slot field of a failure record: the slot being run, or 3 before one is chosen. -/
def Boot.slotField (b : Boot) : Nat := if b.stage ≤ 2 then 3 else b.runSlot

/-- Notes a failed start in the boot record: counter, record, and a TRIAL slot made INVALID (R370, R376, R377). -/
def State.noteFailure (s : State) (cause unit : Nat) : State :=
  let b := s.boot
  let r := failRecord b.stage cause unit b.slotField b.startNumber b.timebase
  let b := { b with
    startFail := min 3 (b.startFail + 1), failedSinceReady := satAdd 8 b.failedSinceReady 1,
    failRecords := (r :: b.failRecords).take 3 }
  let s := State.emit { s with boot := b } (.uartFailure r)
  if b.runTrial && decide (2 < b.stage) then
    let x := b.slot b.runSlot
    State.auditLate { s with boot := { b.setSlot b.runSlot { x with state := .invalid } with trialInvalidated := true } } 0x25 0 stOk []
      (natLe 1 b.runSlot ++ natLe 1 cause)
  else s

/-- A start fails: it is noted and the module resets with cause 0x06 (R376). -/
def State.startFailed (s : State) (cause unit : Nat) : State := (s.noteFailure cause unit).moduleReset 0x06 []

/-- Does a slot verify (R369, R370)? The shipped image does, under its IMG_SVN and while the key that signed it is not revoked. -/
def slotVerifies (f : Fuses) (x : FwSlot) : Bool :=
  if x.factory then decide (f.svn ≤ x.svn) && !bitOf f.fwKeyRevoke x.keySlot else fwVerifies f x.image

/-- The slots in the order in which VERIFY tries them: TRIAL, ACTIVE, BACKUP (R370). -/
def Boot.tryOrder (b : Boot) : List Nat :=
  [SlotState.trial, .active, .backup].flatMap fun st => (List.range 2).filter fun i => (b.slot i).state == st

/-- VERIFY: the first slot that verifies is run; each one that fails becomes INVALID (R370). -/
def verifySlots : List Nat → State → Option Nat × State
  | [], s => (none, s)
  | i :: is, s =>
    let x := s.boot.slot i
    if slotVerifies s.fuses x then (some i, s) else
    let b := { s.boot.setSlot i { x with state := .invalid } with
      slotFailedVerify := true, trialInvalidated := s.boot.trialInvalidated || x.state == .trial }
    verifySlots is (State.auditLate { s with boot := b } 0x25 0 stOk [] (natLe 1 i ++ natLe 1 3))

/-- The end of stage VERIFY: a slot runs, or the module enters crucible mode at once with the counter at 3 (R379). -/
def State.endVerify (s : State) : State :=
  match verifySlots s.boot.tryOrder s with
  | (some i, s) =>
    let x := s.boot.slot i
    { s with boot := { s.boot with
      stage := 3, runSlot := i, runTrial := x.state == .trial, runSvn := x.svn,
      runHash := if x.factory then natBe 48 Config.factoryHash.toNat else sha384 x.image } }
  | (none, s) =>
    let b := s.boot
    let r := failRecord 2 3 noUnit 3 b.startNumber b.timebase
    State.emit { s with boot := { b with
      crucible := 2, startFail := 3, failedSinceReady := satAdd 8 b.failedSinceReady 1,
      failRecords := (r :: b.failRecords).take 3 } } (.uartFailure r)

/-- A fence in force from the start on: no sequence runs, no traffic exists yet (R268, R344, R372). -/
def State.fenceAtStart (s : State) (u : Nat) : State :=
  if u ∈ s.fences.fenced then s else
  let s := { s with fences := { s.fences with fenced := s.fences.fenced ++ [u] } }
  s.auditLate 0x15 0 stOk [] (natLe 2 u ++ [3])

/-- The end of stage PREPARE: rails on, STICKY fences and frames applied again, units that failed training fenced; the
start fails when both IOD links did (R344, R372, R373). -/
def State.endPrepare (s : State) (failed : List Nat) : State :=
  let s := { s with power := { s.power with railsOn := true } }
  if linkUnit 40 ∈ failed ∧ linkUnit 41 ∈ failed then s.startFailed 0x05 (linkUnit 40) else
  let s := s.boot.stickyFences.foldl State.fenceAtStart s
  let s := (failed.filter fenceable).foldl (fun s u => (s.recordSticky u).fenceAtStart u) s
  { s with fences := { s.fences with retired := s.boot.stickyFrames }, boot := { s.boot with stage := 4 } }

/-- LP_CFG after the substitutions of R410. -/
def lpSubstituted (cfg chGib : Nat) : Nat :=
  min (fld cfg 4 0) chGib + (if fld cfg 7 5 ≤ 4 then fld cfg 7 5 else 2) * 2 ^ 5 + max 256 (fld cfg 23 8) * 2 ^ 8

/-- The end of stage FILL: every populated word holds 0 under its valid check byte; the interleave is fixed (R268,
R269, R280). -/
def State.endFill (s : State) (ac : Nat) : State :=
  let s := { s with mem := mem0, boot := { s.boot with stage := 5 } }
  s.setRegs fun r => { r with
    lpInForce := lpSubstituted r.lpCfg (if s.fuses.order = 2 then 16 else 8), fillDone := true,
    fillTime := ac / 2 ^ 20 % 2 ^ 32, lpAct := (List.range 128).filter fun n => !s.fencedReg (channelUnit n) }

/-- Compute-die firmware of the running image: its component of type 0x02 (R369). -/
def Boot.dieFirmware (b : Boot) : List Byte :=
  let img := (b.slot b.runSlot).image
  match (fwComponents img).find? fun c => c.1 = 2 with
  | some c => slice (slice img 512 (u img 16 8)) c.2.1 c.2.2
  | none => []

/-- Where a die's firmware lies in its reserved bonded DRAM: behind the first 32 MiB, which the page tables have (R264; DESIGN
CHOICE, log 144). -/
def firmwareBase (d : Nat) : Nat := tableBase d + 2 ^ 25

/-- The end of stage DIES: die firmware lies in each die's reserved bonded DRAM, the control cores run and have set the translation
roots (R259, R264, R372); a die that fails fails the start (R373). -/
def State.endDies (s : State) (failed : List Nat) : State :=
  match failed with
  | f :: _ => s.startFailed 0x02 f
  | [] =>
    let roots := (List.range 16).map fun d => if s.fencedReg (dieUnit d) then 0 else tableBase d
    let s := ((List.range 16).filter fun d => !s.fencedReg (dieUnit d)).foldl (fun s d =>
      s.poke (firmwareBase d) (s.boot.dieFirmware.take (2 ^ 25))) s
    State.setRegs { s with boot := { s.boot with stage := 6 } } fun r => { r with xlateRoot := roots }

/-- Promotion of a TRIAL slot that reached READY, with the fuses under SVN_ADVANCE AUTO (R370). -/
def State.promote (s : State) : State :=
  let b := s.boot
  if !b.runTrial then s else
  let i := b.runSlot
  let x := b.slot i
  let demote (y : FwSlot) : FwSlot := if y.state == .active then { y with state := .backup } else y
  let b := { b with slotA := demote b.slotA, slotB := demote b.slotB, runTrial := false }
  let s := { s with boot := b.setSlot i { x with state := .active } }
  let s := s.auditLate 0x24 0 stOk [] (natLe 1 i)
  if bitOf s.regs.policy 11 then s else
  let blow := if u x.image 25 1 = 1 then 2 ^ (1 - u x.image 24 1) else 0
  { s with fuses := { s.fuses with svn := max s.fuses.svn x.svn, fwKeyRevoke := s.fuses.fwKeyRevoke ||| blow } }

/-- READY (R372, R376, R378). -/
def State.becomeReady (s : State) : State :=
  let s := s.promote
  let b := s.boot
  let due := decide (0 < b.failedSinceReady) || b.slotFailedVerify
  let data := b.failedSinceReady % 256 + b.runSlot * 2 ^ 8 + (if b.trialInvalidated then 2 ^ 10 else 0) +
    (if b.slotFailedVerify then 2 ^ 11 else 0) + u ((b.failRecords.head?).getD (zeros 16)) 0 16 * 2 ^ 128
  let s := { s with boot := { b with
    stage := 7, ready := true, startFail := 0, failedSinceReady := 0, trialInvalidated := false, slotFailedVerify := false } }
  let s := s.checkpoint.emit (.uartStage 7)
  if due then s.raise evBootFail iodUnit 0 data else s

/-- Deadlines of the stages in ac (R372). That of LINK counts from the later of two events, and only START_STAGE_TIMEOUT says that it
has passed (R374). -/
def stageDeadline (stage : Nat) : Option Nat :=
  match stage with
  | 1 => some 165000000
  | 2 => some 6600000000
  | 3 => some 6600000000
  | 4 => some 4950000000
  | 5 => some 3300000000
  | _ => none

/-- Has a stage run past its deadline after so many ac? -/
def pastDeadline (stage ac : Nat) : Bool :=
  match stageDeadline stage with
  | some d => decide (d < ac)
  | none => false

/-- A stage of the start ends (R372). `failed` lists the units that reported failure in it, `ac` its length; one that ended past its
deadline has failed there (R373). -/
def State.stageDone (s : State) (failed : List Nat) (ac : Nat) : State :=
  if !s.alive || s.inCrucible || s.boot.ready then s else
  if pastDeadline s.boot.stage ac then
    State.startFailed { s with boot := { s.boot with timebase := (s.boot.timebase + (stageDeadline s.boot.stage).getD ac) % 2 ^ 64 } } 1 noUnit
  else
  let s := { s with boot := { s.boot with timebase := (s.boot.timebase + ac) % 2 ^ 64 } }
  match s.boot.stage with
  | 1 => if failed.isEmpty then State.emit { s with boot := { s.boot with stage := 2 } } (.uartStage 2)
    else s.startFailed 0x02 ((failed.head?).getD noUnit)
  | 2 => s.endVerify
  | 3 => s.endPrepare failed
  | 4 => if failed.isEmpty then s.endFill ac else s.startFailed 0x02 ((failed.head?).getD noUnit)
  | 5 => s.endDies failed
  | 6 => if s.port.linkUp then s.becomeReady else s
  | _ => s

/-- A stage passes its deadline or reports failure (R373). The LINK deadline does not run under PERST# (R374). -/
def State.stageFailed (s : State) (cause unit ac : Nat) : State :=
  if !s.alive || s.inCrucible || s.boot.ready then s else
  if s.boot.stage = 6 ∧ cause = 1 ∧ ¬ s.pins.perst then s else
  State.startFailed { s with boot := { s.boot with timebase := (s.boot.timebase + ac) % 2 ^ 64 } } cause unit

/-- The management complex's watchdog: a failed start during one, a reset with cause 0x03 always (R338, R373). -/
def State.managementReset (s : State) : State :=
  if !s.alive then s else
  let s := if s.boot.ready || s.inCrucible then s else s.noteFailure 0x04 iodUnit
  s.moduleReset 0x03 []

/-! ## Power (R420 to R430) -/

/-- Above the absolute maximum of R420, in 0.1 V. -/
def inputMax : Nat := 600

/-- The input reaches 43.0 V: rails up, PWR_GOOD released, stage ROM begins (R424). Without effect on a powered
module, or below the turn-on voltage. -/
def State.powerUp (s : State) (v : Nat) : State :=
  if s.power.powered then { s with power := { s.power with rawVolt := v } } else
  if v < 430 then s else
  State.emit { s with
    power := { power0 with rawVolt := v }, pins := { s.pins with pwrGood := true, syncOut := false, thermTrip := true } } (.uartStage 1)

/-- The input is shut down: every rail falls, memory is lost, outputs take their unpowered state; the next start is a
module reset with cause 0x01. No hold-up energy: the end of roles is not recorded (R375, R420, R425, R432). -/
def State.shutDown (s : State) : State :=
  if !s.power.powered then s else
  let off (q : Ring) : Ring := { q with role := 0 }
  let s : State := { s with port := { s.port with sq := s.port.sq.map off }, mbx := { s.mbx with session := 0 } }
  let s := s.moduleReset 0x01 []
  { s with power := { s.power with powered := false, rawVolt := 0, tripHeld := false },
           pins := { s.pins with pwrGood := false, syncOut := false, thermTrip := true } }

/-- A thermal trip: THERM_TRIP# low, every regulator off but the management domain's, RESET_CAUSE 0x05 (R430). -/
def State.trip (s : State) : State :=
  if !s.alive then s else
  let s := s.moduleReset 0x05 []
  { s with power := { s.power with tripHeld := true }, pins := { s.pins with thermTrip := false } }

/-- After 10 s the line is released; when it reads high the module reset begins (R430). -/
def State.tripRelease (s : State) (high : Bool) : State :=
  if !s.power.powered || !s.power.tripHeld then s else
  if high then
    State.emit { s with power := { s.power with tripHeld := false }, pins := { s.pins with thermTrip := true } } (.uartStage 1)
  else s

/-! ## The stretch controller (R427 to R431) -/

/-- The 41 dies of the controller: 16 compute, 16 bonded, 8 memory-side, the IOD. -/
def dieList : List Nat :=
  (List.range 16).map dieUnit ++ (List.range 16).map bondedUnit ++ (List.range 8).map mdUnit ++ [iodUnit]

/-- Throttle start, limit and trip of a die (R427); starts come from the active limits. -/
def State.dieLimits (s : State) (unit : Nat) : Nat × Nat × Nat :=
  let t := nth s.regs.limits.active 1
  match unitKind unit with
  | 0x2 => (fld t 7 0, 105, 110)
  | 0x3 => (fld t 15 8, 95, 100)
  | 0x6 => (fld t 23 16, 105, 110)
  | _ => (fld t 31 24, 105, 110)

/-- The temperatures of the 41 dies. -/
def telemetryAll (t : Telemetry) : List Nat :=
  (List.range 16).map (nth t.cdTemp) ++ (List.range 16).map (nth t.bdTemp) ++ (List.range 8).map (nth t.mdTemp) ++ [t.iodTemp]

/-- DATA of EV_THERMAL (R431). -/
def thermalData (temp cause stretch : Nat) : Nat := temp % 256 + cause * 2 ^ 8 + stretch % 2 ^ 24 * 2 ^ 40

/-- DATA of EV_POWER (R431). -/
def powerData (p v c cause stretch : Nat) : Nat :=
  p % 2 ^ 16 + v % 2 ^ 16 * 2 ^ 16 + c % 2 ^ 16 * 2 ^ 32 + cause * 2 ^ 48 + stretch % 2 ^ 24 * 2 ^ 64

/-- One die's term of the controller (R428): st and at_limit. -/
def dieTerm (L temp start limit st : Nat) (at_ : Bool) : Nat × Bool :=
  let (st, hot) :=
    if at_ then (3 * L, true) else if limit ≤ temp then (3 * L, true) else
    if start < temp then (st + L / 16, false) else if temp + 2 < start then (st - L / 64, false) else (st, false)
  (st, hot && !(decide (temp < start)))

/-- Updates one die: its term, its EV_THERMAL events on the way up, and its refresh rate (R271, R428, R431). -/
def State.dieUpdate (s : State) (i temp : Nat) : State :=
  let unit := nth dieList i
  if s.fencedNow unit then s else
  let (start, limit, _) := s.dieLimits unit
  let p := s.power
  let (st, hot) := dieTerm s.heat.slotLen temp start limit (nth p.st i) (nth p.atLimit i)
  let past := decide (start < temp)
  let old := if unitKind unit = 0x3 then nth p.bdTemp (unitIdx unit) else 0
  let bd := unitKind unit = 0x3
  let evStart := past && !nth p.pastStart i
  let evLimit := decide (limit ≤ temp) && !nth p.atLimit i
  let evBond := decide bd && decide (95 < temp) && decide (old ≤ 95)
  let dbl := if !decide bd then p.bdDoubled else
    setAt p.bdDoubled (unitIdx unit) fun d => if 85 < temp then true else if temp < 82 then false else d
  let s := { s with power := { p with
    st := setAt p.st i fun _ => st, atLimit := setAt p.atLimit i fun _ => hot,
    pastStart := setAt p.pastStart i fun _ => past, bdDoubled := dbl } }
  let s := if evStart then s.raise evThermal unit 0 (thermalData temp 0 p.stretch) else s
  let s := if evLimit then s.raise evThermal unit 0 (thermalData temp 1 p.stretch) else s
  if evBond then s.raise evThermal unit 0 (thermalData temp 2 p.stretch) else s

/-- The power term sp (R428). -/
def powerTerm (L inPower cap sp : Nat) : Nat :=
  if cap < inPower then sp + L / 16 else if inPower + 25 < cap then sp - L / 64 else sp

/-- The flow and leak inputs (R429): two low readings in a row lose the flow, one high reading clears it; a leak stays
set. -/
def State.senseUpdate (s : State) (t : Telemetry) : State :=
  let p := s.power
  let low := if t.flowSense then 0 else min 2 (p.lowFlow + 1)
  let lost := decide (low = 2)
  let leak := p.leak || !t.leakSense
  let s := { s with
    power := { p with lowFlow := low, flowLost := lost, leak := leak, flowOk := t.flowSense, leakIn := !t.leakSense },
    pins := { s.pins with flowSense := t.flowSense, leakSense := t.leakSense } }
  let s := if lost && !p.flowLost then s.raise evThermal iodUnit 0 (thermalData 0 3 p.stretch) else s
  if leak && !p.leak then s.raise evThermal iodUnit 0 (thermalData 0 4 p.stretch) else s

/-- The stretch that the terms give (R428). -/
def Power.newStretch (p : Power) (L : Nat) : Nat :=
  let sf := if p.flowLost || p.leak then 3 * L else 0
  min (3 * L) (max p.sp (max (p.st.foldl max 0) sf))

/-- EV_POWER for a cap or voltage outside its range (R420, R431). -/
def State.powerEvents (s : State) (t : Telemetry) : State :=
  let cap := nth s.regs.limits.active 0
  let ev (c : Nat) (s : State) : State := s.raise evPower iodUnit 0 (powerData t.inPower t.inVolt t.inCurr c s.power.stretch)
  let s := if cap < t.inPower then ev 0 s else s
  let s := if t.inVolt < 440 then ev 1 s else s
  if 560 < t.inVolt then ev 2 s else s

/-- Does some die that is not fenced stand at its trip temperature (R430)? -/
def State.tripReached (s : State) (t : Telemetry) : Bool :=
  (List.range 41).any fun i => !s.fencedNow (nth dieList i) && decide ((s.dieLimits (nth dieList i)).2.2 ≤ nth (telemetryAll t) i)

/-- A telemetry update: registers, the controller, its events, and a trip where a die has reached it (R413, R428). -/
def State.telemetry (s : State) (t : Telemetry) : State :=
  if !s.alive then s else
  let L := s.heat.slotLen
  let cap := nth s.regs.limits.active 0
  let s := { s with power := { s.power with sp := powerTerm L t.inPower cap s.power.sp } }
  let s := ((List.range 41).zip (telemetryAll t)).foldl (fun s e => s.dieUpdate e.1 e.2) s
  let s := s.senseUpdate t
  let s := s.powerEvents t
  let p := s.power
  let s := { s with power := { p with
    inPower := t.inPower % 2 ^ 16, inVolt := t.inVolt % 2 ^ 16, inCurr := t.inCurr % 2 ^ 16, rawVolt := t.inVolt,
    cdTemp := (List.range 16).map (nth t.cdTemp), bdTemp := (List.range 16).map (nth t.bdTemp),
    mdTemp := (List.range 8).map (nth t.mdTemp), iodTemp := t.iodTemp, nextStretch := p.newStretch L } }
  if s.tripReached t then s.trip else s

/-! ## SMBus, JTAG, DOE -/

/-- The ALERT# pin: low while a record at S3 or above is outstanding, in a trip, or while leak is set (R433). -/
def State.alertLow (s : State) : Bool :=
  s.power.powered && ((s.events.outstanding.any fun e => decide (3 ≤ e.sev)) || s.power.tripHeld || s.power.leak)

/-- An SMBus block read (R433). -/
def State.smbusRead (s : State) (command : Nat) : State :=
  if !s.power.powered then s else
  let regs (f : Nat → Nat) (o n : Nat) : List Byte := ((List.range (n / 8)).map fun i => natLe 8 (f (o + 8 * i))).flatten
  match command with
  | 0x10 => s.emit (.smbus (regs s.readIdentity 0 40))
  | 0x11 => s.emit (.smbus (regs s.readStatus 0 8))
  | 0x12 => s.emit (.smbus (regs s.readTelemetry 0x40 56))
  | _ => s.emit .smbusNack

/-- EXTEST or CLAMP takes the pins from the module: a running job sees a lost link (R392). -/
def State.boundary (s : State) (clamp : Bool) : State :=
  if !s.alive then s else
  let s := s.linkLoss
  { s with mbx := { s.mbx with jtagClamp := some clamp } }

/-- Is an address in the core-store or cluster-store window, and its unit not fenced (R265)? -/
def State.inStores (s : State) (a : Nat) : Bool := decide (coreBase ≤ a) && s.populated a

/-- One access of a private session. The debug state of a control core is not in the spec: a read gives a free value
(log 7). -/
def State.jtagAccess (s : State) (a : JtagAccess) : State :=
  match a with
  | .readWord addr =>
    if s.inStores addr then
      let (r, s) := s.readMem (addr / 8 * 8) 8
      s.emit (.jtagWord (BitVec.ofNat 64 (leNat r.bytes)))
    else s.emit (.jtagWord 0)
  | .writeWord addr v => if s.inStores addr then (s.writeMem (addr / 8 * 8) (natLe 8 v.toNat)).2 else s
  | .readDebug _ _ =>
    let (n, s) := s.draw
    s.emit (.jtagWord (Config.freeWord n))
  | .writeDebug _ _ _ => s

/-- A session of private instructions: BYPASS until its scope is unlocked, then counted and carried out (R392, R393).
-/
def State.jtagSession (s : State) (scope : Nat) (l : List JtagAccess) : State :=
  if !s.alive then s else
  if scope = 0 ∨ scope &&& s.mbx.debugScope ≠ scope ∨ ¬ s.audit.flashOk then s.emit .tdoBypass else
  let s := { s with mbx := { s.mbx with jtagCount := s.mbx.jtagCount + 1 } }
  let s := s.auditAppend 0x32 3 stOk [] (natLe 4 scope)
  if bitOf scope 0 then l.foldl State.jtagAccess s else s

/-- A DOE object as discovery names it: vendor, type, and the index of the next one, 0 at the last (PRESUMED, log 145). -/
def doeWord (vendor : BitVec 16) (type next : Nat) : BitVec 32 := BitVec.ofNat 32 (vendor.toNat + type * 2 ^ 16 + next * 2 ^ 24)

/-- The three objects of R285: discovery, CDAT, and the attestation exchange under Holsaven's vendor ID with type 0x01 (R390, R399).
The vendors and types of the first two are those of PCI-SIG and CXL (PRESUMED, log 145). -/
def doeObjects : List (BitVec 32) := [doeWord 0x0001 0x00 1, doeWord 0x1E98 0x02 2, doeWord Config.vendorId 0x01 0]

/-- DOE discovery: the object types offered (R285, R379). -/
def State.doeDiscover (s : State) : State := if !s.linkLive then s else s.emit (.doeWords doeObjects)

/-- A CDAT read: an empty table in crucible mode (R379). -/
def State.cdat (s : State) : State :=
  if !s.linkLive then s else s.emit (.doeWords (if s.inCrucible then [] else [Config.cdatTable 0]))

end Sys2Proof.Machine
end

