-- ==== Sys2Proof/Machine/HostMem.lean ====
section
/-! DEFINITION. The host's own accesses: HDM decoders, the snoop filter, and which device addresses are protected (12
R288 to R290, 11 R264). -/

namespace Sys2Proof.Machine

/-- The reserved areas of firmware (R264): the top 64 MiB of each bonded DRAM, and the last 9 GiB of the interleaved
window. -/
def State.reserved (s : State) (a : Nat) : Bool :=
  (decide (a < 256 * gib) && decide (16 * gib - 64 * 2 ^ 20 ≤ a % (16 * gib))) ||
  (decide (lpBase ≤ a) && decide (a < lpBase + s.interSize) && decide (lpBase + s.interSize - 9 * gib ≤ a))

/-- The reserved areas as ranges: base and size (R264, R266). -/
def State.reservedRanges (s : State) : List (Nat × Nat) :=
  ((List.range 16).map fun d => (d * (16 * gib) + 16 * gib - 64 * 2 ^ 20, 64 * 2 ^ 20)) ++ [(lpBase + s.interSize - 9 * gib, 9 * gib)]

/-- Is a device physical address in a region of the loaded pattern's memory plan? -/
def State.inPlan (s : State) (a : Nat) : Bool := s.heat.pattern.isSome && s.mem.frames.any fun f => decide (f.2 = a / 65536)

/-- Is its frame retired (R347)? -/
def State.isRetired (s : State) (a : Nat) : Bool := decide (a / 65536 * 65536 ∈ s.fences.retired)

/-- Target and size of a decoder (R288). -/
def State.hdmTarget (s : State) (d : Nat) : Nat × Nat :=
  if d = 0 then (0, 256 * gib) else (lpBase, if s.fuses.order = 2 then 2048 * gib else 1024 * gib)

/-- Is a host access rejected (R289)? -/
def State.hostRejected (s : State) (a n : Nat) (write : Bool) : Bool :=
  let edge := a + n - 1
  !s.rangePopulated a n || s.reserved a || s.reserved edge || s.isRetired a || s.isRetired edge ||
  !(grainsAll a n fun x => s.answers iodUnit iodUnit (s.ownerUnit x)) || (write && s.running && (s.inPlan a || s.inPlan edge))

/-- The host window of a decoder holds the range. -/
def State.hdmHit (s : State) (d o n : Nat) : Bool :=
  s.fullLink && decide (d < 2) && decide (0 < n) && ((s.port.hdm.getD d none).isSome) && decide (o + n ≤ (s.hdmTarget d).2)

/-- Issues a BISnpInv for a line and waits for its answer (R290). -/
def State.backInvalidate (s : State) (line : Nat) : State :=
  if line ∈ s.port.bisnp then s else
  State.emit { s with port := { s.port with bisnp := s.port.bisnp ++ [line] } } (.bisnp line)

/-- Grants lines in a cached state: they become the lines granted last (R290). -/
def State.grantLine (s : State) (line : Nat) : State :=
  { s with port := { s.port with hostLines := s.port.hostLines.filter (· ≠ line) ++ [line] } }

/-- The 64-byte lines of a range, by address. -/
def linesOf (a n : Nat) : List Nat := (List.range ((a + n + 63) / 64 - a / 64)).map fun i => 64 * (a / 64 + i)

/-- Host-held lines inside a range. -/
def State.heldIn (s : State) (a n : Nat) : List Nat :=
  s.port.hostLines.filter fun l => decide (a < l + 64) && decide (l < a + n)

/-- Device lines that the snoop filter can track (R290). -/
def filterLines : Nat := 16777216

/-- How many lines must come back before those of a range can be granted (R290). -/
def State.excess (s : State) (a n : Nat) : Nat :=
  s.port.hostLines.length + ((linesOf a n).filter fun l => decide (l ∉ s.port.hostLines)).length - filterLines

/-- Serves a host read: its data pass the links to the IOD and the snooper of that direction. Poison marks each word that was
unusable (R279, R289). -/
def State.serveRead (s : State) (a n : Nat) (grant : Bool) : State :=
  let (r, s) := s.readMem a n
  let s := s.emit (.memData r.bytes (r.found.map fun f => !f.usable))
  let s := (s.carry iodUnit false a 0x8 0 (addrBlocks a r.bytes)).snoop 126 0x8 0 (addrBlocks a r.bytes)
  if grant then (linesOf a n).foldl State.grantLine s else s

/-- A host read through a decoder (R289). Where it asks for a cached state and the filter is full, it waits until the lines
granted longest ago have come back (R290). -/
def State.hostMemRead (s : State) (d o n : Nat) (cached : Bool) : State :=
  if !s.hdmHit d o n then s else
  let a := (s.hdmTarget d).1 + o
  if s.hostRejected a n false then
    (s.raise evXlate iodUnit 0 (xlateData a false 4)).emit .memReject
  else
    let grant := cached && !(s.running && (s.inPlan a || s.inPlan (a + n - 1)))
    if grant && decide (0 < s.excess a n) then
      let s := ((s.port.hostLines.filter fun l => decide (l ∉ linesOf a n)).take (s.excess a n)).foldl State.backInvalidate s
      { s with port := { s.port with waitReads := s.port.waitReads ++ [(d, o, n)] } }
    else s.serveRead a n grant

/-- The reads that waited for the snoop filter are tried again, in order (R290). -/
def State.retryReads (s : State) : State :=
  s.port.waitReads.foldl (fun s r => s.hostMemRead r.1 r.2.1 r.2.2 true) { s with port := { s.port with waitReads := [] } }

/-- A host write through a decoder (R289): a rejected one is dropped; both complete toward the host. -/
def State.hostMemWrite (s : State) (d o : Nat) (data : List Byte) : State :=
  if !s.hdmHit d o data.length then s else
  let a := (s.hdmTarget d).1 + o
  let s := s.snoop 125 0x8 0 (addrBlocks a data)
  if s.hostRejected a data.length true then
    (s.raise evXlate iodUnit 0 (xlateData a true 4)).emit (.writeDone false)
  else ((s.carry iodUnit true a 0x8 0 (addrBlocks a data)).writeMem a data).2.emit (.writeDone true)

/-- A host snoop of a host line: RspIHitI (R290). -/
def State.hostSnoopAnswer (s : State) (line : Nat) : State := if s.fullLink then s.emit (.snoopRsp line) else s

/-- The host programs a decoder's base (R288). -/
def State.hdmProgram (s : State) (d base : Nat) : State :=
  if s.fullLink && decide (d < 2) then { s with port := { s.port with hdm := setAt s.port.hdm d fun _ => some base } } else s

end Sys2Proof.Machine
end

