-- ==== Sys2Proof/Machine/Links.lean ====
section
/-! DEFINITION. Later steps of a fence, crossings, links, channel PHYs and control cores (14 R345, R346, R352 to R358).
-/

namespace Sys2Proof.Machine

/-- Step ac 1,024 of a fence: the unit's clocks stop and its crossings are reset, so requests that still waited on it
get fenced replies (R345, R355). -/
def State.clockStop (s : State) (u : Nat) : State :=
  { s with fences := { s.fences with
      fencing := s.fences.fencing.map fun f => if f.unit = u then { unit := u, stopped := true, cause := f.cause } else f,
      cdcDead := s.fences.cdcDead.filter fun e => !(decide (u ∈ covering e.2)) } }

/-- Step ac 2,048: power gated; registers and the fingerprint show the fence (R345, R423). Only a unit whose clocks have
stopped is gated. -/
def State.powerGate (s : State) (u : Nat) : State :=
  if s.fences.fencing.any fun f => decide (f.unit = u) && f.stopped then
    { s with fences := { s.fences with fencing := s.fences.fencing.filter fun f => f.unit ≠ u, fenced := addTo s.fences.fenced u } }
  else s

/-- The tiles of a transfer as destinations. -/
def tileDests (tensor first n : Nat) : List Invalid := (List.range n).map fun i => Invalid.tile tensor (first + i)

/-- The destinations of an op of a program (R28). -/
def destMarks (p : Prog) (d : OpDest) : List Invalid :=
  match d, p with
  | .tiles t first n, _ => tileDests t first n
  | .bank e b, .core c => [.bank c e b]
  | .bank _ _, .unit _ => []
  | .node a n, _ => [.node a n]

/-- Marks destinations invalid (R28). -/
def State.markInvalid (s : State) (l : List Invalid) : State :=
  { s with heat := { s.heat with invalid := l.foldl addTo s.heat.invalid } }

/-- Abandons an op: its destinations are invalid, ABANDONED is set, and what waits for its completion waits in vain (R28, R227). -/
def State.opAbandoned (s : State) (unit : Nat) (dests : List Invalid) : State :=
  let s := s.markInvalid dests
  State.cause { s with heat := { s.heat with abandons := s.heat.abandons + 1 } } unit 8

/-- The unit of a program: the physical core of a logical core, or the die of an update unit (R231). -/
def State.progUnit (s : State) (p : Prog) : Nat :=
  match p with
  | .core i => coreUnit (match s.heat.pattern with
    | some p =>
      let d := i / 64
      let k := fld (nth p.words d) (3 * (i / 8 % 8) + 2) (3 * (i / 8 % 8))
      64 * d + 8 * k + fld (nth p.words (16 + 8 * d + k)) (3 * (i % 8) + 2) (3 * (i % 8))
    | none => i)
  | .unit u => if u < 16 then dieUnit u else mdUnit (u - 16)

/-- Marks a bank as holding no valid result (R28, R154). -/
def State.spoilBank (s : State) (x : Invalid) : State :=
  match x with
  | .bank c e b => { s with heat := { s.heat with cores := s.heat.cores.map fun y =>
      if y.core = c then { y with banks := y.banks.map fun z => if z.engine = e ∧ z.bank = b then { z with bad := true } else z } else y } }
  | _ => s

/-- Abandons a slot op that a command names: nothing without a RUN_HEATS operation. An accumulator bank that the op fills holds
no valid result (R28, R154). -/
def State.abandon (s : State) (p : Prog) (d : OpDest) : State :=
  if !s.running then s else (destMarks p d).foldl State.spoilBank (s.opAbandoned (s.progUnit p) (destMarks p d))

/-- DATA of EV_CDC_TIMEOUT (R358). -/
def cdcData (source : Nat) (handshake : Bool) : Nat := source % 2 ^ 16 + (if handshake then 2 ^ 16 else 0)

/-- What a requester does with a fenced or timeout reply (R346). -/
def State.fencedReply (s : State) (r : Requester) : State :=
  match r with
  | .slotOp p d => s.abandon p d
  | .copy ring tag =>
    (match s.findTag ring tag with
    | some o => s.setOp { o with endWith := some (o.endWith.getD stFenced) }
    | none => s)
  | .host write addr =>
    let s := s.raise evXlate iodUnit 0 (xlateData addr write 4)
    s.emit (if write then .writeDone false else .memReject)
  | .firmware => s

/-- A handshake transfer timed out: the reply, EV_CDC_TIMEOUT naming the far side, and a crossing that answers with
timeouts until it is reset (R352). The fence points of a fenced unit answer at once, so no crossing to it times out: the
requester gets the fenced reply alone, and firmware's is reported at S0 (R345, R346). -/
def State.cdcTimeoutOp (s : State) (source far : Nat) (r : Requester) : State :=
  let s := s.fencedReply r
  if s.fencedNow far then (if r = .firmware then s.raiseWith 0 evCdcTimeout far 0 (cdcData source true) 1 false else s) else
  let s := { s with fences := { s.fences with cdcDead := addTo s.fences.cdcDead (source, far) } }
  s.raise evCdcTimeout far 0 (cdcData source true)

/-! ## Links (R358) -/

/-- A link resets: what it has queued is discarded, so that no LINK_REDUCE gets a whole stream from it, and the crossings to it
open again when both ends are ready (R355, R356). -/
def State.flushLink (s : State) (i : Nat) : State :=
  { s with heat := { s.heat with links := s.heat.links.map fun x => if x.linkEnd / 2 = i then { x with tiles := [], bad := true } else x } }

/-- Is it the code of a link or of one of its ends? -/
def ofLink (i code : Nat) : Bool := code == linkUnit i || code == linkEndUnit (2 * i) || code == linkEndUnit (2 * i + 1)

/-- A flit failed its CRC at a link end: it is retransmitted; the eighth failure in a row retrains the link, reported by
that end (R358). -/
def State.crcFail (s : State) (e : Nat) : State :=
  let i := e / 2
  if s.linkBroken i then s else
  let n := look 0 s.fences.crcRun e + 1
  let retrain := decide (8 ≤ n)
  let f := s.fences
  let s := { s with fences := { f with
    crcRun := if retrain then del f.crcRun e else put f.crcRun e n,
    retrain := if retrain then addTo f.retrain i else f.retrain,
    retrainBy := if retrain then put f.retrainBy i e else f.retrainBy } }
  let s := if retrain then s.flushLink i else s
  s.raise evLinkCrc (linkEndUnit e) 0 ((if retrain then 0 else 1) + (if retrain then 2 ^ 16 else 0))

/-- A retrain ends: the link carries traffic again, or trains once more, or is marked down after the third failure in a row, which
the end that started it reports (R358). A flit that passes ends a run of failures in State.arrive. -/
def State.retrainDone (s : State) (i : Nat) (ok : Bool) : State :=
  if i ∉ s.fences.retrain then s else
  let f := s.fences
  let fails := if ok then 0 else look 0 f.retrainBad i + 1
  let down := decide (3 ≤ fails)
  let by_ := look (2 * i) f.retrainBy i
  let s := { s with fences := { f with
    retrain := if ok || down then f.retrain.filter (· ≠ i) else f.retrain,
    retrainBad := if ok || down then del f.retrainBad i else put f.retrainBad i fails,
    linkDown := if down then addTo f.linkDown i else f.linkDown,
    cdcDead := if ok then f.cdcDead.filter fun e => !ofLink i e.2 else f.cdcDead,
    crcRun := del (del f.crcRun (2 * i)) (2 * i + 1) } }
  if down then s.raise evLinkCrc (linkEndUnit by_) 0 (2 ^ 16 + 2 ^ 17) else s

/-- A channel PHY's retraining ends: the channel answers again (R356). -/
def State.phyDone (s : State) (n : Nat) : State :=
  { s with fences := { s.fences with
      cdcDead := s.fences.cdcDead.filter fun e => e.2 ≠ channelUnit n, phyRetrain := s.fences.phyRetrain.filter (· ≠ n) } }

/-! ## Control cores (R357) -/

/-- DATA of EV_WATCHDOG (R358). -/
def watchdogData (pc : Nat) (ok : Bool) : Nat := pc % 2 ^ 64 + (if ok then 2 ^ 64 else 0)

/-- A control core's second restart failed: it is fenced at once, whatever the severity map holds (R357). -/
def State.fenceControl (s : State) (c : Nat) : State :=
  let s := { s with fences := { s.fences with restarts := s.fences.restarts.filter fun r => r.core ≠ c } }
  s.fenceStart (controlUnit c) 1

/-- A restart of a control core failed: it is restarted once more, or fenced. -/
def State.restartFailed (s : State) (c : Nat) : State :=
  match s.fences.restarts.find? (fun r => r.core = c) with
  | none => s
  | some r =>
    if 2 ≤ r.tries then s.fenceControl c else
    { s with fences := { s.fences with
        restarts := s.fences.restarts.map fun x => if x.core = c then { x with tries := x.tries + 1, quiet := false } else x } }

/-- A control core's watchdog expires: EV_WATCHDOG and a restart; within the quiet time the restart before it has failed
(R356, R357). -/
def State.controlWatchdog (s : State) (c pc : Nat) : State :=
  if 64 ≤ c ∨ s.fencedNow (controlUnit c) then s else
  let held := s.fences.restarts.find? fun r => r.core = c
  let s := s.raise evWatchdog (controlUnit c) 0 (watchdogData pc false)
  match held with
  | none =>
    let n : Restart := { core := c, tries := 1, quiet := false }
    { s with fences := { s.fences with restarts := s.fences.restarts ++ [n] } }
  | some r => if r.quiet then s.restartFailed c else s

/-- A restart completes: the quiet time runs, the crossings to the core open again (R355), and the record of its expiry notes the
success as long as the module holds it (R357, R358; log 138). -/
def State.restartDone (s : State) (c : Nat) : State :=
  if !(s.fences.restarts.any fun r => decide (r.core = c) && !r.quiet) then s else
  let mine := (s.events.openRecs ++ s.port.eqHeld ++ s.events.outstanding).filter fun e => e.code == evWatchdog && e.unit == controlUnit c
  let last := (mine.map (·.seq)).foldl max 0
  let mark (e : EventRec) : EventRec :=
    if e.code = evWatchdog ∧ e.unit = controlUnit c ∧ e.seq = last ∧ ¬ bitOf e.data 64 then { e with data := e.data + 2 ^ 64 } else e
  { s with
    fences := { s.fences with
      restarts := s.fences.restarts.map fun x => if x.core = c then { x with quiet := true } else x,
      cdcDead := s.fences.cdcDead.filter fun e => e.1 ≠ controlUnit c ∧ e.2 ≠ controlUnit c },
    events := { s.events with openRecs := s.events.openRecs.map mark, outstanding := s.events.outstanding.map mark },
    port := { s.port with eqHeld := s.port.eqHeld.map mark } }

/-- The quiet time after a restart ends: the sequence is over (R357). -/
def State.quietDone (s : State) (c : Nat) : State :=
  { s with fences := { s.fences with restarts := s.fences.restarts.filter fun r => !(decide (r.core = c) && r.quiet) } }

/-- A remote register read past its bound: zeros, and EV_CDC_TIMEOUT naming the unit that owns the register (R418). -/
def State.remoteTimeout (s : State) (offset : Nat) : State :=
  (s.emit (.memData (zeros 8) [])).raise evCdcTimeout (registerUnit offset) 0 (cdcData iodUnit true)

/-- A refresh window elapses: the bank's activation counts start afresh (R271, R274). -/
def State.refreshEnd (s : State) (bonded : Bool) (unit bank : Nat) : State :=
  if bonded then s else
  { s with mem := { s.mem with
      rowActs := s.mem.rowActs.filter fun e => !(decide (e.1 / 2 ^ 30 = unit) && decide (e.1 % 16 = bank % 16)) } }

end Sys2Proof.Machine
end

