-- ==== Sys2Proof/Machine/Counts.lean ====
section
/-! DEFINITION. The per-layer counts of the numerics monitor, and the count of re-fetched tiles (05 R122, R130, 12 R310). -/

namespace Sys2Proof.Machine

/-! ## Counts of a layer entry, in the order of R130 -/

def cOvf : Nat := 0
def cFlushTiles : Nat := 1
def cSlag : Nat := 2
def cBudget : Nat := 3
def cFlushBlk : Nat := 4
def cZeroBlk : Nat := 5
def cCrush : Nat := 6
def cRunnerEnt : Nat := 7
def cRunnerOvf : Nat := 8
def cNonfinite : Nat := 9
def cInvalid : Nat := 10
def cUflow : Nat := 11
def cClip : Nat := 12
def cDesync : Nat := 13
/-- RUNNER_PEAK, a maximum of 16 bits. -/
def cPeak : Nat := 14
/-- ZERO_GRAD and UFLOW_ALARM, one bit each. -/
def cZeroGrad : Nat := 15
def cAlarm : Nat := 16

/-- Counts of a layer, all 0. -/
def counts0 : LayerCounts := { c := List.replicate 17 0 }

/-- The counts of a layer in a table. -/
def countsOf (l : List (Nat × LayerCounts)) (layer : Nat) : LayerCounts := look counts0 l layer

/-- Adds to a count, which saturates at 32 bits (R130). -/
def LayerCounts.add (x : LayerCounts) (k n : Nat) : LayerCounts := { c := setAt x.c k fun v => satAdd 32 v n }

/-- Raises the peak (R130). -/
def LayerCounts.peak (x : LayerCounts) (n : Nat) : LayerCounts := { c := setAt x.c cPeak fun v => max v n }

/-- Changes the counts of a layer for the running heat. -/
def State.countBy (s : State) (layer : Nat) (f : LayerCounts → LayerCounts) : State :=
  { s with heat := { s.heat with counts := put s.heat.counts layer (f (countsOf s.heat.counts layer)) } }

/-- Adds to one count of a layer. -/
def State.count (s : State) (layer k n : Nat) : State := if n = 0 then s else s.countBy layer fun x => x.add k n

/-- Notes a tile that an event of a layer concerns: the lowest one is reported (R310). -/
def State.concern (s : State) (layer code L : Nat) : State :=
  { s with heat := { s.heat with minTile := put s.heat.minTile (layer, code) (min L (look L s.heat.minTile (layer, code))) } }

/-- A tile passed its stream checks on its re-read: the first failure raised EV_PAIR_DESYNC, the tile counts as re-fetched, and its op
has no further re-read (R122). -/
def State.refetch (s : State) (layer L : Nat) : State :=
  let s : State := { s with heat := { s.heat with rereads := satAdd 32 s.heat.rereads 1, refetched := true } }
  (s.count layer cDesync 1).concern layer evDesync L

end Sys2Proof.Machine
end

