-- ==== Sys2Proof/Machine/Formats.lean ====
section
/-! DEFINITION. The element formats, the tile record, the operands of the two paths and the conversion of a tile
(03 R50 to R79, 05 R109 to R121). -/

namespace Sys2Proof.Machine

/-! ## Formats (R50 to R57) -/

/-- Is it a format code of R50? -/
def fmtLegal (f : Nat) : Bool :=
  f == 1 || (2 ≤ f && f ≤ 8) || (0x12 ≤ f && f ≤ 0x18) || (0x21 ≤ f && f ≤ 0x25) || (0x31 ≤ f && f ≤ 0x34) || f == 0x40
/-- FI2 to FI8. -/
def isFI (f : Nat) : Bool := 2 ≤ f && f ≤ 8
/-- FU2 to FU8. -/
def isFU (f : Nat) : Bool := 0x12 ≤ f && f ≤ 0x18
/-- The five minifloats. -/
def isMini (f : Nat) : Bool := 0x21 ≤ f && f ≤ 0x25
/-- GE5M2 and GE6M5. -/
def isG (f : Nat) : Bool := f == 0x31 || f == 0x32
/-- F-formats, MAPPED among them: its blocks are F-formats (R72). -/
def isF (f : Nat) : Bool := f == 1 || isFI f || isFU f || isMini f || f == 0x40
/-- Scaled formats (R237): F-formats and G-formats. -/
def isScaled (f : Nat) : Bool := isF f || isG f
/-- The code of MAPPED. -/
def fmtMapped : Nat := 0x40
/-- BF16. -/
def fmtBf16 : Nat := 0x33
/-- binary32. -/
def fmtB32 : Nat := 0x34

/-- Width in bits (R50); 0 for MAPPED. -/
def fmtWidth (f : Nat) : Nat :=
  if f ≤ 8 then f else if isFU f then f - 0x10 else
  if f == 0x21 then 4 else if f == 0x22 || f == 0x23 then 6 else if f == 0x24 || f == 0x25 || f == 0x31 then 8 else
  if f == 0x32 then 12 else if f == 0x33 then 16 else if f == 0x34 then 32 else 0

/-- Bytes of a packed block (R71). -/
def blockBytes (f : Nat) : Nat := 4 * fmtWidth f

/-- May a format stand in a role (R51)? MAPPED is a weight format. -/
def roleOk (f role : Nat) : Bool :=
  match role with
  | 0 => f == 1 || isFI f || isMini f || f == fmtMapped
  | 1 => f == 1 || isFI f || isFU f || isMini f || isG f || f == fmtBf16
  | 2 => isFI f || isMini f || isG f || f == fmtBf16
  | 3 => f == fmtBf16
  | 4 => f == fmtB32
  | _ => false

/-- Is it a format that a weight, and so a palette entry, may have (R51, R72)? -/
def weightFmt (f : Nat) : Bool := f == 1 || isFI f || isMini f

/-- The F-engine class multiplier in quarters (R22, R51): 16, 8, 4, 1, or 0 for none. -/
def fClass (f : Nat) : Nat :=
  if f == 1 then 16 else if f == 2 || f == 0x12 then 8 else
  if (3 ≤ f && f ≤ 5) || (0x13 ≤ f && f ≤ 0x15) || f == 0x21 then 4 else
  if (6 ≤ f && f ≤ 8) || (0x16 ≤ f && f ≤ 0x18) || f == 0x22 || f == 0x23 then 1 else 0

/-- Minifloat parameters e, m, bias, emax (R56). -/
def miniPar (f : Nat) : Nat × Nat × Nat × Nat :=
  if f == 0x21 then (2, 1, 1, 2) else if f == 0x22 then (3, 2, 3, 4) else if f == 0x23 then (2, 3, 1, 2) else
  if f == 0x24 then (4, 3, 7, 8) else (5, 2, 15, 16)

/-- The escape code of an F-format (R54 to R56); none for FB1 and the others. -/
def escCode (f : Nat) : Option Nat :=
  if isFI f then some (2 ^ (fmtWidth f - 1)) else if isFU f then some (2 ^ fmtWidth f - 1) else
  if isMini f then some (2 ^ (fmtWidth f - 1)) else none

/-- U_f of R109 as m * 2^e: the largest magnitude before the block exponent. For FB1 it is one half (R118). -/
def satMag (f : Nat) : Nat × Int :=
  let n := fmtWidth f
  if f == 1 then (1, -1) else if isFI f then (2 ^ (n - 1) - 1, -((n : Int) - 1)) else
  if isFU f then (2 ^ (n - 1) - 1, -(n : Int)) else
  if f == 0x21 then (3, -2) else if f == 0x22 then (7, -3) else if f == 0x23 then (15, -4) else
  if f == 0x24 then (15, -4) else if f == 0x25 then (7, -3) else
  if f == 0x31 then (57344, 0) else (4227858432, 0)

/-- A_f of R109. -/
def fmtTerm (f : Nat) : Int := if isFU f then 1 else if f == 0x31 then -16 else if f == 0x32 then -32 else 0

/-! ## Operands (R75 to R77) -/

/-- The B-path operand of a code that is neither escaped nor reads as zero (R77): eb is the block exponent, et the
tile exponent E_t - 127, z the zero point. -/
def bOperand (f c : Nat) (eb et : Int) (z : Nat) : FV :=
  let n := fmtWidth f
  if f == 1 then .fin (c == 1) 1 (eb - 1) else
  if isFI f then let q := signedOf n c; .fin (decide (q < 0)) q.natAbs (eb - (n - 1)) else
  if isFU f then let q : Int := (c : Int) - z; .fin (decide (q < 0)) q.natAbs (eb - n) else
  if isMini f then
    let (_, m, bias, emax) := miniPar f
    let s := c.testBit (n - 1)
    let mag := c % 2 ^ (n - 1)
    let F := mag / 2 ^ m
    let M := mag % 2 ^ m
    .fin s (if F = 0 then M else 2 ^ m + M) (eb + max F 1 - (bias + m + emax + 1 : Nat))
  else
    let l := if f == 0x31 then ieeeGe5m2 else ieeeGe6m5
    match l.dec c with
    | .fin s m e => .fin s m (e + et)
    | v => v

/-- The exact value of a runner entry under its tile exponent (R63, R84). -/
def runnerValue (r : Nat) (et : Int) : FV :=
  match fvBf r with
  | .fin s m e => .fin s m (e + et)
  | v => v

/-! ## Tile geometry (R66) -/

/-- Tile columns and rows of extents. -/
def tilesOf (n : List Nat) : Nat × Nat := (ceilDiv (nth n 0) 128, ceilDiv (nth n 1) 128)

/-- The number of scale tiles of extents (R66). -/
def tileCount (n : List Nat) : Nat := (tilesOf n).1 * (tilesOf n).2 * nth n 2 * nth n 3 * nth n 4

/-- The linear tile index of an element (R66). -/
def tileIndex (n i : List Nat) : Nat :=
  let t := tilesOf n
  nth i 0 / 128 + t.1 * (nth i 1 / 128 + t.2 * (nth i 2 + nth n 2 * (nth i 3 + nth n 3 * nth i 4)))

/-- Tile coordinates t0, t1, i2, i3, i4 of a linear tile index. -/
def tileCoord (n : List Nat) (L : Nat) : List Nat :=
  let t := tilesOf n
  let r1 := L / max t.1 1
  let r2 := r1 / max t.2 1
  let r3 := r2 / max (nth n 2) 1
  [L % max t.1 1, r1 % max t.2 1, r2 % max (nth n 2) 1, r3 % max (nth n 3) 1, r3 / max (nth n 3) 1]

/-- The logical coordinates of lane `lane` of block B of tile L. -/
def elemCoord (n : List Nat) (L B lane : Nat) : List Nat :=
  let c := tileCoord n L
  [128 * nth c 0 + 32 * (B % 4) + lane, 128 * nth c 1 + B / 4, nth c 2, nth c 3, nth c 4]

/-- Is an element inside the extents? -/
def inExtents (n i : List Nat) : Bool := (List.range 5).all fun k => decide (nth i k < nth n k)

/-- The present blocks of a tile in ascending B (R66). -/
def presentBlocks (n : List Nat) (L : Nat) : List Nat :=
  let c := tileCoord n L
  let rows := min 128 (nth n 1 - 128 * nth c 1)
  let cols := min 4 (ceilDiv (nth n 0 - 128 * nth c 0) 32)
  (List.range 512).filter fun B => decide (B / 4 < rows) && decide (B % 4 < cols)

/-- Lanes of a block that lie inside the extents: the first this many. -/
def blockLanes (n : List Nat) (L B : Nat) : Nat :=
  min 32 (nth n 0 - (128 * nth (tileCoord n L) 0 + 32 * (B % 4)))

/-! ## The scale record (R67 to R70) -/

/-- The tile header (R68). -/
structure TileHdr where
  et        : Nat := 0
  fmt       : Nat := 0
  valid     : Bool := false
  slag      : Bool := false
  coarse    : Bool := false
  clipped   : Bool := false
  nonfinite : Bool := false
  invalid   : Bool := false
  flushed   : Bool := false
  partTile  : Bool := false
  runnerCnt : Nat := 0
  zeroBlk   : Nat := 0
  flushBlk  : Nat := 0
  tileMax   : Nat := 0
  dataOfs   : Nat := 0
  deriving DecidableEq, Repr, Inhabited

/-- A bit at a place. -/
def bit (b : Bool) (i : Nat) : Nat := if b then 2 ^ i else 0

/-- The 16 bytes of a header (R68). -/
def TileHdr.enc (h : TileHdr) : List Byte :=
  natLe 16 (h.et % 256 + h.fmt % 256 * 2 ^ 8 + bit h.valid 16 + bit h.slag 17 + bit h.coarse 18 + bit h.clipped 19
    + bit h.nonfinite 20 + bit h.invalid 21 + bit h.flushed 22 + bit h.partTile 23 + h.runnerCnt % 512 * 2 ^ 24
    + h.zeroBlk % 1024 * 2 ^ 40 + h.flushBlk % 1024 * 2 ^ 50 + h.tileMax % 2 ^ 16 * 2 ^ 64 + h.dataOfs % 2 ^ 32 * 2 ^ 80)

/-- A header of 16 bytes (R68); reserved bits read 0. -/
def TileHdr.dec (bs : List Byte) : TileHdr :=
  let v := u bs 0 16
  { et := fld v 7 0, fmt := fld v 15 8, valid := bitOf v 16, slag := bitOf v 17, coarse := bitOf v 18,
    clipped := bitOf v 19, nonfinite := bitOf v 20, invalid := bitOf v 21, flushed := bitOf v 22, partTile := bitOf v 23,
    runnerCnt := fld v 32 24, zeroBlk := fld v 49 40, flushBlk := fld v 59 50, tileMax := fld v 79 64,
    dataOfs := fld v 111 80 }

/-- The tag of offset word w of tile L (R69). -/
def offsetTag (L w : Nat) : Nat := (35 * L + w) % 16

/-- The 280 bytes of the offset words for 512 block offsets (R69): slots that stand for no block are 0b1111. -/
def encOffsets (L : Nat) (ofs : List Nat) : List Byte :=
  ((List.range 35).map fun w =>
    natLe 8 ((List.range 15).foldl (fun acc j => acc + (ofs.getD (15 * w + j) 15) % 16 * 2 ^ (4 * j)) 0
      + offsetTag L w * 2 ^ 60)).flatten

/-- The offset of block B in a scale record (R69). -/
def offsetOf (rec : List Byte) (B : Nat) : Nat := fld (u rec (16 + 8 * (B / 15)) 8) (4 * (B % 15) + 3) (4 * (B % 15))

/-- The trailer (R70): CRC-32C over the present blocks' bytes and L, the block count and L mod 4. -/
def encTrailer (L : Nat) (data : List Byte) (blocks : Nat) : List Byte :=
  natLe 8 ((crc32c (data ++ natLe 4 L)).toNat + blocks % 1024 * 2 ^ 32 + L % 4 * 2 ^ 42)

/-- Packs 32 codes of n bits (R71). -/
def packBlock (n : Nat) (codes : List Nat) : List Byte :=
  natLe (4 * n) ((List.range 32).foldl (fun acc k => acc + (codes.getD k 0) % 2 ^ n * 2 ^ (n * k)) 0)

/-- The code of a lane of a packed block (R71). -/
def laneCode (n : Nat) (block : List Byte) (lane : Nat) : Nat := fld (leNat block) (n * lane + n - 1) (n * lane)

/-- A runner entry (R74): BF16 value, lane, L mod 4, block. -/
def encRunner (L r lane B : Nat) : List Byte := natLe 4 (B % 512 + L % 4 * 2 ^ 9 + lane % 32 * 2 ^ 11 + r % 2 ^ 16 * 2 ^ 16)

/-- A scaled tile as its reader sees it: header, tile exponent, block bytes and block offsets by B, block formats by
B, and the runner entries (B, lane, r). -/
structure Tile where
  hdr    : TileHdr := {}
  ofs    : List Nat := []
  blocks : List (Nat × List Byte) := []
  fmts   : List (Nat × Nat) := []
  runner : List (Nat × Nat × Nat) := []
  deriving DecidableEq, Repr, Inhabited

/-- E_t - 127. -/
def Tile.et (t : Tile) : Int := (t.hdr.et : Int) - 127

/-- The format of a block of a tile: the header's, or under MAPPED the palette's (R73). -/
def Tile.fmtOf (t : Tile) (B : Nat) : Nat := if t.hdr.fmt = fmtMapped then look 0 t.fmts B else t.hdr.fmt

/-- What a lane holds, apart from its channel scale. -/
inductive Lane where
  | zero
  | esc (r : Nat) (et : Int)
  | code (fmt c : Nat) (eb et : Int)
  deriving DecidableEq, Repr

/-- A lane of a tile under the read rules of R63. The caller has dealt with padding lanes. -/
def Tile.lane (t : Tile) (B lane : Nat) : Lane :=
  let f := t.fmtOf B
  let c := laneCode (fmtWidth f) (look [] t.blocks B) lane
  if isG f then .code f c t.et t.et else
  if escCode f = some c then
    match t.runner.find? (fun e => e.1 = B ∧ e.2.1 = lane) with
    | some e => .esc e.2.2 t.et
    | none => .zero
  else
    let eb := t.ofs.getD B 15
    if eb = 15 then .zero else .code f c (t.et - eb) t.et

/-- The value of a lane as a B-path operand: an escaped lane is its runner value (R77, R84). -/
def Lane.bVal (l : Lane) (z : Nat) : FV :=
  match l with
  | .zero => .fin false 0 0
  | .esc r et => runnerValue r et
  | .code f c eb et => bOperand f c eb et z

/-- The stream checks of steps 2 to 5 of R78 on a scale record and the block bytes; the runner check is
`runnerOk`. -/
def streamsOk (rec : List Byte) (fmt cap L : Nat) (present : List Nat) (data : List Byte) : Bool :=
  let h := TileHdr.dec rec
  let tr := u rec 296 8
  h.valid && decide (h.fmt = fmt) && decide (h.runnerCnt ≤ cap)
  && (isG fmt || (List.range 35).all fun w => decide (fld (u rec (16 + 8 * w) 8) 63 60 = offsetTag L w))
  && decide (fld tr 41 32 = present.length) && decide (fld tr 43 42 = L % 4)
  && decide (fld tr 31 0 = (crc32c (data ++ natLe 4 L)).toNat)

/-- Step 6 of R78: entries ascend strictly in BLOCK, at most one for a block (R74), name L mod 4, and match the escape codes one to
one. -/
def runnerOk (t : Tile) (entries : List Nat) (L : Nat) (lanes : Nat → Nat) (present : List Nat) : Bool :=
  let es := entries.map fun v => (fld v 8 0, fld v 15 11)
  let escs := present.flatMap fun B =>
    let f := t.fmtOf B
    ((List.range (lanes B)).filter fun k => escCode f = some (laneCode (fmtWidth f) (look [] t.blocks B) k)).map fun k => (B, k)
  decide (es = escs) && ((es.zip (es.drop 1)).all fun e => decide (e.1.1 < e.2.1)) && entries.all (fun v => decide (fld v 10 9 = L % 4))

/-! ## Rounding to a grid and encoding (R99, R100, R111, R112) -/

/-- A rounding mode (R100): to nearest even, or stochastic with b bits and the drawn number. -/
inductive Rnd where
  | rne
  | sr (b rho : Nat)
  deriving DecidableEq, Repr

/-- The magnitude m * 2^e in whole steps of 2^q, rounded (R100). -/
def Rnd.steps (r : Rnd) (m : Nat) (e q : Int) : Nat :=
  if q ≤ e then m <<< (e - q).toNat else
  let k := (q - e).toNat
  match r with
  | .rne => rneShift m k
  | .sr b rho => if rho < ((m % 2 ^ k) <<< b) >>> k then (m >>> k) + 1 else m >>> k

/-- The same for a code q = z +- steps: a tie goes to the even code, so to an odd number of steps where z is odd (R100). -/
def Rnd.stepsFrom (r : Rnd) (z m : Nat) (e q : Int) : Nat :=
  let k := (q - e).toNat
  match r with
  | .rne => if q ≤ e ∨ z % 2 = 0 ∨ m % 2 ^ k ≠ 2 ^ k / 2 then r.steps m e q else (m >>> k) ||| 1
  | .sr _ _ => r.steps m e q

/-- The magnitude code of a value on a floating grid of p bits above emin, without a ceiling. -/
def gridMag (r : Rnd) (p : Nat) (emin : Int) (m : Nat) (e : Int) : Nat :=
  if m = 0 then 0 else
  let q := max (e + bitLen m - p) emin
  (q - emin).toNat * 2 ^ (p - 1) + r.steps m e q

/-- Is |y| above U_f * 2^eb (R111)? Non-finite values are. -/
def saturates (f : Nat) (y : FV) (eb : Int) : Bool :=
  let (m, e) := satMag f
  match y with
  | .fin _ k x => FV.lt (.fin false m (e + eb)) (.fin false k x)
  | _ => true

/-- Converts a quotient to a code of an F-format at block exponent eb with zero point z: the code, and whether it
was range-clipped (R99, R112). -/
def encF (f : Nat) (r : Rnd) (eb : Int) (z : Nat) (y : FV) : Nat × Bool :=
  let n := fmtWidth f
  let sat := saturates f y eb
  let s := y.sgn
  let (m, e) := match y with
    | .fin _ m e => (m, e)
    | _ => (0, 0)
  if f == 1 then (if s && !(y.isZero) then (1, false) else (0, false)) else
  if isFI f then
    let mag := if sat then 2 ^ (n - 1) - 1 else min (r.steps m e (eb - (n - 1))) (2 ^ (n - 1) - 1)
    (if s then (2 ^ n - mag) % 2 ^ n else mag, false)
  else if isFU f then
    let mag : Nat := if sat then 2 ^ (n - 1) - 1 else r.stepsFrom z m e (eb - n)
    let q : Int := z + (if s then -(mag : Int) else mag)
    let c := clampInt 0 (2 ^ n - 2) q
    (c.toNat, !sat && decide (c ≠ q))
  else
    let (_, mm, bias, emax) := miniPar f
    let top := 2 ^ (n - 1) - 1
    let mag := if sat then top else min (gridMag r (mm + 1) (1 - bias - mm + (eb - emax - 1)) m e) top
    (if mag = 0 then 0 else mag + (if s then 2 ^ (n - 1) else 0), false)

/-- Converts a value to an IEEE-like layout under a rounding mode (R57, R99, R100). -/
def encIeee (l : Ieee) (r : Rnd) : FV → Nat
  | .fin s m e => min (gridMag r l.p l.emin m e) l.inf + (if s then 2 ^ l.sign else 0)
  | v => l.enc v

/-- Converts a quotient to a G-format code under the tile exponent et (R62, R99); a saturated lane takes no random bits
(R140). -/
def encG (f : Nat) (r : Rnd) (et : Int) (y : FV) : Nat :=
  let l := if f == 0x31 then ieeeGe5m2 else ieeeGe6m5
  let r := if saturates f y et then .rne else r
  match y with
  | .fin s m e => encIeee l r (.fin s m (e - et))
  | v => l.enc v

/-! ## One block and one tile (R64, R113 to R118) -/

/-- A block before conversion: its index, format, zero point, and the quotients of the lanes inside the extents with
the random number each would take. -/
structure BlkIn where
  b    : Nat
  fmt  : Nat
  z    : Nat
  vals : List FV
  rnds : List Rnd
  deriving DecidableEq, Repr, Inhabited

/-- Is x a larger magnitude than y? Non-finite values rank as infinite (R114). -/
def magLt (x y : FV) : Bool :=
  match x, y with
  | .fin _ m e, .fin _ n f => FV.lt (.fin false m e) (.fin false n f)
  | .fin _ _ _, _ => true
  | _, _ => false

/-- The lane of the largest magnitude if the block qualifies for extraction (R114): the second largest is non-zero
and the largest exceeds 2^T times it; equal magnitudes never qualify. -/
def qualifies (T : Nat) (b : BlkIn) : Option Nat :=
  if b.fmt == 1 then none else
  let lanes := (List.range b.vals.length).zip b.vals
  match lanes.foldl (fun (acc : Option (Nat × FV)) e => match acc with
      | none => some e
      | some a => if magLt a.2 e.2 then some e else some a) none with
  | none => none
  | some (k, big) =>
    let rest := (lanes.filter fun e => e.1 ≠ k).map (·.2)
    let second := rest.foldl (fun acc e => if magLt acc e then e else acc) (.fin false 0 0)
    if second.isZero || !second.isFin then none else
    match big, second with
    | .fin _ m e, .fin _ n f => if FV.lt (.fin false n (f + T)) (.fin false m e) then some k else none
    | _, _ => some k

/-- A converted block. -/
structure BlkOut where
  b       : Nat
  fmt     : Nat
  eb      : Nat
  codes   : List Nat
  esc     : Option (Nat × Nat)
  zero    : Bool
  flushed : Bool
  crushed : Bool
  beyond  : Bool
  satd    : Bool
  rSat    : Bool
  clips   : Nat
  deriving DecidableEq, Repr, Inhabited

/-- What is done with a block's largest element. -/
inductive Extract where
  | plain
  | take (lane : Nat)
  | clip (lane : Nat)
  | crush
  deriving DecidableEq, Repr

/-- The largest k from 0 to 15 at which every value converts without saturating, none if one saturates at 0
(R64). -/
def offsetFor (f : Nat) (et : Int) (vals : List FV) : Option Nat :=
  ((List.range 16).filter fun (k : Nat) => vals.all fun y => !saturates f y (et - (k : Int))).getLast?

/-- floor(log2) of the mean magnitude of a block, rounded to the nearer exponent (R64, FB1); none for a mean that is zero or not
finite, for which R64 gives no E_b: convBlock then takes 0 (log 62). -/
def meanExp (vals : List FV) : Option Int :=
  if vals.all FV.isFin then
    let g := vals.foldl (fun acc v => match v with
      | .fin _ _ e => min acc e
      | _ => acc) 0
    let sum := sumNat (vals.map fun v => match v with
      | .fin _ m e => m * 2 ^ (e - g).toNat
      | _ => 0)
    let n := vals.length
    if sum = 0 ∨ n = 0 then none else
    -- sum / n lies in [2^f, 2^(f+1)) after scaling by 2^64
    let q := (sum <<< 64) / n
    let f : Int := (bitLen q : Int) - 1
    let up : Bool := decide (2 * n * n * 2 ^ (2 * f).toNat < (sum <<< 64) * (sum <<< 64))
    some (f + (if up then 1 else 0) - 64 + g)
  else none

/-- Converts one block of an F-format tile at tile exponent et (R64, R65, R99, R112, R116). -/
def convBlock (et : Int) (x : Extract) (b : BlkIn) : BlkOut :=
  let f := b.fmt
  let lane? := match x with
    | .take k => some k
    | _ => none
  let clipLane := match x with
    | .clip k => some k
    | _ => none
  let idx := (List.range b.vals.length).zip (b.vals.zip b.rnds)
  let others := (idx.filter fun e => lane? ≠ some e.1 ∧ clipLane ≠ some e.1).map (·.2.1)
  let esc := lane?.map fun k =>
    let v := nth b.vals k
    let r := match v with
      | .fin s m e => .fin s m (e - et)
      | w => w
    let c := rneBf r
    (k, match v with
      | .nan => 0x7F7F
      | _ => if c = 0x7F80 then 0x7F7F else if c = 0xFF80 then 0xFF7F else c)
  let rSat := match lane? with
    | some k => (match nth b.vals k with
      | .fin s m e => decide (rneBf (.fin s m (e - et)) % 0x8000 = 0x7F80)
      | _ => false)
    | none => false
  let allZero := others.all FV.isZero
  let k? := offsetFor f et others
  let isFb := f == 1
  let fbZero := isFb && b.vals.all FV.isZero
  let flushed := !isFb && clipLane.isNone && !allZero && k? == some 15
  let zero := (if isFb then fbZero else clipLane.isNone && allZero) || flushed
  let eb := if zero then 15 else
    if isFb then (match meanExp b.vals with
      | some t => (clampInt 0 14 (et - 1 - t)).toNat
      | none => 0)
    else if clipLane.isSome && allZero then 0 else min (k?.getD 0) 14
  let satd := !isFb && k?.isNone
  let conv := idx.map fun e =>
    if lane? = some e.1 then ((escCode f).getD 0, false) else if zero then (0, false) else
    if clipLane = some e.1 then encF f .rne (et - eb) b.z (if e.2.1.isNan then .inf false else .inf e.2.1.sgn)
    else encF f e.2.2 (et - eb) b.z e.2.1
  { b := b.b, fmt := f, eb := eb, codes := conv.map (·.1), esc := esc, zero := zero, flushed := flushed,
    crushed := x == .crush, beyond := clipLane.isSome, satd := satd, rSat := rSat,
    clips := (conv.filter (·.2)).length }

/-- Decides what each block's largest element does (R114 to R116): capacity C, coarse for a recompute without
extraction; T by block format. The number of qualifying blocks beyond capacity comes with it. -/
def planExtract (T : Nat → Nat) (C : Nat) (coarse : Bool) (bs : List BlkIn) : List Extract × Nat :=
  let r := bs.foldl (fun (acc : List Extract × Nat × Nat) b =>
    match qualifies (T b.fmt) b with
    | none => (acc.1 ++ [.plain], acc.2.1, acc.2.2)
    | some k =>
      if C = 0 ∨ coarse then (acc.1 ++ [.crush], acc.2.1, acc.2.2) else
      if acc.2.1 < C then (acc.1 ++ [.take k], acc.2.1 + 1, acc.2.2) else (acc.1 ++ [.clip k], acc.2.1, acc.2.2 + 1))
    ([], 0, 0)
  (r.1, r.2.2)

/-- A converted tile and what its conversion found. -/
structure TileOut where
  et      : Nat
  blocks  : List BlkOut
  beyond  : Nat
  overflow : Bool
  flushes : Nat
  zeros   : Nat
  crushed : Nat
  clips   : Nat
  runner  : Nat
  deriving DecidableEq, Repr, Inhabited

/-- Converts an F-format tile at biased exponent E_T. -/
def convTile (eT : Nat) (T : Nat → Nat) (C : Nat) (coarse : Bool) (bs : List BlkIn) : TileOut :=
  let (xs, beyond) := planExtract T C coarse bs
  let out := (xs.zip bs).map fun e => convBlock ((eT : Int) - 127) e.1 e.2
  { et := eT, blocks := out, beyond := beyond, overflow := out.any fun o => o.satd || o.rSat,
    flushes := (out.filter (·.flushed)).length, zeros := (out.filter (·.zero)).length,
    crushed := (out.filter (·.crushed)).length, clips := sumNat (out.map (·.clips)),
    runner := (out.filter fun o => o.esc.isSome).length }

/-- Converts a G-format tile: no offsets, no runner; it overflows when a value saturates (R111). -/
def convTileG (f eT : Nat) (bs : List BlkIn) : TileOut :=
  let et : Int := (eT : Int) - 127
  let out := bs.map fun b =>
    ({ b := b.b, fmt := f, eb := 0, codes := (b.vals.zip b.rnds).map fun e => encG f e.2 et e.1, esc := none,
       zero := false, flushed := false, crushed := false, beyond := false,
       satd := b.vals.any fun y => saturates f y et, rSat := false, clips := 0 } : BlkOut)
  { et := eT, blocks := out, beyond := 0, overflow := out.any (·.satd), flushes := 0, zeros := 0, crushed := 0, clips := 0,
    runner := 0 }

/-- TILE_MAX of a tile's quotients as BF16 rounded up; the canonical NaN if one is NaN (R68). -/
def tileMaxOf (bs : List BlkIn) : Nat :=
  let vs := bs.flatMap (·.vals)
  if vs.any FV.isNan then 0x7FC0 else
  bfUp ((vs.foldl (fun acc v => if magLt acc v then v else acc) (.fin false 0 0)).abs)

/-- Is TILE_MAX non-finite? -/
def maxNonfinite (c : Nat) : Bool := decide (0x7F80 ≤ c)

/-- The retry exponent e_t before clamping, of an exact maximum (R117, R118): the least with the maximum at most
U_f * 2^e_t for every format in the tile; -127 for +0, 129 for a non-finite one. -/
def retryExpOf (fmts : List Nat) (v : FV) : Int :=
  match v with
  | .fin _ m e =>
    if m = 0 then -127 else
    fmts.foldl (fun acc f =>
      let (um, ue) := satMag f
      let t0 : Int := e + bitLen m - (ue + bitLen um)
      let t := if FV.le (.fin false m e) (.fin false um (ue + t0)) then t0 else t0 + 1
      max acc t) (-100000)
  | _ => 129

/-- The retry exponent of a TILE_MAX. -/
def retryExp (fmts : List Nat) (c : Nat) : Int := retryExpOf fmts (fvBf c)

/-- E_T of an exponent, clamped (R108). -/
def clampET (e : Int) : Nat := (clampInt 0 255 (127 + e)).toNat

/-- The predicted exponent of a tracking entry (R108). -/
def predictExp (est : Int) (H : Nat) (f : Nat) : Int := asr (est + 255) 8 + H + fmtTerm f

/-- log2q of R107 for a positive finite BF16. -/
def log2q (m : Nat) : Int :=
  let ex := m / 128 % 256
  if ex = 0 then -32768 else 256 * ((ex : Int) - 127) + 2 * (m % 128 : Nat) + 23

/-- fold of R107: the new EST. -/
def foldEst (est : Int) (obs rise fall : Nat) : Int :=
  if obs % 0x8000 = 0 ∨ maxNonfinite (obs % 0x8000) then est else
  let d := log2q obs - est
  clampInt (-32768) 32767 (est + asr d (if 0 < d then rise else fall))

/-- The streams of a tile (R67 to R74, R166): its scale record, the bytes of its present blocks, and its runner
entries. -/
structure TileBytes where
  scale  : List Byte
  blocks : List (Nat × List Byte)
  runner : List Byte
  deriving DecidableEq, Repr, Inhabited

/-- Forms the streams of a converted tile. `fmt` is the header's format, `L` the tile index. -/
def tileStreams (fmt L : Nat) (h : TileHdr) (o : TileOut) : TileBytes :=
  let blocks := o.blocks.map fun b => (b.b, packBlock (fmtWidth b.fmt) b.codes)
  let data := (blocks.map (·.2)).flatten
  let ofs := (List.range 512).map fun B => match o.blocks.find? (fun b => b.b = B) with
    | some b => b.eb
    | none => 15
  let hdr := { h with et := o.et, fmt := fmt, runnerCnt := o.runner, zeroBlk := o.zeros, flushBlk := o.flushes,
                      flushed := decide (0 < o.flushes), partTile := decide (o.blocks.length < 512) }
  { scale := hdr.enc ++ (if isG fmt then zeros 280 else encOffsets L ofs) ++ encTrailer L data blocks.length,
    blocks := blocks,
    runner := (o.blocks.map fun b => match b.esc with
      | some (k, r) => encRunner L r k b.b
      | none => []).flatten }

end Sys2Proof.Machine
end

