-- ==== Sys2Proof/Machine/Sand.lean ====
section
/-! DEFINITION. The sand generator (R131 to R146). -/

namespace Sys2Proof.Machine

/-- The key increment W (R137). -/
def sandW : Word := 0xC5A31D6F4B28E957
/-- M0 (R137). -/
def sandM0 : Word := 0xA76E3C295F8B14D1
/-- M1 (R137). -/
def sandM1 : Word := 0xE3D49B076C25A8F5
/-- ML (R137). -/
def sandML : Word := 0xB5C26E1F93A7D04B
/-- ROT[0] to ROT[5] (R137). -/
def sandRot : List Nat := [13, 29, 41, 7, 53, 23]

/-- Left rotation of 64 bits. -/
def rotl (x : Word) (n : Nat) : Word := x.rotateLeft n

/-- One round of R137 on (k, x0, x1). -/
def sandRound (s : Word × Word × Word) (rot : Nat) : Word × Word × Word :=
  let k := s.1 + sandW
  let x0 := (s.2.1 ^^^ k) * sandM0
  let x1 := s.2.2 + rotl x0 rot
  (k, x0 ^^^ (x1 >>> 29), x1)

/-- A draw D (R137). -/
def sand (seed : Word) (purpose tensor heat gamma : Nat) : Word :=
  let x0 : Word := BitVec.ofNat 64 gamma ||| (BitVec.ofNat 64 purpose <<< 60)
  let x1 : Word := BitVec.ofNat 64 (heat % 2 ^ 48) ||| (BitVec.ofNat 64 tensor <<< 48)
  let r := sandRot.foldl sandRound (seed, x0, x1)
  let z := r.2.1 ^^^ rotl r.2.2 32
  let z := (z ^^^ (z >>> 30)) * sandM1
  let z := (z ^^^ (z >>> 27)) * sandM0
  z ^^^ (z >>> 31)

/-- The field F_j of b bits of a draw (R138). -/
def sandField (d : Word) (j b : Nat) : Nat := ((rotl d (4 * j) * sandML) >>> (64 - b)).toNat

/-- The logical group index of an element (R134); the extents are those of the logical tensor. -/
def sandGamma (n : List Nat) (i : List Nat) : Nat :=
  let g0 := ceilDiv (nth n 0) 16
  nth i 0 / 16 + g0 * (nth i 1 + nth n 1 * (nth i 2 + nth n 2 * (nth i 3 + nth n 3 * nth i 4)))

/-- The field an element takes from the draw of its group (R134, R138). -/
def sandOf (seed : Word) (purpose tensor heat : Nat) (n i : List Nat) (b : Nat) : Nat :=
  sandField (sand seed purpose tensor heat (sandGamma n i)) (nth i 0 % 16) b

end Sys2Proof.Machine
end

