-- ==== Sys2Proof/Machine/Tensors.lean ====
section
/-! DEFINITION. Tensor descriptors and their checks, where elements and streams live, and reading and writing tiles with
the stream checks (10 R237 to R245, 03 R66 to R79, 07 R437). -/

namespace Sys2Proof.Machine

/-! ## The descriptor (R237) -/

/-- A tensor descriptor's fields. -/
structure Desc where
  base       : Nat
  fmt        : Nat
  role       : Nat
  ndim       : Nat
  padMat     : Bool
  chan       : Nat
  palette    : Nat
  n          : List Nat
  st         : List Int
  bound      : List Nat
  map        : Nat
  scaleBase  : Nat
  runnerBase : Nat
  fill       : F32
  padLo      : List Nat
  padHi      : List Nat
  deriving DecidableEq, Repr, Inhabited

/-- Reads the fields of a 128-byte descriptor; strides are those of dimensions 1 to 4. -/
def descOf (b : List Byte) : Desc :=
  let v := u b 0 128
  { base := fld v 47 0, fmt := fld v 71 64, role := fld v 79 72, ndim := fld v 87 80, padMat := bitOf v 88,
    chan := fld v 111 96, palette := fld v 127 112,
    n := (List.range 5).map fun k => fld v (159 + 32 * k) (128 + 32 * k),
    st := (List.range 4).map fun k => signedOf 48 (fld v (335 + 48 * k) (288 + 48 * k)),
    bound := (List.range 5).map fun k => fld v (481 + 2 * k) (480 + 2 * k), map := fld v 511 496,
    scaleBase := fld v 575 512, runnerBase := fld v 639 576, fill := BitVec.ofNat 32 (fld v 671 640),
    padLo := (List.range 5).map fun k => fld v (687 + 16 * k) (672 + 16 * k),
    padHi := (List.range 5).map fun k => fld v (767 + 16 * k) (752 + 16 * k) }

/-- Are the reserved fields zero (R237)? -/
def descReserved (b : List Byte) : Bool :=
  let v := u b 0 128
  decide (fld v 63 48 = 0) && decide (fld v 95 89 = 0) && decide (fld v 495 490 = 0) && decide (fld v 1023 832 = 0)

/-- Is a format stored with a runner (R74): an F-format other than FB1? -/
def hasRunner (f : Nat) : Bool := isF f && f != 1

/-- The stride of dimension k from 1 (R240). -/
def Desc.stride (d : Desc) (k : Nat) : Int := d.st.getD (k - 1) 0

/-- The address of the block that holds an element (R240). -/
def Desc.blockAddr (d : Desc) (i : List Nat) : Int :=
  d.base + (nth i 0 / 32 * blockBytes d.fmt : Nat) + (nth i 1 : Int) * d.stride 1 + (nth i 2 : Int) * d.stride 2 +
    (nth i 3 : Int) * d.stride 3 + (nth i 4 : Int) * d.stride 4

/-- The lowest and the highest byte that the blocks reach (R238). -/
def Desc.reach (d : Desc) : Int × Int :=
  let ends (k : Nat) : Int := ((nth d.n k : Int) - 1) * d.stride k
  let ks := [1, 2, 3, 4]
  let low := ks.foldl (fun acc k => acc + min (ends k) 0) (d.base : Int)
  let high := ks.foldl (fun acc k => acc + max (ends k) 0) ((d.base : Int) + (ceilDiv (nth d.n 0) 32 * blockBytes d.fmt : Nat) - 1)
  (low, high)

/-- The entries of a channel table: scale code and zero point (R61). -/
def Pattern.chanTable (p : Pattern) (i : Nat) : Option (List (Nat × Nat)) :=
  if h : i < p.chanDir.length then
    let e := p.chanDir[i]
    some ((p.chans.drop e.1).take (2 ^ e.2))
  else none

/-- Do the zero points of a table keep the bound of R55 for an FU format? -/
def zerosFit (f : Nat) (t : List (Nat × Nat)) : Bool := t.all fun e => decide (e.2 ≤ 2 ^ fmtWidth f - 2)

/-- The checks of R237 and R238 on a descriptor apart from aliasing. -/
def descOk (p : Option Pattern) (b : List Byte) : Bool :=
  let d := descOf b
  let scaled := isScaled d.fmt
  let mapped := d.fmt == fmtMapped
  let chanOk : Bool := match p.bind fun q => q.chanTable d.chan with
    | some t => !isFU d.fmt || zerosFit d.fmt t
    | none => !isFU d.fmt
  let palOk : Bool := match p with
    | some q => decide (d.palette < q.palettes.length)
    | none => false
  descReserved b && decide (d.base % 4 = 0) && fmtLegal d.fmt && roleOk d.fmt d.role && decide (1 ≤ d.ndim ∧ d.ndim ≤ 5)
  && chanOk && (if mapped then palOk else decide (d.palette = 0xFFFF))
  && d.n.all (fun x => decide (1 ≤ x)) && (List.range 5).all (fun k => decide (k < d.ndim) || decide (nth d.n k = 1))
  && d.bound.all (fun x => decide (x ≤ 1)) && decide (d.role = 0 ∨ !mapped)
  && (mapped || d.st.all fun x => decide (x % (blockBytes d.fmt : Int) = 0))
  && (!scaled || (decide (d.scaleBase % 8 = 0) && isZero32 d.fill && decide (d.fill = 0) && [nth d.padLo 0, nth d.padLo 1, nth d.padHi 0, nth d.padHi 1].all (· == 0)))
  && (!hasRunner d.fmt || decide (d.runnerBase % 4 = 0)) && decide (tileCount d.n < 2 ^ 32)
  && (mapped || (decide (0 ≤ d.reach.1) && decide (d.reach.2 < 2 ^ 48)))

/-- A zero stride on a dimension with extent above 1 (R238). -/
def Desc.aliased (d : Desc) : Bool := [1, 2, 3, 4].any fun k => decide (d.stride k = 0) && decide (1 < nth d.n k)

/-- The status of a descriptor (R237, R238): ST_OK, ST_DESC_INVALID, or ST_DESC_ALIAS where it is written. -/
def descStatus (p : Option Pattern) (b : List Byte) (written : Bool) : Nat :=
  if !descOk p b then stInvalid else if written && (descOf b).aliased then stAlias else stOk

/-! ## Tensors of the loaded pattern -/

/-- Where a unit stands: the logical core it is, if any, and its die. -/
structure Site where
  core : Option Nat
  unit : Nat
  ev   : Nat
  deriving DecidableEq, Repr, Inhabited

/-- A tensor as one unit sees it: its descriptor, whether its addresses are store addresses, whether it is in tile layout
(R437), its runner capacity, its monitor layer, and the stretch of addresses that its mapping covers, where it has a region. -/
structure Tensor where
  idx    : Nat
  d      : Desc
  direct : Bool
  tiled  : Bool
  cap    : Nat
  layer  : Nat
  room   : Option (Nat × Nat)
  deriving DecidableEq, Repr, Inhabited

/-- Monitor layer of a tensor: that of the first product descriptor that writes it, else of the first that reads it
(R124; the image holds no other place for it, log 24). -/
def Pattern.layerOf (p : Pattern) (t : Nat) : Nat :=
  match p.products.find? (fun q => q.out = t) with
  | some q => q.layer
  | none => match p.products.find? (fun q => q.a = t ∨ q.b = t) with
    | some q => q.layer
    | none => 0

/-- Layer numerics of a layer: entries beyond the table are resolved at load (R218). -/
def Pattern.layerNum (p : Pattern) (l : Nat) : LayerNum := p.lnum.getD l { t := 0, c := 0, policy := 0, uflowMax := 64 }

/-- Tensor numerics of a tensor. -/
def Pattern.tensorNum (p : Pattern) (t : Nat) : TensorNum :=
  p.tnum.getD t { trackMode := 1, head := 1, rise := 0, fall := 3, flushNum := 8, srBits := 4, frozen := false, tokens := false,
                  vecCopy := false, vecFirst := 0 }

/-- T of a layer for a format (R110): a stored 0 stands for n - 1. -/
def LayerNum.ratio (l : LayerNum) (fmt : Nat) : Nat := if l.t = 0 then fmtWidth fmt - 1 else l.t

/-- The physical cluster of a logical cluster of a die, and the physical core of a logical core (R230). -/
def Pattern.physCluster (p : Pattern) (d k : Nat) : Nat := fld (nth p.words d) (3 * k + 2) (3 * k)
def Pattern.physCore (p : Pattern) (core : Nat) : Nat :=
  let d := core / 64
  let k := p.physCluster d (core / 8 % 8)
  64 * d + 8 * k + fld (nth p.words (16 + 8 * d + k)) (3 * (core % 8) + 2) (3 * (core % 8))

/-- Address of a region: for a core or cluster store, in the store windows (R219, R262); else its virtual base. -/
def Pattern.regionAt (p : Pattern) (r : Region) : Nat × Bool :=
  if r.place = 0x40 then (coreBase + p.physCore r.unit * 2097152 + r.base, true) else
  if r.place = 0x41 then (clusterBase + (8 * (r.unit / 8) + p.physCluster (r.unit / 8) (r.unit % 8)) * 16777216 + r.base, true) else
  (r.base, false)

/-- The die of a region, if it lies on one. -/
def Region.die (r : Region) : Option Nat :=
  if r.place < 16 then some r.place else if r.place = 0x40 then some (r.unit / 64) else if r.place = 0x41 then some (r.unit / 8) else none

/-- Does a site reach a region (R12)? A core store serves its own core alone; a cluster store serves the cores of its cluster, and
the ladles and link ends of its die. -/
def Region.reachable (r : Region) (site : Site) : Bool :=
  if r.place = 0x40 then decide (some r.unit = site.core) else
  if r.place = 0x41 then
    (match site.core with
    | some c => decide (c / 8 = r.unit) || (decide (c / 64 = r.unit / 8) && (unitKind site.ev == 4 || unitKind site.ev == 9))
    | none => decide (site.unit = dieUnit (r.unit / 8)))
  else true

/-- The region of a kind that holds a tensor, as a site sees it, among those that it reaches (R12): in its core's store, else in a
cluster store, else in the bonded DRAM of its die, else the first of the plan; none where it reaches no one. The spec does not
say which of several regions of one tensor an op uses (DESIGN CHOICE, log 134). -/
def Pattern.regionOf (p : Pattern) (kind t : Nat) (site : Site) : Option Region :=
  let rs := p.regions.filter fun r => decide (r.kind = kind) && decide (r.tensor = t) && r.reachable site
  let at_ (f : Region → Bool) : Option Region := rs.find? f
  at_ (fun r => decide (r.place = 0x40)) <|> at_ (fun r => decide (r.place = 0x41)) <|>
    at_ (fun r => decide (r.place < 16) && decide (site.unit = dieUnit r.place)) <|> rs.head?

/-- The size of a dense tensor's data (log 13). -/
def denseStrides (fmt : Nat) (n : List Nat) : List Int :=
  let s1 := ceilDiv (nth n 0) 32 * blockBytes fmt
  let s2 := s1 * nth n 1
  let s3 := s2 * nth n 2
  [s1, s2, s3, s3 * nth n 3]

/-- The formats of a MAPPED tile's blocks from the palette and the width map (R72). -/
def Pattern.mappedFmts (p : Pattern) (d : Desc) (L : Nat) (blocks : List Nat) : List (Nat × Nat) :=
  let pal := p.palettes.getD d.palette []
  let map := p.maps.getD (d.map + L) []
  blocks.map fun B => (B, pal.getD (fld ((map.getD (B / 4) 0).toNat) (2 * (B % 4) + 1) (2 * (B % 4))) 0)

/-- Bytes of a MAPPED tile's data: its present blocks at their own widths (R73). -/
def Pattern.mappedTile (p : Pattern) (d : Desc) (L : Nat) : Nat :=
  sumNat ((p.mappedFmts d L (presentBlocks d.n L)).map fun e => blockBytes e.2)

/-- Bytes that a tensor's data take: dense, or for MAPPED tile after tile, each from a 64-byte unit (R73, log 13). -/
def Pattern.dataSize (p : Pattern) (d : Desc) : Nat :=
  if d.fmt = fmtMapped then sumNat ((List.range (tileCount d.n)).map fun L => roundUp (p.mappedTile d L) 64)
  else (((denseStrides d.fmt d.n).getD 3 0).toNat) * nth d.n 4

/-- A descriptor placed from a base with so many bytes of data: data, then scale records, then runner (log 13). -/
def Desc.placed (d : Desc) (base size : Nat) : Desc :=
  let st := denseStrides d.fmt d.n
  let sb := base + roundUp size 64
  { d with base := base, st := st, scaleBase := sb, runnerBase := sb + roundUp (304 * tileCount d.n) 64 }

/-- The descriptor of a tensor's shape: bound, or as compiled (log 6). -/
def State.shapeOf (s : State) (t : Nat) : Option Desc :=
  match s.heat.bindings.find? (fun e => e.1 = t) with
  | some e => some (descOf e.2)
  | none => (s.heat.shapes.find? fun e => e.1 = t).map fun e => descOf e.2

/-- Capacity of a tensor's runner (R74). -/
def capOf (p : Pattern) (layer fmt : Nat) : Nat := if hasRunner fmt then (p.layerNum layer).c else 0

/-- A tensor as a site sees it, in a region of a kind (0x01 working copy, 0x02 riser, 0x03 spill), or bound. -/
def State.tensorIn (s : State) (kind t : Nat) (site : Site) : Option Tensor :=
  match s.heat.pattern, s.shapeOf t with
  | some p, some d =>
    let layer := p.layerOf t
    (match p.regionOf kind t site with
    | some r =>
      let (b, direct) := p.regionAt r
      some { idx := t, d := d.placed b (p.dataSize d), direct := direct, tiled := d.fmt == fmtB32, cap := capOf p layer d.fmt,
             layer := layer, room := some (if direct then (b, r.size) else r.span) }
    | none =>
      if kind ≠ 1 ∨ !(s.heat.bindings.any fun e => decide (e.1 = t)) then none else
      some { idx := t, d := d, direct := false, tiled := false, cap := capOf p layer d.fmt, layer := layer, room := none })
  | _, _ => none

/-- The working copy of a tensor. -/
def State.tensor (s : State) (t : Nat) (site : Site) : Option Tensor := s.tensorIn 1 t site

/-- The gradient region of a tensor as a site uses it: none on another die that holds a working copy for partial sums (R183, R220). -/
def Pattern.gradRegion (p : Pattern) (t : Nat) (site : Site) : Option Region :=
  match p.regionOf 4 t site, p.regionOf 1 t site with
  | some g, some w => if g.die ≠ w.die ∧ w.die.map dieUnit = some site.unit then none else some g
  | g, _ => g

/-- Where the pairs of a tensor lie: its gradient region, else its working copy, else a bound tensor's BASE (R183,
R437). -/
def State.pairHome (s : State) (t : Nat) (site : Site) : Option (Nat × Bool) :=
  match s.heat.pattern with
  | none => none
  | some p =>
    match p.gradRegion t site, s.tensor t site with
    | some r, _ => some (p.regionAt r)
    | none, some x => some (x.d.base, x.direct)
    | none, none => none

/-- The channel scale and zero point of an element (R61). -/
def State.chanOf (s : State) (d : Desc) (i1 : Nat) : F32 × Nat :=
  match s.heat.pattern.bind fun p => p.chanTable d.chan with
  | some t => if t.isEmpty then (one32, 0) else
    let e := nth t (i1 % t.length)
    (BitVec.ofNat 32 e.1, if isFU d.fmt then e.2 else 0)
  | none => (one32, 0)

/-- Is an element padding of the running heat (R438)? -/
def State.tokenPad (s : State) (t : Nat) (i : List Nat) : Bool :=
  match s.heat.pattern, s.heat.job with
  | some p, some j =>
    (p.tensorNum t).tokens &&
      (decide (u j.entry (16 + 4 * nth i 2) 4 % 2 ^ 17 ≤ nth i 1) ||
        decide (nth (nth p.templates j.template).cls (nth i 2) = 0xFF))
  | _, _ => false

/-! ## Reading and writing at a site -/

/-- Reads bytes at a store address or a virtual address; a fenced store gives a fenced reply (R345). -/
def State.readAt (s : State) (direct : Bool) (site : Site) (a n : Nat) (t : Stream) : VRead × State :=
  if direct then
    if s.fencedNow (s.ownerUnit a) then (⟨zeros n, false, true, true, false, []⟩, s) else
    let (r, s) := s.readMem a n
    (⟨r.bytes, r.ok, false, false, false, r.found⟩, s)
  else s.readVa site.unit site.ev a n t

/-- Writes bytes at a store address or a virtual address. -/
def State.writeAt (s : State) (direct : Bool) (site : Site) (a : Nat) (bs : List Byte) (t : Stream) : VWrite × State :=
  if direct then
    if s.fencedNow (s.ownerUnit a) then (⟨true, true, true⟩, s) else
    let (ok, s) := s.writeMem a bs
    (⟨ok, false, false⟩, s)
  else s.writeVa site.unit site.ev a bs (.leafWrite site.ev) t

/-- How a read of a tile ended (R78, R122, R261, R279). -/
inductive Fate where
  | good
  | fault
  | miss
  | memory
  | desync
  deriving DecidableEq, Repr

/-- The fate of a read. -/
def VRead.fate (r : VRead) : Fate := if r.fault then .fault else if r.miss then .miss else if r.usable then .good else .memory

/-- The worse of two fates, in the order of R78: a translation fault, an unanswered host access, memory, desync. -/
def Fate.worse (a b : Fate) : Fate :=
  if a = .fault ∨ b = .fault then .fault else if a = .miss ∨ b = .miss then .miss else
  if a = .memory ∨ b = .memory then .memory else if a = .desync ∨ b = .desync then .desync else .good

/-- What a reader holds of a tile: a checked scaled tile, or the row bytes of an unscaled one. -/
inductive TileData where
  | scaled (t : Tile)
  | plain (size : Nat) (rows : List (Nat × List Byte))
  deriving DecidableEq, Repr, Inhabited

/-- Present rows of a tile and elements in each (R66). -/
def tileShape (n : List Nat) (L : Nat) : Nat × Nat :=
  let c := tileCoord n L
  (min 128 (nth n 1 - 128 * nth c 1), min 128 (nth n 0 - 128 * nth c 0))

/-- Coordinates of the first element of row ρ of a tile. -/
def rowCoord (n : List Nat) (L row : Nat) : List Nat := elemCoord n L (4 * row) 0

/-- The formats of a MAPPED tile's blocks in the loaded pattern. -/
def State.mappedFmts (s : State) (d : Desc) (L : Nat) (blocks : List Nat) : List (Nat × Nat) :=
  match s.heat.pattern with
  | none => []
  | some p => p.mappedFmts d L blocks

/-- The linear row number of coordinates. -/
def rowIndex (n i : List Nat) : Nat := nth i 1 + nth n 1 * (nth i 2 + nth n 2 * (nth i 3 + nth n 3 * nth i 4))

/-- Linear block index of block column b of a row of a tensor (R242, R365). -/
def blockIndex (n : List Nat) (L row b : Nat) : Nat :=
  let i := elemCoord n L (4 * row + b) 0
  nth i 0 / 32 + ceilDiv (nth n 0) 32 * rowIndex n i

/-- The number that stands for the tensor of a descriptor of a copy or fill, which names none: its transfers are of kind 0x9 (R363). -/
def noTensor : Nat := 4096

/-- A transfer of a tensor's stream; of a copy or fill where there is no tensor. -/
def tensorStream (kind tensor : Nat) (parts : List (Nat × Nat)) : Stream :=
  if tensor = noTensor then byAddress 0x9 else { kind := kind, tensor := tensor, parts := parts }

/-- The stream of blocks of a scaled tile, with their lengths (R363, R365). -/
def dataStream (tensor L : Nat) (blocks : List (Nat × Nat)) : Stream :=
  tensorStream 0x1 tensor (blocks.map fun b => (512 * L + b.1, b.2))

/-- The stream of n scale records from tile L on, and of the runner of a tile. -/
def scaleStream (tensor L n : Nat) : Stream := tensorStream 0x2 tensor ((List.range n).map fun i => (L + i, 304))
def runnerStream (tensor L n : Nat) : Stream := tensorStream 0x3 tensor [(L, 4 * n)]

/-- The stream of elements of one row of an unscaled tile: `size` bytes each from a column on, cut at block bounds. -/
def rowStream (tensor : Nat) (n : List Nat) (L row col count size : Nat) : Stream :=
  tensorStream 0x1 tensor (((List.range 4).map fun b =>
    (blockIndex n L row b, size * (min (32 * (b + 1)) (col + count) - max (32 * b) col))).filter fun e => decide (0 < e.2))

/-- Does a stretch lie in a tensor's mapping (R68)? A bound tensor has its descriptor's addresses and no region. -/
def Tensor.holds (t : Tensor) (a n : Nat) : Bool :=
  match t.room with
  | some r => decide (r.1 ≤ a) && decide (a + n ≤ r.1 + r.2)
  | none => true

/-- Reads the block bytes of a tile row by row (R240), or compactly for MAPPED (R73). -/
def State.readBlocks (s : State) (t : Tensor) (site : Site) (L : Nat) (present : List Nat) (fmts : List (Nat × Nat)) (ofs : Nat) :
    List (Nat × List Byte) × Fate × State :=
  if t.d.fmt = fmtMapped then
    let sizes := present.map fun B => (B, blockBytes (look 0 fmts B))
    let a := t.d.base + 64 * ofs
    let size := sumNat (sizes.map (·.2))
    if !t.holds a size then ([], .fault, s.raise evXlate site.ev 0 (xlateData a false 0)) else
    let (r, s) := s.readAt t.direct site a size (dataStream t.idx L sizes)
    let blocks := (sizes.foldl (fun (acc : List (Nat × List Byte) × List Byte) e => (acc.1 ++ [(e.1, acc.2.take e.2)], acc.2.drop e.2)) ([], r.bytes)).1
    (blocks, r.fate, s)
  else
    let rows := (List.range 128).filter fun row => present.any fun B => decide (B / 4 = row)
    rows.foldl (fun (acc : List (Nat × List Byte) × Fate × State) row =>
      let cols := present.filter fun B => decide (B / 4 = row)
      let bb := blockBytes t.d.fmt
      let (r, s) := acc.2.2.readAt t.direct site (t.d.blockAddr (rowCoord t.d.n L row)).toNat (cols.length * bb)
        (dataStream t.idx L (cols.map fun B => (B, bb)))
      (acc.1 ++ cols.map (fun B => (B, slice r.bytes (bb * (B % 4)) bb)), acc.2.1.worse r.fate, s)) ([], .good, s)

/-- Is the next reading of a tile disturbed? -/
def State.disturbed (s : State) (t : Tensor) (L : Nat) : Bool := decide (t.d.scaleBase + 304 * L ∈ s.heat.transient)

/-- The disturbance of a tile's reading is over. -/
def State.settleTile (s : State) (t : Tensor) (L : Nat) : State :=
  { s with heat := { s.heat with transient := s.heat.transient.erase (t.d.scaleBase + 304 * L) } }

/-- Reads a scaled tile: as read, how the reads of its words ended, and whether the stream checks of steps 2 to 6 of R78
hold, which those of a disturbed reading do not. A LINK_SEND's reading and its crossing are one reading, whose checks the receiving
link end makes (R123). -/
def State.readStreams (s : State) (t : Tensor) (site : Site) (L : Nat) : Tile × Fate × Bool × State :=
  let present := presentBlocks t.d.n L
  let (rec_, s) := s.readAt t.direct site (t.d.scaleBase + 304 * L) 304 (scaleStream t.idx L 1)
  let h := TileHdr.dec rec_.bytes
  let fmts := if t.d.fmt = fmtMapped then s.mappedFmts t.d L present else []
  let (blocks, f2, s) := s.readBlocks t site L present fmts h.dataOfs
  let cnt := min h.runnerCnt t.cap
  let (run, s) := if cnt = 0 then (⟨[], true, false, false, false, []⟩, s)
    else s.readAt t.direct site (t.d.runnerBase + 4 * t.cap * L) (4 * cnt) (runnerStream t.idx L cnt)
  let entries := (List.range cnt).map fun i => u run.bytes (4 * i) 4
  let tile : Tile := { hdr := { h with fmt := t.d.fmt }, ofs := (List.range 512).map (offsetOf rec_.bytes), blocks := blocks, fmts := fmts,
                       runner := entries.map fun e => (fld e 8 0, fld e 15 11, fld e 31 16) }
  let mem := (rec_.fate.worse f2).worse run.fate
  let ok := streamsOk rec_.bytes t.d.fmt t.cap L present (blocks.map (·.2)).flatten &&
    runnerOk tile entries L (blockLanes t.d.n L) present
  (tile, mem, ok && !s.disturbed t L, s.settleTile t L)

/-- Reads a scaled tile with the checks of R78, and once more where they fail and its op has had no re-read that passed (R122); `written`
is false for a tile of an emptied region (R193). -/
def State.readScaled (s : State) (t : Tensor) (site : Site) (L : Nat) (written : Bool) : Tile × Fate × State :=
  let (tile, mem, ok, s) := s.readStreams t site L
  if mem ≠ .good then (tile, mem, s) else
  if !written then (tile, .desync, s) else
  if ok then (tile, .good, s) else
  if s.heat.refetched then (tile, .desync, s) else
  let (tile, mem, ok, s) := s.readStreams t site L
  if mem ≠ .good then (tile, mem, (s.count t.layer cDesync 1).concern t.layer evDesync L) else
  if ok then (tile, .good, s.refetch t.layer L) else (tile, .desync, s)

/-- Reads an unscaled tile: the blocks of its rows in place (R240), or in tile layout (R437). -/
def State.readPlain (s : State) (t : Tensor) (site : Site) (L : Nat) : TileData × Fate × State :=
  let rows := (tileShape t.d.n L).1
  let cols := roundUp (tileShape t.d.n L).2 32
  let size := fmtWidth t.d.fmt / 8
  let r := (List.range rows).foldl (fun (acc : List (Nat × List Byte) × Fate × State) row =>
    let a := if t.tiled then t.d.base + 65536 * L + 512 * row else (t.d.blockAddr (rowCoord t.d.n L row)).toNat
    let (r, s) := acc.2.2.readAt t.direct site a (cols * size) (rowStream t.idx t.d.n L row 0 cols size)
    (acc.1 ++ [(row, r.bytes)], acc.2.1.worse r.fate, s)) ([], .good, s)
  (.plain size r.1, r.2.1, r.2.2)

/-- Reads a tile of any tensor. -/
def State.readTile (s : State) (t : Tensor) (site : Site) (L : Nat) (written : Bool) : TileData × Fate × State :=
  if isScaled t.d.fmt then
    let (x, f, s) := s.readScaled t site L written
    (.scaled x, f, s)
  else s.readPlain t site L

/-- Reads several tiles and stops at the first that fails, with its index. -/
def State.readTiles (s : State) (t : Tensor) (site : Site) (written : Nat → Bool) :
    List Nat → List (Nat × TileData) → (List (Nat × TileData) × Option (Nat × Fate)) × State
  | [], acc => ((acc, none), s)
  | L :: ls, acc =>
    let (x, f, s) := s.readTile t site L (written L)
    if f = .good then s.readTiles t site written ls (acc ++ [(L, x)]) else ((acc, some (L, f)), s)

/-- An operand lane: its exact value without channel scale, and whether it is escaped. -/
structure Opd where
  v   : FV
  esc : Bool
  deriving DecidableEq, Repr, Inhabited

/-- +0 as a value. -/
def fvZero : FV := .fin false 0 0

/-- The operand at coordinates, from tiles already read (R63, R75, R77); `z` is its zero point. -/
def operandAt (n : List Nat) (tiles : List (Nat × TileData)) (i : List Nat) (z : Nat) : Opd :=
  if !inExtents n i then ⟨fvZero, false⟩ else
  let L := tileIndex n i
  let row := nth i 1 % 128
  let col := nth i 0 % 128
  match look default tiles L with
  | .scaled t =>
    (match t.lane (4 * row + col / 32) (col % 32) with
    | .esc r et => ⟨runnerValue r et, true⟩
    | l => ⟨l.bVal z, false⟩)
  | .plain size rows =>
    let c := u (look [] rows row) (size * col) size
    ⟨if size = 2 then fvBf c else ieee32.dec c, false⟩

/-- The value of an element as binary32, with its channel scale (R60, R62, R63, R163); padding reads as zero. -/
def State.elemAt (s : State) (t : Tensor) (tiles : List (Nat × TileData)) (i : List Nat) : F32 :=
  if s.tokenPad t.idx i then zero32 else
  let (c, z) := s.chanOf t.d (nth i 1)
  let o := operandAt t.d.n tiles i z
  if isScaled t.d.fmt then rne32 (FV.mul o.v (fv c)) else rne32 o.v

/-! ## Writing tiles -/

/-- A write that met nothing. -/
def cleanWrite : VWrite := ⟨true, false, false⟩

/-- What two writes met together. -/
def VWrite.join (a b : VWrite) : VWrite := ⟨a.usable && b.usable, a.fault || b.fault, a.fenced || b.fenced⟩

/-- Inserts a row into rows in canonical index order, behind those of the same place (R242). -/
def insRow (x : RowWrite) : List RowWrite → List RowWrite
  | [] => [x]
  | y :: ys => if x.key < y.key then x :: y :: ys else y :: insRow x ys

/-- Puts a row of tile L of a tensor among those that the op under way has still to write. -/
def State.putRow (s : State) (t : Tensor) (L row a : Nat) (bytes : List Byte) (parts : List (Nat × Nat)) : State :=
  let i := rowCoord t.d.n L row
  let w : RowWrite := { key := nth i 0 + nth t.d.n 0 * rowIndex t.d.n i, direct := t.direct, addr := a, bytes := bytes, tensor := t.idx,
                        parts := parts }
  { s with heat := { s.heat with rowBuf := insRow w s.heat.rowBuf } }

/-- Writes the rows of an op in canonical index order (R242). -/
def State.flushRows (s : State) (site : Site) : VWrite × State :=
  s.heat.rowBuf.foldl (fun (acc : VWrite × State) w =>
    let (x, s) := acc.2.writeAt w.direct site w.addr w.bytes { kind := 0x1, tensor := w.tensor, parts := w.parts }
    (acc.1.join x, s)) (cleanWrite, { s with heat := { s.heat with rowBuf := [] } })

/-- Writes the scale record and the runner of a scaled tile and puts its data rows among those of the op (R67 to R74). MAPPED data go
to DATA_OFS of the header at once: their tiles do not interleave (R73). -/
def State.putStreams (s : State) (t : Tensor) (site : Site) (L : Nat) (b : TileBytes) : VWrite × State :=
  let (w1, s) := s.writeAt t.direct site (t.d.scaleBase + 304 * L) b.scale (scaleStream t.idx L 1)
  let sizes (l : List (Nat × List Byte)) : List (Nat × Nat) := l.map fun e => (e.1, e.2.length)
  let (w2, s) := if t.d.fmt = fmtMapped then
      let a := t.d.base + 64 * (TileHdr.dec b.scale).dataOfs
      let bytes := (b.blocks.map (·.2)).flatten
      if !t.holds a bytes.length then (⟨true, true, false⟩, s.raise evXlate site.ev 0 (xlateData a true 0))
      else s.writeAt t.direct site a bytes (dataStream t.idx L (sizes b.blocks))
    else
      (cleanWrite, ((List.range 128).filter fun row => b.blocks.any fun e => decide (e.1 / 4 = row)).foldl (fun s row =>
        let here := b.blocks.filter fun e => decide (e.1 / 4 = row)
        s.putRow t L row (t.d.blockAddr (rowCoord t.d.n L row)).toNat (here.map (·.2)).flatten (dataStream t.idx L (sizes here)).parts) s)
  let (w3, s) := if b.runner.isEmpty then (cleanWrite, s)
    else s.writeAt t.direct site (t.d.runnerBase + 4 * t.cap * L) b.runner (runnerStream t.idx L (b.runner.length / 4))
  ((w1.join w2).join w3, s)

/-- Writes the streams of one scaled tile. -/
def State.writeStreams (s : State) (t : Tensor) (site : Site) (L : Nat) (b : TileBytes) : VWrite × State :=
  let (w, s) := s.putStreams t site L b
  let (x, s) := s.flushRows site
  (w.join x, s)

/-- The streams of a tile re-indexed for tile L (R248): TAG, trailer and every runner entry's TILE_LO. -/
def retile (t : Tile) (fmt L : Nat) (valid : Bool) (dataOfs : Nat) : TileBytes :=
  let data := (t.blocks.map (·.2)).flatten
  let hdr := { t.hdr with fmt := fmt, valid := valid, dataOfs := dataOfs }
  { scale := hdr.enc ++ (if isG fmt then zeros 280 else encOffsets L t.ofs) ++ encTrailer L data t.blocks.length,
    blocks := t.blocks, runner := (t.runner.map fun e => encRunner L e.2.2 e.2.1 e.1).flatten }

/-- A zero tile (R244). -/
def zeroTile (fmt L : Nat) (present : List Nat) (fmts : List (Nat × Nat)) (dataOfs : Nat) : TileBytes :=
  let width (B : Nat) : Nat := if fmt = fmtMapped then fmtWidth (look 0 fmts B) else fmtWidth fmt
  let blocks := present.map fun B => (B, zeros (4 * width B))
  let h : TileHdr := { fmt := fmt, valid := true, zeroBlk := present.length, dataOfs := dataOfs }
  { scale := h.enc ++ (if isG fmt then zeros 280 else encOffsets L (List.replicate 512 15)) ++
      encTrailer L (blocks.map (·.2)).flatten blocks.length,
    blocks := blocks, runner := [] }

/-- Address of a column of a row of an unscaled tile: in tile layout (R437), or in place (R240). -/
def Tensor.rowAddr (t : Tensor) (L row col : Nat) : Nat :=
  let size := fmtWidth t.d.fmt / 8
  if t.tiled then t.d.base + 65536 * L + 512 * row + size * col
  else (t.d.blockAddr (rowCoord t.d.n L row)).toNat + size * col

/-- Puts elements of one row of an unscaled tile, consecutive codes from a column on, among the rows of the op. -/
def State.putCodes (s : State) (t : Tensor) (L row col : Nat) (codes : List Nat) : State :=
  let size := fmtWidth t.d.fmt / 8
  s.putRow t L row (t.rowAddr L row col) (codes.map (natLe size)).flatten (rowStream t.idx t.d.n L row col codes.length size).parts

end Sys2Proof.Machine
end

