-- ==== Sys2Proof/Machine/Flags.lean ====
section
/-! DEFINITION. The numerics monitor and the status word: per-layer counts, first occurrences, causes, invalid
destinations, and the events of a heat's counts (05 R121 to R130, 08 R197, 14 R339). -/

namespace Sys2Proof.Machine

/-! ## First occurrences (R97, R121, R129) -/

/-- The lower of two first occurrences, by layer, then by the packed tile and coordinate. -/
def lowerFirst (a : Option First) (b : First) : Option First :=
  match a with
  | none => some b
  | some x => if b.layer < x.layer ∨ (b.layer = x.layer ∧ b.tile < x.tile) then some b else some x

/-- The packed field of R129: L at [52:21] and the rest below. -/
def packFirst (L low : Nat) : Nat := L % 2 ^ 32 * 2 ^ 21 + low % 2 ^ 21

/-- The 64-bit field of the heat record; all zero when none. -/
def First.enc (f : Option First) : Nat :=
  match f with
  | none => 0
  | some x => 2 ^ 63 + x.layer % 1024 * 2 ^ 53 + x.tile % 2 ^ 53

/-- Notes an invalid product of tile L and K-group g (R97). -/
def State.noteInvalid (s : State) (layer L g : Nat) : State :=
  let f : First := { layer := layer, tile := packFirst L g }
  State.concern { s with heat := { s.heat with firstInv := lowerFirst s.heat.firstInv f } } layer evInvalidProduct L

/-- Notes a non-finite conversion of block B of tile L (R121). -/
def State.noteNonfinite (s : State) (layer L B : Nat) : State :=
  let f : First := { layer := layer, tile := packFirst L (B * 2 ^ 12) }
  State.concern { s with heat := { s.heat with firstNon := lowerFirst s.heat.firstNon f } } layer evNonfinite L

/-- Notes a tile whose stream check failed twice (R122). -/
def State.noteDesync (s : State) (layer L : Nat) : State :=
  let f : First := { layer := layer, tile := packFirst L 0 }
  State.concern { s with heat := { s.heat with firstDes := lowerFirst s.heat.firstDes f } } layer evDesync L

/-! ## Invalid destinations -/

/-- Is a destination marked invalid? -/
def State.isInvalid (s : State) (x : Invalid) : Bool := decide (x ∈ s.heat.invalid)

/-- What becomes of an op that could not use what it read: its destinations are invalid and the cause is set: MEMORY for an
unusable word (R279), DESYNC for a stream check that failed on its re-read too or had none left (R122), ABANDONED for a translation fault
(R261). A read that waits for the host changes nothing yet. -/
def State.opFail (s : State) (unit : Nat) (f : Fate) (layer tile : Nat) (dests : List Invalid) : State :=
  match f with
  | .good => s
  | .miss => s
  | .fault => s.opAbandoned unit dests
  | .memory => (s.markInvalid dests).cause unit 10
  | .desync =>
    let s := (s.markInvalid dests).cause unit 9
    if s.heat.refetched then (s.count layer cDesync 1).concern layer evDesync tile
    else (s.count layer cDesync 2).noteDesync layer tile

/-! ## Events of a heat's counts (R125, R339) -/

/-- The numerics events of a layer with how often each occurred. -/
def numericsOf (x : LayerCounts) : List (Nat × Nat) :=
  [(evNonfinite, nth x.c cNonfinite), (evInvalidProduct, nth x.c cInvalid), (evOverflow, nth x.c cOvf),
   (evFlush, nth x.c cFlushTiles), (evRunnerFull, nth x.c cRunnerOvf), (evBudget, nth x.c cBudget), (evDesync, nth x.c cDesync)]

/-- DATA of a numerics event: the heat's count for the layer and the lowest tile concerned (R310). -/
def numericsData (n L : Nat) : Nat := n % 2 ^ 64 + L % 2 ^ 32 * 2 ^ 64

/-- Raises the numerics events of the counts, once per layer and code, before the word is fixed; their records are written
at the closing tick. Counts of the update units left over from the last pour raise theirs here (R125, R339). -/
def State.raiseNumerics (s : State) : State :=
  let mine := s.heat.counts.flatMap fun e => (numericsOf e.2).map fun x => (e.1, x.1, x.2, look 0 s.heat.minTile (e.1, x.1))
  let all := s.heat.late ++ mine
  let due := all.filter fun e => decide (0 < e.2.2.1)
  let s := { s with heat := { s.heat with late := [] } }
  (sortNat (due.map fun e => e.1 * 256 + e.2.1)).foldl (fun s k =>
    let hits := due.filter fun e => decide (e.1 * 256 + e.2.1 = k)
    let n := sumNat (hits.map fun e => e.2.2.1)
    let L := (hits.map fun e => e.2.2.2).foldl min (2 ^ 32)
    s.raise (k % 256) noUnit (k / 256) (numericsData n L)) s

/-- The combined status word of this module: the OR of all copies (R198). -/
def State.statusOr (s : State) : Nat := s.heat.status.foldl (fun acc e => acc ||| e.2) 0

/-- The causes that are not numerical: bits 12 to 8 and 14. -/
def otherCauses (w : Nat) : Nat := w &&& 0x5F00

end Sys2Proof.Machine
end

