-- ==== Sys2Proof/Machine/Sums.lean ====
section
/-! DEFINITION. Group sums, the canonical tree, BF16 by split products, and the bookkeeping of slot ops: sites, cores,
sequencers, loop increments and spans (04 R80 to R97, 09 R221 to R228). -/

namespace Sys2Proof.Machine

/-! ## Group sums (R82, R84, R85, R97) -/

/-- The exact sum of finite values; +0 for none (R95). -/
def exactSum (l : List FV) : FV := (l.filter fun v => !v.isZero).foldl FV.add fvZero

/-- The windowed sum of R85 over finite products: acc * 2^low, exact. -/
def windowSum (l : List FV) : FV :=
  let nz := l.filterMap fun v => match v with
    | .fin s m e => if m = 0 then none else some (s, m, e)
    | _ => none
  match nz with
  | [] => fvZero
  | p :: ps =>
    let top (x : Bool × Nat × Int) : Int := x.2.2 + bitLen x.2.1 - 1
    let h := ps.foldl (fun acc x => max acc (top x)) (top p)
    let low := h - 47
    let t (x : Bool × Nat × Int) : Nat := if low ≤ x.2.2 then x.2.1 <<< (x.2.2 - low).toNat else x.2.1 >>> (low - x.2.2).toNat
    ofDyadic (nz.foldl (fun acc x => if x.1 then acc - (t x : Int) else acc + (t x : Int)) 0) low

/-- The value of a group with special operands, tested in the order of R97, with whether it is an invalid product; none
for a group of finite operands. -/
def specialSum (l : List (Opd × Opd)) : Option (FV × Bool) :=
  let isInf (v : FV) : Bool := match v with
    | .inf _ => true
    | _ => false
  let isBad (v : FV) : Bool := !v.isFin
  if l.all fun e => !isBad e.1.v && !isBad e.2.v then none else
  if l.any fun e => (e.1.v.isZero && isInf e.2.v) || (isInf e.1.v && e.2.v.isZero) then some (.nan, true) else
  if l.any fun e => e.1.v.isNan || e.2.v.isNan then some (.nan, false) else
  let infs := (l.map fun e => FV.mul e.1.v e.2.v).filter isInf
  if infs.any FV.sgn && infs.any (fun v => !v.sgn) then some (.nan, false) else some (.inf (infs.any FV.sgn), false)

/-- One group of 32 lanes: its exact value before rounding and whether it met zero times infinity. On the F-path a group
without escaped lanes is the exact integer sum of R82; with them the block pair is one term beside the runner products
(R84). -/
def groupSum (fpath : Bool) (l : List (Opd × Opd)) : FV × Bool :=
  match specialSum l with
  | some r => r
  | none =>
    let prod (e : Opd × Opd) : FV := FV.mul e.1.v e.2.v
    if fpath then
      let esc (e : Opd × Opd) : Bool := e.1.esc || e.2.esc
      let pairs := exactSum ((l.filter fun e => !esc e).map prod)
      if l.any esc then (windowSum (pairs :: (l.filter esc).map prod), false) else (pairs, false)
    else (windowSum (l.map prod), false)

/-! ## The canonical tree (R87) -/

/-- One level of the tree: an unpaired node passes up unchanged. -/
def treeLevel {α : Type} (add : α → α → α) : List α → List α
  | a :: b :: rest => add a b :: treeLevel add rest
  | l => l

/-- The tree with enough levels. -/
def treeGo {α : Type} (add : α → α → α) : Nat → List α → List α
  | 0, l => l
  | k + 1, l => treeGo add k (treeLevel add l)

/-- The root, or a default for no value. -/
def treeRoot {α : Type} (add : α → α → α) (d : α) (l : List α) : α := ((treeGo add (clog2 l.length) l).head?).getD d

/-- Zero as a pair. -/
def pair0 : Pair := ⟨zero32, zero32⟩

/-- The add of a mode (R87, R92): in plain mode the low part stays +0. -/
def addIn (pairs : Bool) (a b : Pair) : Pair := if pairs then pairAdd a b else ⟨fadd a.hi b.hi, zero32⟩

/-- A group value entering the tree in a mode. -/
def enterIn (pairs : Bool) (v : FV) : Pair := if pairs then pairOf v else ⟨rnePlus v, zero32⟩

/-! ## BF16 by split products (R94) -/

/-- x_hi: the top 6 of the 8 significand bits; a special value is x_hi itself. -/
def splitHi (v : FV) : FV :=
  match v with
  | .fin s m e => .fin s (m / 4 * 4) e
  | w => w

/-- x_lo: the rest. -/
def splitLo (v : FV) : FV :=
  match v with
  | .fin s m e => .fin s (m % 4) e
  | _ => fvZero

/-- Applies a change to the values of a group's lanes. -/
def mapOpd (f : FV → FV) (l : List Opd) : List Opd := l.map fun o => ⟨f o.v, o.esc⟩

/-- A canonical sum over groups of lanes: the node's pair and the groups, counted from 0, with an invalid product. -/
def canonicalSum (fpath pairs : Bool) (xs ys : List (List Opd)) : Pair × List Nat :=
  let gs := (xs.zip ys).map fun e => groupSum fpath (e.1.zip e.2)
  (treeRoot (addIn pairs) pair0 (gs.map fun g => enterIn pairs g.1),
   ((List.range gs.length).zip gs).filterMap fun e => if e.2.2 then some e.1 else none)

/-- One output of a product op: one canonical sum, or the sums of a BF16 split, which the op itself adds whatever node it forms (R94;
DEDUCED, log 139). -/
def productElem (fpath pairs sx sy : Bool) (xs ys : List (List Opd)) : Pair × List Nat :=
  let hi (l : List (List Opd)) : List (List Opd) := l.map (mapOpd splitHi)
  let lo (l : List (List Opd)) : List (List Opd) := l.map (mapOpd splitLo)
  let one (a b : List (List Opd)) : Pair × List Nat := canonicalSum fpath pairs a b
  match sx, sy with
  | false, false => one xs ys
  | true, true =>
    let a := one (hi xs) (hi ys)
    let b := one (hi xs) (lo ys)
    let c := one (lo xs) (hi ys)
    (addIn pairs a.1 (addIn pairs b.1 c.1), sortNat (a.2 ++ b.2 ++ c.2))
  | true, false =>
    let a := one (hi xs) ys
    let b := one (lo xs) ys
    (addIn pairs a.1 b.1, sortNat (a.2 ++ b.2))
  | false, true =>
    let a := one xs (hi ys)
    let b := one xs (lo ys)
    (addIn pairs a.1 b.1, sortNat (a.2 ++ b.2))

/-! ## Cores, programs, sites -/

/-- A core with empty banks. -/
def core0 (c : Nat) : CoreSt := { core := c, cfg := none, banks := [], retry := [], used := 0, held := 0 }

/-- The state of a logical core. -/
def State.core (s : State) (c : Nat) : CoreSt := (s.heat.cores.find? fun x => x.core = c).getD (core0 c)

/-- Replaces the state of a logical core. -/
def State.setCore (s : State) (x : CoreSt) : State :=
  { s with heat := { s.heat with cores := (s.heat.cores.filter fun y => y.core ≠ x.core) ++ [x] } }

/-- The site of a logical core: its physical unit and its die (R231). -/
def State.siteOf (s : State) (c : Nat) : Site :=
  { core := some c, unit := dieUnit (c / 64),
    ev := coreUnit (match s.heat.pattern with
      | some p => p.physCore c
      | none => c) }

/-- A sequencer at the start of a program. -/
def seq0 (p : Prog) : Seq :=
  { prog := p, loops := [], span := 0, effect := true, spoiled := false, waits := [], dests := [], prev := .done }

/-- The sequencer of a program. -/
def State.seq (s : State) (p : Prog) : Seq := (s.heat.seqs.find? fun x => x.prog = p).getD (seq0 p)

/-- Replaces a sequencer. -/
def State.setSeq (s : State) (x : Seq) : State :=
  { s with heat := { s.heat with seqs := (s.heat.seqs.filter fun y => y.prog ≠ x.prog) ++ [x] } }

/-- An indexed field of an op: LPF adds the increments of the open loops (R222, R226). -/
def State.indexed (s : State) (p : Prog) (lpf v : Nat) : Nat :=
  ((s.seq p).loops.foldl (fun (acc : Int) l =>
    if (if l.outer then bitOf lpf 1 else bitOf lpf 0) then acc + l.iter * l.inc else acc) (v : Int)).toNat

/-- Does a core program issue ops now: in a slot from ADMIT to the end of REDUCE (R221)? -/
def State.coreIssues (s : State) (c : Nat) : Bool :=
  match s.heat.job, s.heat.pattern with
  | some j, some p =>
    (j.phase == .admitting || j.phase == .ramp || j.phase == .steady || j.phase == .flush || j.phase == .reduce)
    && decide (c < 1024) && !s.fencedReg (dieUnit (c / 64))
    && decide (c % 8 < (nth p.variants p.variant).1) && decide (c / 8 % 8 < (nth p.variants p.variant).2)
  | _, _ => false

/-- Does an update-unit program issue ops now: in the POUR phase of a committed heat (R202, R221)? -/
def State.unitIssues (s : State) : Bool :=
  match s.heat.job with
  | some j => j.phase == .pour && j.disposal == .commit
  | none => false

/-- Does a program issue ops now? -/
def State.issues (s : State) (p : Prog) : Bool :=
  match p with
  | .core c => s.coreIssues c
  | .unit u => s.unitIssues && decide (u < 24)

/-- Consumes one op of a span of RECOMPUTE_ALT; the flag tells whether the op takes effect (R228). -/
def State.spanStep (s : State) (p : Prog) : Bool × State :=
  let q := s.seq p
  if q.span = 0 then (true, s) else (q.effect, s.setSeq { q with span := q.span - 1 })

/-- Begins an op: it may read one tile again (R122), and its destinations are invalid at once after a failed TOKEN_WAIT, and kept while
the window of one is open (R227). -/
def State.noteDests (s : State) (p : Prog) (dests : List Invalid) : State :=
  let s : State := { s with heat := { s.heat with refetched := false } }
  let q := s.seq p
  let s := if q.spoiled then s.markInvalid dests else s
  if q.waits.isEmpty then s else s.setSeq { q with dests := q.dests ++ dests }

/-- The op with its indexed fields as they stand now, so that it can run later in its slot (R226). -/
def State.resolve (s : State) (i : Instr) : Instr :=
  let flat (h : OpHead) : OpHead := { h with lpf := 0 }
  let at_ (c : Nat) (h : OpHead) (v : Nat) : Nat := s.indexed (.core c) h.lpf v
  let prod (c : Nat) (h : OpHead) (a : ProductArgs) : ProductArgs := { a with p := at_ c h a.p, row0 := at_ c h a.row0 }
  let stash (c : Nat) (h : OpHead) (a : StashArgs) : StashArgs := { a with first := at_ c h a.first }
  match i with
  | .fMm c h a => .fMm c (flat h) (prod c h a)
  | .bMmIg c h a => .bMmIg c (flat h) (prod c h a)
  | .bMmWg c h a => .bMmWg c (flat h) (prod c h a)
  | .drain c h e b f n => .drain c (flat h) e b (at_ c h f) n
  | .convert c h t f n => .convert c (flat h) t (at_ c h f) n
  | .stashPut c h a => .stashPut c (flat h) (stash c h a)
  | .stashGet c h a => .stashGet c (flat h) (stash c h a)
  | .spill c h a r => .spill c (flat h) (stash c h a) r
  | .linkSend c h l t f n => .linkSend c (flat h) l t (at_ c h f) n
  | .linkReduce c h e => .linkReduce c (flat h) (at_ c h e)
  | .nodeAdd c h e => .nodeAdd c (flat h) (at_ c h e)
  | .update x h a => .update x (flat h) { a with first := s.indexed (.unit x) h.lpf a.first }
  | i => i

/-- Runs an op that reads tiles. Where a read met a HOST leaf that the host has not answered, nothing of it stands: the op
waits and the reads go to the host (R298). -/
def State.runTiles (s : State) (i : Instr) (f : State → State) : State :=
  let t := f { s with heat := { s.heat with leafMiss := [] } }
  if t.heat.leafMiss.isEmpty then t else
  t.heat.leafMiss.foldl (fun s m => if s.port.hostAcc.any (fun a => decide (a.iova = m.1) && decide (a.purpose = .leaf)) then s else s.hostRead m.1 m.2 .leaf)
    { s with heat := { s.heat with waitOps := addTo s.heat.waitOps (s.resolve i) } }

/-- The program of a slot op. -/
def opProg (i : Instr) : Option Prog :=
  match i with
  | .fMm c _ _ | .bMmIg c _ _ | .bMmWg c _ _ | .drain c _ _ _ _ _ | .convert c _ _ _ _ | .stashPut c _ _ | .stashGet c _ _
  | .spill c _ _ _ | .linkSend c _ _ _ _ _ | .linkReduce c _ _ | .nodeAdd c _ _ | .tokenSignal c _ _ _ _ => some (.core c)
  | .update x _ _ => some (.unit x)
  | _ => none

/-- Notes how an op stands after it has run from state `b`: waiting, abandoned, or complete (R227). -/
def State.noteEnd (t : State) (p : Prog) (i : Instr) (b : State) : State :=
  t.setSeq { t.seq p with
    prev := if b.resolve i ∈ t.heat.waitOps then .waiting else if b.heat.abandons < t.heat.abandons then .abandoned else .done }

/-- Issues a slot op: nothing where its program issues none; the span of RECOMPUTE_ALT may take its effect away. -/
def State.issue (s : State) (p : Prog) (i : Instr) (f : State → State) : State :=
  if !s.issues p then s else
  let (takes, s) := s.spanStep p
  (if takes then s.runTiles i f else s).noteEnd p i s

/-- Runs the ops that wait, in their order: those that `body` gives a body now, while the others go on waiting. What was the last op
of a program keeps the end that it had, unless it waited (R227, R298). -/
def State.resume (s : State) (body : Instr → Option (State → State)) : State :=
  let old (p : Prog) : OpEnd := (s.seq p).prev
  let run (s : State) (i : Instr) : State :=
    let t := match body i with
      | some f => s.runTiles i f
      | none => { s with heat := { s.heat with waitOps := addTo s.heat.waitOps i } }
    match opProg i with
    | some p => t.noteEnd p i s
    | none => t
  let t := s.heat.waitOps.foldl run { s with heat := { s.heat with waitOps := [] } }
  { t with heat := { t.heat with seqs := t.heat.seqs.map fun q => if old q.prog = .waiting then q else { q with prev := old q.prog } } }

/-! ## Tokens (R227) -/

/-- The value of a token counter of a die. -/
def State.token (s : State) (die t : Nat) : Nat := look 0 s.heat.tokens (die, t)

/-- Adds 1 to a 16-bit token counter. -/
def State.addToken (s : State) (die t : Nat) : State :=
  { s with heat := { s.heat with tokens := put s.heat.tokens (die, t) ((s.token die t + 1) % 65536) } }

/-- What an increment on its way carries: its bytes are not stated, so they are free (log 137). -/
def tokenFlit (die t : Nat) : List Byte := natLe 64 (Config.tokenFlit die t).toNat

/-- The body of TOKEN_SIGNAL: at completion of the preceding op it waits for that, and is not sent where that op was abandoned. The
own die's counter takes the increment at once; to another die it travels, unless a fenced or timeout reply meets it, which loses
it and sets ABANDONED. -/
def State.signalToken (s : State) (c : Nat) (h : OpHead) (die t : Nat) (atDone : Bool) : State :=
  let own := dieUnit (c / 64)
  let prev := if atDone then (s.seq (.core c)).prev else .done
  match prev with
  | .waiting => { s with heat := { s.heat with waitOps := addTo s.heat.waitOps (.tokenSignal c h die t atDone) } }
  | .abandoned => s
  | .done =>
    if die = c / 64 then s.addToken die t else
    if !s.answers own (s.siteOf c).ev (dieUnit die) then s.opAbandoned (s.siteOf c).ev [] else
    s.cross own (dieUnit die) 0xB 0 [((Config.tokenIndex die t).toNat, tokenFlit die t)]

end Sys2Proof.Machine
end

