-- ==== Sys2Proof/Machine/Engines.lean ====
section
/-! DEFINITION. The product ops: F_MM, B_MM_IG and B_MM_WG (07 R148 to R155, 04 R80 to R97). -/

namespace Sys2Proof.Machine

/-- The groups of a node (R87): first group and the one after its last. -/
def nodeGroups (nk l j : Nat) : Nat × Nat := (j * 2 ^ l, min ((j + 1) * 2 ^ l) (ceilDiv nk 32))

/-- Coordinates of an operand element: K along dimension 0 in a plain read, along dimension 1 in a transposed one; the
position selects i2 in a token tensor (R148, R153, R438). -/
def operandCoord (transposed : Bool) (k other pos : Nat) : List Nat := if transposed then [other, k, pos, 0, 0] else [k, other, pos, 0, 0]

/-- The position an op selects in a tensor (R438). -/
def State.posOf (s : State) (t p : Nat) : Nat :=
  match s.heat.pattern with
  | some q => if (q.tensorNum t).tokens then p else 0
  | none => 0

/-- The tiles that cover K range [k0, k1) and the other axis [o0, o1). -/
def coverTiles (n : List Nat) (transposed : Bool) (k0 k1 o0 o1 pos : Nat) : List Nat :=
  let hi (x axis : Nat) : Nat := min x (nth n axis)
  let ka := if transposed then 1 else 0
  let ks := (List.range (ceilDiv (hi k1 ka) 128)).filter fun t => decide (k0 / 128 ≤ t)
  let os := (List.range (ceilDiv (hi o1 (1 - ka)) 128)).filter fun t => decide (o0 / 128 ≤ t)
  (ks.flatMap fun a => os.map fun b => tileIndex n (operandCoord transposed (128 * a) (128 * b) pos))

/-- One operand of a product op. -/
structure Side where
  t     : Tensor
  tr    : Bool
  pos   : Nat
  tiles : List (Nat × TileData)
  deriving DecidableEq, Repr, Inhabited

/-- The lanes of groups [g0, g1) of one row or column of an operand: lanes at or beyond N_K read as zero (R81), and so do
padding elements (R438). -/
def State.lanes (s : State) (x : Side) (nk other g0 g1 : Nat) : List (List Opd) :=
  ((List.range g1).filter fun g => decide (g0 ≤ g)).map fun g => (List.range 32).map fun i =>
    let k := 32 * g + i
    let c := operandCoord x.tr k other x.pos
    if nk ≤ k ∨ s.tokenPad x.t.idx c then ⟨fvZero, false⟩ else operandAt x.t.d.n x.tiles c (s.chanOf x.t.d (nth c 1)).2

/-- The extent of an operand's axis other than K. -/
def Side.other (x : Side) : Nat := if x.tr then nth x.t.d.n 0 else nth x.t.d.n 1

/-- The banks that a product op writes: engine, first column and columns; an engine whose run is empty idles (R151, R154). -/
def bankRuns (engine0 : Bool) (mask q0 q : Nat) : List (Nat × Nat × Nat) :=
  if engine0 then [(0, q0, q)] else
  let es := (List.range 4).filter fun e => mask.testBit e
  let run := ceilDiv q (max es.length 1)
  (((List.range es.length).zip es).map fun e => (e.2 + 1, q0 + e.1 * run, min run (q - min q (e.1 * run)))).filter fun e => decide (0 < e.2.2)

/-- Files a bank result in its core. -/
def State.setBank (s : State) (c : Nat) (b : Bank) : State :=
  let x := s.core c
  s.setCore { x with banks := (x.banks.filter fun y => !(decide (y.engine = b.engine) && decide (y.bank = b.bank))) ++ [b] }

/-- A product op with its pattern's descriptor and the fields after their loops (R152, R216, R222). -/
structure ProductRun where
  c     : Nat
  q     : Product
  p     : Nat
  odx   : Nat
  bank  : Nat
  l     : Nat
  j     : Nat
  fpath : Bool
  pairs : Bool
  row0  : Nat
  rows  : Nat
  cols  : Nat
  runs  : List (Nat × Nat × Nat)
  groups : Nat × Nat
  deriving DecidableEq, Repr, Inhabited

/-- A bank that the op fills, without its values. -/
def ProductRun.blank (k : ProductRun) (r : Nat × Nat × Nat) (bad : Bool) : Bank :=
  { engine := r.1, bank := k.bank, odx := k.odx, p := k.p, l := k.l, j := k.j, pairs := k.pairs, row0 := k.row0, rows := k.rows, col0 := r.2.1,
    cols := r.2.2, bad := bad, vals := [] }

/-- The banks that the op writes, as destinations (R28). -/
def ProductRun.dests (k : ProductRun) : List Invalid := k.runs.map fun r => Invalid.bank k.c r.1 k.bank

/-- The op with the extents of its tensors: rows and columns inside them (R151, R156). -/
def State.productRun (s : State) (c : Nat) (h : OpHead) (fpath pairs : Bool) (a : ProductArgs) (q : Product) : ProductRun :=
  let prog := Prog.core c
  { c := c, q := q, p := s.indexed prog h.lpf a.p, odx := a.odx, bank := a.bank, l := a.l, j := a.j, fpath := fpath, pairs := pairs,
    row0 := 64 * s.indexed prog h.lpf a.row0, rows := 64 * a.rows, cols := q.q, runs := bankRuns fpath a.mask q.q0 q.q,
    groups := nodeGroups q.nk a.l a.j }

/-- Clips rows and columns to the operands' extents. -/
def ProductRun.clip (k : ProductRun) (xa xb : Side) : ProductRun :=
  { k with
    rows := min (k.row0 + k.rows) xa.other - min k.row0 xa.other,
    cols := min (k.q.q0 + k.q.q) xb.other - min k.q.q0 xb.other }

/-- The tiles of an operand that rows or columns [o0, o0 + n) of the op take. -/
def ProductRun.tiles (k : ProductRun) (x : Side) (o0 n : Nat) : List Nat :=
  coverTiles x.t.d.n x.tr (32 * k.groups.1) (32 * k.groups.2) o0 (o0 + n) x.pos

/-- The elements of the result with the groups of each that met zero times infinity (R97, R154). -/
def State.productElems (s : State) (k : ProductRun) (xa xb : Side) : List (Acc × List Nat) :=
  let (g0, g1) := k.groups
  let colL := (List.range k.cols).map fun i => s.lanes xb k.q.nk (k.q.q0 + i) g0 g1
  let sx := xa.t.d.fmt == fmtBf16
  let sy := xb.t.d.fmt == fmtBf16
  (List.range k.rows).flatMap fun r =>
    let lx := s.lanes xa k.q.nk (k.row0 + r) g0 g1
    ((List.range k.cols).zip colL).map fun e =>
      let v := productElem k.fpath k.pairs sx sy lx e.2
      (({ row := k.row0 + r, col := k.q.q0 + e.1, hi := v.1.hi.toNat, lo := v.1.lo.toNat, inv := !v.2.isEmpty } : Acc), v.2)

/-- Files the result in its banks, and counts its invalid groups (R97, R124, R129, R154). -/
def State.fileProduct (s : State) (k : ProductRun) (all : List (Acc × List Nat)) : State :=
  let s := k.runs.foldl (fun s r => s.setBank k.c { k.blank r false with
    vals := (all.map (·.1)).filter fun x => decide (r.2.1 ≤ x.col) && decide (x.col < r.2.1 + r.2.2) }) s
  let invs := all.flatMap fun e => e.2.map fun g => (e.1, k.groups.1 + g)
  let outN := match s.shapeOf k.q.out with
    | some d => d.n
    | none => [1, 1, 1, 1, 1]
  invs.foldl (fun s e => s.noteInvalid k.q.layer (tileIndex outN [e.1.col, e.1.row, s.posOf k.q.out k.p, 0, 0]) e.2)
    (s.count k.q.layer cInvalid invs.length)

/-- A product op one of whose operands failed: its banks hold no valid result (R28). -/
def State.failProduct (s : State) (k : ProductRun) (site : Site) (layer : Nat) (e : Nat × Fate) : State :=
  k.runs.foldl (fun s r => s.setBank k.c (k.blank r true)) (s.opFail site.ev e.2 layer e.1 k.dests)

/-- The body of a product op (R152): `fpath` selects the F-engine. A binary32 tensor is no engine operand: an op that meets one is
abandoned (R51; DESIGN CHOICE, log 140). -/
def State.product (s : State) (c : Nat) (h : OpHead) (fpath pairs : Bool) (a : ProductArgs) : State :=
  match s.heat.pattern with
  | none => s
  | some pat =>
    let site := s.siteOf c
    let q := nth pat.products a.odx
    let k := s.productRun c h fpath pairs a q
    let s := s.noteDests (.core c) k.dests
    match s.tensor q.a site, s.tensor q.b site with
    | some ta, some tb =>
      if ta.d.fmt = fmtB32 ∨ tb.d.fmt = fmtB32 then s.failProduct k site 0 (0, .fault) else
      let xa : Side := { t := ta, tr := q.at_, pos := s.posOf q.a k.p, tiles := [] }
      let xb : Side := { t := tb, tr := q.bt, pos := s.posOf q.b k.p, tiles := [] }
      let k := k.clip xa xb
      let ra := s.readTiles ta site (fun _ => true) (k.tiles xa k.row0 k.rows) []
      match ra.1.2 with
      | some e => ra.2.failProduct k site ta.layer e
      | none =>
        let rb := ra.2.readTiles tb site (fun _ => true) (k.tiles xb q.q0 k.cols) []
        match rb.1.2 with
        | some e => rb.2.failProduct k site tb.layer e
        | none => rb.2.fileProduct k (rb.2.productElems k { xa with tiles := ra.1.1 } { xb with tiles := rb.1.1 })
    | _, _ => s.failProduct k site 0 (0, .fault)

/-- F_MM: a forward product on the F-engine (R148, R156). -/
def fMmOp (c : Nat) (h : OpHead) (a : ProductArgs) (s : State) : State :=
  s.issue (.core c) (.fMm c h a) fun s => s.product c h true a.pair a

/-- B_MM_IG: a B-engine product in plain or pair mode (R152). -/
def bMmIgOp (c : Nat) (h : OpHead) (a : ProductArgs) (s : State) : State :=
  s.issue (.core c) (.bMmIg c h a) fun s => s.product c h false a.pair a

/-- B_MM_WG: a weight-gradient product, always in pair mode (R152). -/
def bMmWgOp (c : Nat) (h : OpHead) (a : ProductArgs) (s : State) : State :=
  s.issue (.core c) (.bMmWg c h a) fun s => s.product c h false true a

end Sys2Proof.Machine
end

