-- ==== Sys2Proof/Machine/Nodes.lean ====
section
/-! DEFINITION. Nodes of canonical trees in memory: tile layout, the addresses that the reduction plan gives, what is written and
what is invalid; and words that the module keeps in planned regions (07 R437, 08 R183, R193 to R196, 09 R219, R220, 05 R103, R106,
R127). -/

namespace Sys2Proof.Machine

/-! ## Tile layout and the reduction plan (R220, R437) -/

/-- Bytes of a tile of a node. -/
def nodeTile (pairs : Bool) : Nat := if pairs then 131072 else 65536

/-- The reduction plan of the running variant. -/
def State.plan (s : State) : List PlanEntry :=
  match s.heat.pattern with
  | some p => p.plans.getD p.variant []
  | none => []

/-- An entry of it. -/
def State.planEntry (s : State) (i : Nat) : Option PlanEntry := s.plan[i]?

/-- Bytes of one child or parent of an entry. -/
def PlanEntry.bytes (e : PlanEntry) : Nat := e.tiles * nodeTile e.pairs

/-- The children of an entry that lie in memory: index in their level, and address (R194, R195, R220). -/
def PlanEntry.locals (e : PlanEntry) : List (Nat × Nat) :=
  match e.side with
  | 0 => [(2 * e.j + 1, e.loc)]
  | 1 => [(2 * e.j, e.loc)]
  | _ => [(2 * e.j, e.loc), (2 * e.j + 1, e.loc + e.bytes)]

/-- Is an address of a plan entry one of the store windows, which it then names directly (DESIGN CHOICE, log 141)? -/
def storeAddr (a : Nat) : Bool := decide (coreBase ≤ a) && decide (a < clusterBase + 0x80000000)

/-- The groups of the tree over K of a tensor (R220). -/
def Pattern.treeNk (p : Pattern) (t : Nat) : Nat :=
  match p.products.find? fun q => q.out = t with
  | some q => q.nk
  | none => 0

/-- Is the parent of an entry the root of its tensor's last tree (R89, R196)? -/
def State.isRoot (s : State) (p : Pattern) (e : PlanEntry) : Bool :=
  let positions := s.plan.any fun x => decide (x.tensor = e.tensor) && decide (x.tree = 1)
  decide (e.j = 0) && (if e.tree = 1 then decide (32 ≤ 2 ^ e.level) else
    !positions && decide (ceilDiv (p.treeNk e.tensor) 32 ≤ 2 ^ e.level))

/-- From an entry up to a root: the position that the trees over K belong to, where one is named, and the first tile of the entry's
transfer. A parent is the entry that names the address as its child; the root lies in its place from `base` (R183, R437; DEDUCED,
log 142). -/
def chainsUp (plan : List PlanEntry) (base : Nat) : Nat → PlanEntry → List (Option Nat × Nat)
  | 0, _ => []
  | k + 1, e =>
    let ups := plan.flatMap fun x =>
      if x.tensor = e.tensor ∧ x.pairs = e.pairs then (x.locals.filter fun c => decide (c.2 = e.dest)).map fun c => (x, c.1) else []
    if ups.isEmpty then (if e.dest < base then [] else [(none, (e.dest - base) / nodeTile e.pairs)]) else
    ups.flatMap fun x => (chainsUp plan base k x.1).map fun r => (if x.1.tree = 1 ∧ e.tree = 0 then some x.2 else r.1, r.2)

/-- Where a drain stores a tile of a node, and whether that is the final value of a gradient's tile. -/
structure NodePlace where
  addr   : Nat
  direct : Bool
  final  : Bool
  deriving DecidableEq, Repr, Inhabited

/-- Does a child of an entry have the node that an op formed: the same groups of the tree over K, or its position's whole tree? -/
def nodeNames (nk : Nat) (e : PlanEntry) (child : Nat) (b : Bank) : Bool :=
  let own := nodeGroups nk b.l b.j
  let whole := decide (own = (0, ceilDiv nk 32))
  match e.tree with
  | 0 => !whole && decide (nodeGroups nk (e.level - 1) child = own)
  | 1 => whole && decide (e.level = 1) && decide (child = b.p)
  | _ => false

/-- The address that the reduction plan gives tile L of the node that a bank holds (R183, R437; DEDUCED, log 142). -/
def State.planAddr (s : State) (t base nk L : Nat) (pairs : Bool) (b : Bank) : Option Nat :=
  let mine := s.plan.filter fun e => decide (e.tensor = t) && decide (e.pairs = pairs)
  mine.findSome? fun e => (e.locals.filter fun c => nodeNames nk e c.1 b).findSome? fun c =>
    ((chainsUp mine base 64 e).find? fun r =>
      (e.tree == 1 || r.1.isNone || r.1 == some b.p) && decide (r.2 ≤ L) && decide (L < r.2 + e.tiles)).map fun r =>
        c.2 + nodeTile pairs * (L - r.2)

/-- Where a drain stores tile L: at the place of the node in the reduction plan, else in the tensor's own place (R183, R437). A
CONVERT holds no node. -/
def State.nodePlace (s : State) (p : Pattern) (t : Nat) (home : Nat × Bool) (nk L : Nat) (pairs : Bool) (b : Option Bank) : NodePlace :=
  match b with
  | none => ⟨home.1 + nodeTile pairs * L, home.2, false⟩
  | some b =>
    match s.planAddr t home.1 nk L pairs b with
    | some a => ⟨a, home.2 || storeAddr a, false⟩
    | none =>
      let whole := decide (nodeGroups nk b.l b.j = (0, ceilDiv nk 32))
      let positions := s.plan.any fun e => decide (e.tensor = t) && decide (e.tree = 1)
      ⟨home.1 + nodeTile pairs * L, home.2, pairs && whole && !positions && p.regions.any fun r => decide (r.kind = 4) && decide (r.tensor = t)⟩

/-! ## What is written, invalid, or fed by an invalid product -/

/-- Do marks name a stretch of memory? -/
def marksNode (l : List Invalid) (a n : Nat) : Bool :=
  l.any fun x => match x with
    | .node b m => overlaps a n b m
    | _ => false

/-- Notes results stored in a stretch: written in this attempt, and fed by an invalid product or not (R97, R193). -/
def State.noteStored (s : State) (a n : Nat) (inv : Bool) : State :=
  let rest := s.heat.invProd.filter fun x => !decide (x = .node a n)
  { s with heat := { s.heat with nodes := addTo s.heat.nodes (a, n), invProd := if inv then rest ++ [.node a n] else rest } }

/-- Is every tile of a stretch good to read: outside the riser and gradient regions, or written in this attempt (R193)? -/
def State.nodeWritten (s : State) (a size tiles : Nat) : Bool :=
  let emptied (x : Nat) : Bool := match s.heat.pattern with
    | some p => p.regions.any fun r => (decide (r.kind = 2) || decide (r.kind = 4)) && overlaps x size (p.regionAt r).1 r.size
    | none => false
  (List.range tiles).all fun i =>
    let x := a + size * i
    !emptied x || s.heat.nodes.any fun w => decide (w.1 ≤ x) && decide (x + size ≤ w.1 + w.2)

/-- Marks a tile of a gradient final (R196). -/
def State.markFinal (s : State) (t L : Nat) : State := { s with heat := { s.heat with written := addTo s.heat.written (8192 + t, L) } }

/-! ## Words in planned regions (R103, R106, R127; log 133) -/

/-- The device physical address behind a virtual address of a plan region. -/
def State.frameAt (s : State) (va : Nat) : Option Nat :=
  (s.mem.frames.find? fun f => f.1 = va / 65536).map fun f => 65536 * f.2 + va % 65536

/-- Stores bytes at an offset of a plan region, where they fit. -/
def State.storePlan (s : State) (p : Pattern) (r : Region) (off : Nat) (bytes : List Byte) : State :=
  if r.size < off + bytes.length then s else
  let a := (p.regionAt r).1 + off
  match if (p.regionAt r).2 then some a else s.frameAt a with
  | some x => (s.writeMem x bytes).2
  | none => s

/-- Stores the entry of a tracking index: EST, then OBS (R106). -/
def State.storeTracker (s : State) (key : Nat × Nat) : State :=
  match s.heat.pattern with
  | none => s
  | some p =>
    match p.regions.find? fun r => decide (r.kind = 5) && decide (r.tensor = key.1) with
    | none => s
    | some r =>
      let est := (look 0 s.heat.est key % 2 ^ 16 + 2 ^ 16).toNat % 2 ^ 16
      s.storePlan p r (4 * key.2) (natLe 4 (est + look 0 s.heat.obs key * 2 ^ 16))

/-- Stores the entries of every tracking index. -/
def State.storeTrackers (s : State) : State := ((s.heat.est.map (·.1)).foldl State.storeTracker s)

/-- Stores the cumulative totals of a layer: 17 counters of 64 bits each (R127). -/
def State.storeTotals (s : State) (layer : Nat) : State :=
  match s.heat.pattern with
  | none => s
  | some p =>
    match p.regions.find? fun r => decide (r.kind = 9) with
    | none => s
    | some r => s.storePlan p r (136 * layer) (((countsOf s.heat.totals layer).c.map (natLe 8)).flatten)

end Sys2Proof.Machine
end

