-- ==== Sys2Proof/Machine/Drain.lean ====
section
/-! DEFINITION. The drain: DRAIN_CFG, DRAIN, CONVERT and TILE_RECOMPUTE, stage by stage (07 R159 to R175, 05 R102 to
R121, 06 R140 to R145). -/

namespace Sys2Proof.Machine

/-! ## Function tables (R169 to R171) -/

/-- A binary32 of a table. -/
def f32At (b : List Byte) (off : Nat) : F32 := BitVec.ofNat 32 (u b off 4)

/-- Base of segment i. -/
def segBase (tab : List Byte) (i : Nat) : F32 := f32At tab (32 + 20 * i)

/-- Coefficient j of segment i. -/
def segCoef (tab : List Byte) (i j : Nat) : F32 := f32At tab (36 + 20 * i + 4 * j)

/-- f_eval: the value and the derivative code (R170). -/
def fEval (tab : List Byte) (z : F32) : F32 × Nat :=
  match fv z with
  | .nan => (nan32, u tab 14 1)
  | .inf s => if s then (f32At tab 8, u tab 13 1) else (f32At tab 4, u tab 12 1)
  | .fin _ _ _ =>
    let i := (((List.range (u tab 0 1 + 1)).filter fun k => FV.le (fv (segBase tab k)) (fv z)).getLast?).getD 0
    let t := fsub z (segBase tab i)
    let deg := u tab 1 1 % 4
    ((List.range deg).reverse.foldl (fun p j => fadd (fmul p t) (segCoef tab i j)) (segCoef tab i deg), i)

/-! ## Vectors and row preparation (R161, R172, R173) -/

/-- An element of a row vector, or the value it reads as where the configuration names none. -/
def Pattern.vecAt (p : Pattern) (idx k : Nat) (dflt : F32) : F32 :=
  if idx = 0xFFFFFFFF then dflt else BitVec.ofNat 32 (nth p.vecs (idx + k))

/-- The root of a row's groups in pair mode, for S1 and S2; none where a group is missing (R172). -/
def rowSums (gs : List RowGroup) (count : Nat) : Option (Pair × Pair) :=
  let at_ (g : Nat) : Option RowGroup := gs.find? fun x => x.g = g
  let all := (List.range count).filterMap at_
  if all.length ≠ count then none else
  let p (hi lo : Nat) : Pair := ⟨BitVec.ofNat 32 hi, BitVec.ofNat 32 lo⟩
  some (treeRoot pairAdd pair0 (all.map fun g => p g.s1hi g.s1lo), treeRoot pairAdd pair0 (all.map fun g => p g.s2hi g.s2lo))

/-- What row preparation yields for a row: r, q and h where the mode sets them, and the s and m1 of NORM_FWD, which the riser keeps
(R173, R174). -/
structure Prep where
  r  : Option F32
  q  : Option F32
  h  : Option F32
  s  : Option F32
  m1 : F32
  deriving DecidableEq, Repr, Inhabited

/-- No row preparation. -/
def prep0 : Prep := ⟨none, none, none, none, zero32⟩

/-- Row preparation (R173): modes 1 NORM_FWD, 2 NORM_BWD, 3 SOFTMAX, 4 SM_BWD. -/
def rowPrep (mode n : Nat) (eps : F32) (sums : Pair × Pair) (stored : F32) : Prep :=
  let s1 := fadd sums.1.hi sums.1.lo
  let s2 := fadd sums.2.hi sums.2.lo
  let m1 := fdiv s1 (natTo32 n)
  let m2 := fdiv s2 (natTo32 n)
  match mode with
  | 1 =>
    let s := fdiv one32 (fsqrt (fadd (fmax (fsub m2 (fmul m1 m1)) zero32) eps))
    ⟨some s, some (fneg (fmul m1 s)), none, some s, m1⟩
  | 2 => { prep0 with r := some stored, q := some (fneg (fmul stored m1)), h := some (fneg (fmul stored m2)) }
  | 3 => { prep0 with r := some (fdiv one32 s1) }
  | 4 => { prep0 with q := some (fneg s2) }
  | _ => prep0

/-- Fields of MODES (R217). -/
def DrainCfg.pair (c : DrainCfg) : Bool := bitOf c.modes 0
def DrainCfg.sr (c : DrainCfg) : Bool := bitOf c.modes 1
def DrainCfg.resKind (c : DrainCfg) : Nat := fld c.modes 3 2
def DrainCfg.cross (c : DrainCfg) : Bool := bitOf c.modes 4
def DrainCfg.prep (c : DrainCfg) : Nat := fld c.modes 7 5
/-- Is a stage on? -/
def DrainCfg.on (c : DrainCfg) (i : Nat) : Bool := bitOf c.stages i
/-- A backward drain: stage 6 multiplies by the derivative of its stored code (R159, R166). -/
def DrainCfg.backward (c : DrainCfg) : Bool := c.on 6 && decide (c.func = 0xFFFF)

/-- What an op's elements are made from: its configuration, output, destinations, the rows of its row preparation, the tensors of
stage 5 already read, and the codes of a backward pass. -/
structure DrainCtx where
  cfg   : DrainCfg
  out   : Tensor
  n     : List Nat
  mask  : Nat → Nat → Bool
  rowIn : Nat
  rowN  : List Nat
  dests : List Invalid
  /-- Where a tile of a result in tile layout goes (R183, R437). -/
  place : Nat → NodePlace
  /-- The key tensor and its extents, where the drain forms the row offset of a soft-maximum (R175). -/
  keys  : Option (Nat × List Nat)
  res   : Option (Tensor × List (Nat × TileData))
  res2  : Option (Tensor × List (Nat × TileData))
  codes : List Byte

/-- One element on its way: its value, derivative code, and whether the root was non-finite. -/
structure Elem where
  x    : F32
  code : Nat
  bad  : Bool
  inv  : Bool
  deriving DecidableEq, Repr, Inhabited

/-! ### The rows of a normalisation in the riser (R173, R174, R190; log 74) -/

/-- The tensor that holds the x-hat of a normalisation: under NORM_FWD the one that RES names while neither stage 5 nor CROSS takes it, under NORM_BWD
the a of stage 5. -/
def DrainCfg.xhat (c : DrainCfg) : Option Nat :=
  if c.res = 0xFFFF ∨ (c.prep = 1 ∧ (c.on 5 ∨ (c.on 9 ∧ c.cross))) then none else some c.res

/-- Where the s of a row lies: behind the streams of x-hat in its riser region, where that holds it. -/
def State.scaleHome (s : State) (site : Site) (t row : Nat) : Option (Nat × Bool) :=
  match s.heat.pattern.bind (fun p => (p.regionOf 2 t site).map fun r => ((p.regionAt r).1 + r.size)), s.tensorIn 2 t site with
  | some last, some x =>
    let a := roundUp (x.d.runnerBase + 4 * x.cap * tileCount x.d.n) 64 + 4 * row
    if a + 4 ≤ last then some (a, x.direct) else none
  | _, _ => none

/-- Reads the stored s of a row: one not written in this attempt fails as a stream check does (R193). -/
def State.readScale (s : State) (site : Site) (t row : Nat) : F32 × Fate × State :=
  if (16384 + t, row) ∉ s.heat.written then (zero32, .desync, s) else
  match s.scaleHome site t row with
  | some (a, d) =>
    let (r, s) := s.readAt d site a 4 (byAddress 0x1)
    (BitVec.ofNat 32 (u r.bytes 0 4), r.fate, s)
  | none => (BitVec.ofNat 32 (look 0 s.heat.rowScale (t, row)), .good, s)

/-- Stores the s of a row. -/
def State.writeScale (s : State) (site : Site) (t row : Nat) (v : F32) : VWrite × State :=
  let s : State := { s with heat := { s.heat with written := addTo s.heat.written (16384 + t, row) } }
  match s.scaleHome site t row with
  | some (a, d) => s.writeAt d site a (natLe 4 v.toNat) (byAddress 0x1)
  | none => (cleanWrite, { s with heat := { s.heat with rowScale := put s.heat.rowScale (t, row) v.toNat } })

/-- S1 and S2 of a row of a tensor, where every group of it has its sums. -/
def State.rowSumsOf (s : State) (t : Nat) (n i : List Nat) : Option (Pair × Pair) :=
  rowSums (look [] s.heat.rowRecs (t, rowIndex n i)) (ceilDiv (nth n 0) 32)

/-- Does the attempt hold row records of a tensor? -/
def State.hasRows (s : State) (t : Nat) : Bool := s.heat.rowRecs.any fun e => decide (e.1.1 = t)

/-- The row offset q = -o of a score row: o is alpha times the square roots of S2 of the query row and of the largest S2 of the position's key
rows (R175); none where a record is missing. -/
def State.scoreOffset (s : State) (k : DrainCtx) (keys : Nat × List Nat) (i : List Nat) : Option F32 :=
  let s2 (x : Pair × Pair) : F32 := fadd x.2.hi x.2.lo
  let rows := (List.range (nth keys.2 1)).map fun r => s.rowSumsOf keys.1 keys.2 [0, r, nth i 2, nth i 3, nth i 4]
  if rows.any (·.isNone) then none else
  let most := (rows.filterMap id).foldl (fun acc x => fmax acc (s2 x)) zero32
  (s.rowSumsOf k.rowIn k.rowN i).map fun x => fneg (fmul (fmul (BitVec.ofNat 32 k.cfg.alpha) (fsqrt (s2 x))) (fsqrt most))

/-- The row preparation that applies to an element's row. A record that is missing fails as a stream check does (DESIGN CHOICE, log
146). -/
def State.prepFor (s : State) (k : DrainCtx) (site : Site) (i : List Nat) : Prep × Fate × State :=
  if k.cfg.prep = 0 then
    (match k.keys with
    | none => (prep0, .good, s)
    | some x =>
      if !s.hasRows k.rowIn || !s.hasRows x.1 then (prep0, .good, s) else
      match s.scoreOffset k x i with
      | none => (prep0, .desync, s)
      | some q => ({ prep0 with q := some q }, .good, s))
  else
  let row := rowIndex k.rowN i
  match s.rowSumsOf k.rowIn k.rowN i with
  | none => (prep0, .desync, s)
  | some sums =>
    let (v, f, s) := if k.cfg.prep = 2 then s.readScale site k.cfg.res row else (zero32, .good, s)
    (rowPrep k.cfg.prep (nth k.rowN 0) (BitVec.ofNat 32 k.cfg.eps) sums v, f, s)

/-- Is a row selected by sampling (R189)? -/
def State.sampled (s : State) (k : DrainCtx) (i : List Nat) : Bool :=
  k.cfg.sample && !s.tokenPad k.rowIn i &&
    decide (sandOf (BitVec.ofNat 64 (nth s.heat.seeds 3)) 4 k.cfg.sandId s.heat.heatNum k.n (0 :: i.drop 1) 24 < k.cfg.sampleS)

/-- Stages 2 to 6 on one element (R159 to R164). A vector that row preparation makes stands in place of one that VEC names (DESIGN
CHOICE, log 147). An element of a selected row reads as +0 at stage 1, which then counts nothing (R160, R189). -/
def State.stages (s : State) (p : Pattern) (k : DrainCtx) (pr : Prep) (i : List Nat) (root : F32) (inv : Bool) : Elem :=
  let c := k.cfg
  let row := nth i 1
  let col := nth i 0
  let vec (j at_ : Nat) (d : F32) : F32 := p.vecAt (nth c.vec j) at_ d
  let sel := s.sampled k i
  let v := if sel then zero32 else root
  let bad := !isFin32 v
  let v := if c.on 2 then fmul (fmul (fmul v (pr.r.getD (vec 0 row one32))) (vec 1 col one32)) (BitVec.ofNat 32 c.alpha) else v
  let v := if c.on 3 then fadd (fadd v (fmul (pr.q.getD (vec 2 row zero32)) (vec 3 col one32))) (vec 4 col zero32) else v
  let drop := c.on 4 && decide (sandOf (BitVec.ofNat 64 (nth s.heat.seeds 1)) 2 c.sandId s.heat.heatNum k.n i 16 < c.dropP)
  let v := if c.on 4 then (if drop then zero32 else fmul v (BitVec.ofNat 32 c.kd)) else v
  let v := if sel then fadd v (p.vecAt c.maskVec col zero32) else v
  let val (t : Option (Tensor × List (Nat × TileData))) : F32 := match t with
    | some x => s.elemAt x.1 x.2 i
    | none => zero32
  let a := val k.res
  let v := if c.on 5 then
      (match c.resKind with
      | 0 => fadd v a
      | 1 => fadd (fadd v a) (val k.res2)
      | 2 => if drop then zero32 else fmul v a
      | _ => fadd v (fmul (pr.h.getD (vec 5 row zero32)) a))
    else v
  let v := if c.on 6 && k.mask row col then (0xFF800000 : F32) else v
  if c.on 6 then
    if c.func ≠ 0xFFFF then
      let e := fEval (p.funcs.getD c.func []) v
      ⟨e.1, e.2, bad, inv⟩
    else
      let code := ((slice k.codes ((row % 128) * 128 + col % 128) 1).headD 0).toNat
      ⟨fmul v (f32At (p.derivs.getD c.deriv []) (4 * code)), code, bad, inv⟩
  else ⟨v, 0, bad, inv⟩

/-! ## Conversion of a tile (R105 to R121, R165) -/

/-- The tracking index of a tile (R105). -/
def tauOf (mode : Nat) (n : List Nat) (L : Nat) : Nat :=
  match mode with
  | 0 => 0
  | 1 => nth (tileCoord n L) 0 + (tilesOf n).1 * nth (tileCoord n L) 1
  | _ => L

/-- The rounding of an element of an output (R100, R142). -/
def State.rndOf (s : State) (p : Pattern) (c : DrainCfg) (n i : List Nat) : Rnd :=
  if !c.sr then .rne else
  let b := (p.tensorNum c.out).srBits
  .sr b (sandOf (BitVec.ofNat 64 (nth s.heat.seeds 0)) 1 c.sandId s.heat.heatNum n i b)

/-- The blocks of a tile before conversion, from its quotients. -/
def State.blkIns (s : State) (p : Pattern) (c : DrainCfg) (t : Tensor) (L : Nat) (vals : List (Nat × List FV)) : List BlkIn :=
  vals.map fun e =>
    let coord (lane : Nat) : List Nat := elemCoord t.d.n L e.1 lane
    { b := e.1, fmt := t.d.fmt, z := (s.chanOf t.d (nth (coord 0) 1)).2, vals := e.2,
      rnds := (List.range e.2.length).map fun k => s.rndOf p c t.d.n (coord k) }

/-- Converts the blocks of a tile at an exponent. -/
def convertAs (p : Pattern) (t : Tensor) (eT : Nat) (coarse : Bool) (ins : List BlkIn) : TileOut :=
  if isG t.d.fmt then convTileG t.d.fmt eT ins else
  convTile eT (p.layerNum t.layer).ratio t.cap coarse ins

/-- The predicted exponent of a tile (R108). -/
def State.predicted (s : State) (p : Pattern) (t : Tensor) (L : Nat) : Nat :=
  let num := p.tensorNum t.idx
  clampET (predictExp (look 0 s.heat.est (t.idx, tauOf num.trackMode t.d.n L)) num.head t.d.fmt)

/-- Raises OBS of a tile's tracking index (R107). -/
def State.observe (s : State) (p : Pattern) (t : Tensor) (L mx : Nat) : State :=
  let key := (t.idx, tauOf (p.tensorNum t.idx).trackMode t.d.n L)
  State.storeTracker { s with heat := { s.heat with obs := put s.heat.obs key (max (look 0 s.heat.obs key) mx) } } key

/-- Adds the counts of a final tile (R130). -/
def State.finalCounts (s : State) (layer : Nat) (o : TileOut) : State :=
  s.countBy layer fun x =>
    ((((((x.add cFlushBlk o.flushes).add cZeroBlk o.zeros).add cCrush o.crushed).add cRunnerEnt o.runner).add cClip o.clips)).peak o.runner

/-- The tile that conversion leaves, as a reader sees it. -/
def tileFrom (t : Tensor) (o : TileOut) : Tile :=
  { hdr := { et := o.et, fmt := t.d.fmt, valid := true },
    ofs := (List.range 512).map fun B => match o.blocks.find? (fun b => b.b = B) with
      | some b => b.eb
      | none => 15,
    blocks := o.blocks.map fun b => (b.b, packBlock (fmtWidth b.fmt) b.codes),
    runner := o.blocks.filterMap fun b => b.esc.map fun e => (b.b, e.1, e.2) }

/-- Files the sums of one group of a row, in place of an earlier attempt's. -/
def putGroup (l : List RowGroup) (g : RowGroup) : List RowGroup := (l.filter fun x => x.g ≠ g.g) ++ [g]

/-- Stage 9 over a tile: S1 and S2 of each group of each of its rows (R172); `w` is the second factor under CROSS. A group that meets
zero times infinity is an invalid product (R97). -/
def State.rowStats (s : State) (k : DrainCtx) (L : Nat) (tile : TileData) : State :=
  if !k.cfg.on 9 then s else
  let (rows, cols) := tileShape k.n L
  let cells := (List.range rows).flatMap fun r => (List.range (ceilDiv cols 32)).map fun b => (r, b)
  cells.foldl (fun s e =>
    let coord (lane : Nat) : List Nat := elemCoord k.n L (4 * e.1 + e.2) lane
    let z := (s.chanOf k.out.d (nth (coord 0) 1)).2
    let zero : Opd := ⟨fvZero, false⟩
    let vals := (List.range 32).map fun lane => if s.tokenPad k.out.idx (coord lane) then zero else operandAt k.n [(L, tile)] (coord lane) z
    let ws := if k.cfg.cross then (List.range 32).map fun lane => match k.res with
        | some x => if s.tokenPad x.1.idx (coord lane) then zero else operandAt x.1.d.n x.2 (coord lane) (s.chanOf x.1.d (nth (coord lane) 1)).2
        | none => zero
      else vals
    let ones := vals.map fun _ => (⟨.fin false 1 0, false⟩ : Opd)
    let p1 := enterIn true (groupSum false (vals.zip ones)).1
    let g2 := groupSum false (vals.zip ws)
    let p2 := enterIn true g2.1
    let s := if g2.2 then (s.count k.out.layer cInvalid 1).noteInvalid k.out.layer L (nth (coord 0) 0 / 32) else s
    let key := (k.out.idx, rowIndex k.n (coord 0))
    let g : RowGroup := { g := nth (coord 0) 0 / 32, s1hi := p1.hi.toNat, s1lo := p1.lo.toNat, s2hi := p2.hi.toNat, s2lo := p2.lo.toNat }
    { s with heat := { s.heat with rowRecs := put s.heat.rowRecs key (putGroup (look [] s.heat.rowRecs key) g) } }) s

/-- How an op stands after a write: a translation fault or a fenced reply abandons it, and a word that could not be merged fails it
(R261, R279). -/
def State.wroteOp (s : State) (unit layer L : Nat) (dests : List Invalid) (w : VWrite) : Bool × State :=
  if w.fault then (false, s.opAbandoned unit dests) else
  if w.usable then (true, s) else (false, s.opFail unit .memory layer L dests)

/-- Runs an op over its tiles in order; the first that fails ends it, as an abandoned op (R28, R122). -/
def eachTile (f : Nat → State → Bool × State) : List Nat → State → State
  | [], s => s
  | L :: ls, s => if (f L s).1 then eachTile f ls (f L s).2 else (f L s).2

/-- Writes what an op still holds of its tiles. -/
def State.endWrites (s : State) (site : Site) (layer L : Nat) (dests : List Invalid) : State :=
  ((s.flushRows site).2.wroteOp site.ev layer L dests (s.flushRows site).1).2

/-- Puts out the streams of a converted tile and its row sums (R166, R172). -/
def State.emitTile (s : State) (k : DrainCtx) (site : Site) (L mx : Nat) (o : TileOut) (slag coarse clipped nonfin inv : Bool) : Bool × State :=
  let hdr : TileHdr := { valid := true, slag := slag, coarse := coarse, clipped := clipped, nonfinite := nonfin, invalid := inv, tileMax := mx }
  let (w, s) := s.putStreams k.out site L (tileStreams k.out.d.fmt L hdr o)
  let (ok, s) := s.wroteOp site.ev k.out.layer L k.dests w
  (ok, if ok then s.rowStats k L (.scaled (tileFrom k.out o)) else s)

/-- Counts non-finite elements of a tile: the count, the cause and the first occurrence (R121, R160). -/
def State.nonfinite (s : State) (unit layer L : Nat) (blocks : List Nat) (n : Nat) : State :=
  if n = 0 then s else
  let s := (s.count layer cNonfinite n).cause unit 0
  match blocks with
  | [] => s
  | b :: bs => s.noteNonfinite layer L (bs.foldl min b)

/-- Does a lane count as a non-finite element of a tile whose retry exponent exceeds 128? R121 names none: those do that saturate at
e_t = 128, extracted or not, and where TILE_MAX exceeds the bound by its rounding alone, those of the largest magnitude (DESIGN
CHOICE, log 148). -/
def hugeLane (f : Nat) (vals : List (Nat × List FV)) (y : FV) : Bool :=
  let all := vals.flatMap (·.2)
  if all.any fun v => saturates f v 128 then saturates f y 128 else !(all.any fun v => magLt y v)

/-- Puts the values of a tile into the core's planned retry buffer, tile after tile in tile layout, while there is room (R103; the layout
is the model's, log 133). -/
def State.keepTile (s : State) (p : Pattern) (c : Nat) (site : Site) (els : List (Nat × List F32)) : State :=
  match p.regions.find? fun r => decide (r.kind = 6) && decide (r.place = 0x40) && decide (r.unit = c) with
  | none => s
  | some r =>
    let off := 65536 * (s.core c).held
    if r.size < off + 65536 then s else
    let s := s.setCore { s.core c with held := (s.core c).held + 1 }
    els.foldl (fun s e => (s.writeAt true site ((p.regionAt r).1 + off + 128 * e.1) (e.2.map fun x => natLe 4 x.toNat).flatten
      (byAddress 0x1)).2) s

/-- The first attempt at a scaled tile (R108 to R116, R121). A tile over capacity under RECOMPUTE_COARSE that R121 bars from recompute
stays as CLIP leaves it, CLIPPED set (DESIGN CHOICE, log 149). -/
def State.firstAttempt (s : State) (p : Pattern) (k : DrainCtx) (c : Nat) (site : Site) (kind L cfgIdx : Nat) (els : List (Nat × List Elem)) :
    Bool × State :=
  let t := k.out
  let num := p.tensorNum t.idx
  let lay := p.layerNum t.layer
  let s := s.keepTile p c site (els.map fun e => (e.1, e.2.map (·.x)))
  let quot (B lane : Nat) (x : F32) : FV := fv (fdiv x (s.chanOf t.d (nth (elemCoord t.d.n L B lane) 1)).1)
  let vals := els.map fun e => (e.1, ((List.range e.2.length).zip e.2).map fun z => quot e.1 z.1 z.2.x)
  let ins := s.blkIns p k.cfg t L vals
  let mx := tileMaxOf ins
  let s := s.observe p t L mx
  let nonfin := maxNonfinite mx
  let huge := !nonfin && decide (128 < retryExp [t.d.fmt] mx)
  let o := convertAs p t (if huge then 255 else s.predicted p t L) false ins
  let present := vals.length
  let excess := decide (0 < o.beyond) && decide (1 ≤ t.cap)
  let flush := hasRunner t.d.fmt && decide (num.flushNum * present < 64 * o.flushes)
  let marked := !nonfin && !huge && (o.overflow || flush || (excess && lay.policy == 0))
  let inv := els.any fun e => e.2.any fun x => x.inv
  let odd := (vals.zip els).map fun e => (e.1.1, ((e.1.2.zip e.2.2).filter fun x =>
    !x.1.isFin || x.2.bad || (huge && hugeLane t.d.fmt vals x.1)).length)
  let s := s.countBy t.layer fun x =>
    ((x.add cOvf (if o.overflow then 1 else 0)).add cFlushTiles (if flush then 1 else 0)).add cRunnerOvf (if excess then 1 else 0)
  let s := if o.overflow then s.concern t.layer evOverflow L else s
  let s := if flush then s.concern t.layer evFlush L else s
  let s := if excess then s.concern t.layer evRunnerFull L else s
  let s := if excess && lay.policy == 2 then s.cause site.ev 1 else s
  let s := s.nonfinite site.ev t.layer L ((odd.filter fun e => decide (0 < e.2)).map (·.1)) (sumNat (odd.map (·.2)))
  let (ok, s) := s.emitTile k site L mx o false false excess (nonfin || huge) inv
  if !ok then (false, s) else
  if marked then
    let x := s.core c
    let r : Retry := { cfg := cfgIdx, kind := kind, tensor := t.idx, tile := L, layer := t.layer, coarse := excess && lay.policy == 0,
                       inv := inv, vals := vals }
    (true, s.setCore { x with retry := x.retry ++ [r] })
  else (true, s.finalCounts t.layer o)

/-- Cuts the held elements of a row into stretches of consecutive columns. -/
def runsOf {α : Type} : List (Nat × α) → List (Nat × List α)
  | [] => []
  | x :: xs => match runsOf xs with
    | y :: ys => if y.1 = x.1 + 1 then (x.1, x.2 :: y.2) :: ys else (x.1, [x.2]) :: y :: ys
    | [] => [(x.1, [x.2])]

/-- The held elements of row r of a tile, by column. -/
def rowHeld {α : Type} (els : List (List Nat × α)) (r : Nat) : List (Nat × α) :=
  els.filterMap fun e => if nth e.1 1 % 128 = r then some (nth e.1 0 % 128, e.2) else none

/-- Writes a tile of a node in tile layout (R437): the elements held, `size` bytes each, and +0 beyond the extents. -/
def State.writeNode (s : State) (direct : Bool) (site : Site) (t : Nat) (n : List Nat) (L a size : Nat)
    (els : List (List Nat × List Byte)) : VWrite × State :=
  let (rows, cols) := tileShape n L
  (List.range 128).foldl (fun acc r =>
    let put (acc : VWrite × State) (x : Nat × List (List Byte)) (st : Stream) : VWrite × State :=
      let (w, s) := acc.2.writeAt direct site (a + 128 * size * r + size * x.1) x.2.flatten st
      (acc.1.join w, s)
    let full := roundUp cols 32
    let runs := (runsOf (rowHeld els r)).map fun x =>
      if x.1 + x.2.length = cols then (x.1, x.2 ++ List.replicate (full - cols) (zeros size)) else x
    let acc := runs.foldl (fun acc x => put acc x (rowStream t n L r x.1 x.2.length size)) acc
    let past := if rows ≤ r then 0 else if runs.any fun x => decide (x.1 + x.2.length = full) then full else cols
    if past = 128 then acc else put acc (past, List.replicate (128 - past) (zeros size)) (byAddress 0x1)) (cleanWrite, s)

/-- Puts the held elements of an unscaled tile that is not in tile layout among the rows of the op, and code 0 into the padding lanes
of a row's last block (R65, R240). -/
def State.putPlain (s : State) (t : Tensor) (L : Nat) (els : List (List Nat × Nat)) : State :=
  let (rows, cols) := tileShape t.d.n L
  (List.range rows).foldl (fun s r => (runsOf (rowHeld els r)).foldl (fun s x =>
    let pad := if x.1 + x.2.length = cols then roundUp cols 32 - cols else 0
    s.putCodes t L r x.1 (x.2 ++ List.replicate pad 0)) s) s

/-- Is a stored result fed by an invalid product (R97)? -/
def State.fedInvalid (s : State) (t : Tensor) (L : Nat) : Bool :=
  if t.tiled then marksNode s.heat.invProd (t.d.base + 65536 * L) 65536 else decide (Invalid.tile t.idx L ∈ s.heat.invProd)

/-- Notes whether a stored tile outside tile layout is fed by an invalid product (R97). -/
def State.noteFed (s : State) (t L : Nat) (inv : Bool) : State :=
  let rest := s.heat.invProd.filter fun x => !decide (x = .tile t L)
  { s with heat := { s.heat with invProd := if inv then rest ++ [.tile t L] else rest } }

/-- Writes a tile of BF16 or binary32 (R104, R165, R437): held elements only. -/
def State.emitPlain (s : State) (p : Pattern) (k : DrainCtx) (site : Site) (L : Nat) (els : List (List Nat × Elem)) : Bool × State :=
  let t := k.out
  let size := fmtWidth t.d.fmt / 8
  let codes := els.map fun e =>
    (e.1, if t.d.fmt = fmtBf16 then encIeee ieeeBf16 (s.rndOf p k.cfg t.d.n e.1) (fv e.2.x) else ieee32.enc (fv e.2.x))
  let (rows, cols) := tileShape t.d.n L
  let part := decide (els.length < rows * cols)
  let inv := els.any fun e => e.2.inv
  let (w, s) := if t.tiled then
      let at_ := k.place L
      let old := part && marksNode s.heat.invProd at_.addr 65536
      let r := s.writeNode at_.direct site t.idx t.d.n L at_.addr size (codes.map fun e => (e.1, natLe size e.2))
      (r.1, r.2.noteStored at_.addr 65536 (inv || old))
    else (cleanWrite, (s.putPlain t L codes).noteFed t.idx L (inv || (part && s.fedInvalid t L)))
  let (ok, s) := s.wroteOp site.ev t.layer L k.dests w
  let bad := els.filter fun e => e.2.bad || !isFin32 e.2.x
  let s := s.nonfinite site.ev t.layer L (bad.map fun e => 4 * (nth e.1 1 % 128) + nth e.1 0 % 128 / 32) bad.length
  let rowBytes := (List.range rows).map fun r => (r, ((List.range cols).map fun c =>
    natLe size (look 0 (rowHeld codes r) c)).flatten)
  (ok, if ok then s.rowStats k L (.plain size rowBytes) else s)

/-- Bytes of the derivative-code record of a tile: codes by row and column, and its trailer (R166). -/
def codeRecord (n : List Nat) (L : Nat) (els : List (List Nat × Elem)) : List Byte :=
  let at_ := (els.map fun e => ((nth e.1 1 % 128) * 128 + nth e.1 0 % 128, e.2.code))
  let bytes := at_.foldl (fun (acc : List Byte) e => patch acc e.1 [BitVec.ofNat 8 e.2]) (zeros 16384)
  bytes ++ encTrailer L bytes (presentBlocks n L).length

/-- Where a tile's code record lies (R166). -/
def State.codeHome (s : State) (site : Site) (tensor L : Nat) : Option (Nat × Bool) :=
  match s.heat.pattern with
  | none => none
  | some p => ((p.regionOf 2 tensor site) <|> (p.regionOf 1 tensor site)).map fun r =>
      let (b, d) := p.regionAt r
      (b + 16392 * L, d)

/-- The stream of the code record of a tile: 512-byte parts, the trailer with the last (R363, R365; DESIGN CHOICE, log 150). -/
def codeStream (tensor L : Nat) : Stream :=
  { kind := 0x4, tensor := tensor, parts := (List.range 32).map fun i => (32 * L + i, if i = 31 then 520 else 512) }

/-- Reads and checks a code record (R164, R166). -/
def State.readCodes (s : State) (site : Site) (n : List Nat) (tensor L : Nat) : List Byte × Fate × State :=
  match s.codeHome site tensor L with
  | none => ([], .fault, s)
  | some (a, d) =>
    let (r, s) := s.readAt d site a 16392 (codeStream tensor L)
    let bytes := r.bytes.take 16384
    let tr := u r.bytes 16384 8
    let ok := decide ((4096 + tensor, L) ∈ s.heat.written) && decide (fld tr 31 0 = (crc32c (bytes ++ natLe 4 L)).toNat)
      && decide (fld tr 41 32 = (presentBlocks n L).length) && decide (fld tr 43 42 = L % 4)
    (bytes, if r.fate = .good then (if ok then .good else .desync) else r.fate, s)

/-- Elements of a tile inside the extents, in block order. -/
def tileElems (n : List Nat) (L : Nat) : List (Nat × List (List Nat)) :=
  (presentBlocks n L).map fun B => (B, (List.range (blockLanes n L B)).map fun k => elemCoord n L B k)

/-- The stage-5 tensor of an op: its working copy, else its riser copy. -/
def State.resTensor (s : State) (idx : Nat) (site : Site) : Option (Tensor × Bool) :=
  match s.tensor idx site with
  | some t => some (t, false)
  | none => (s.tensorIn 2 idx site).map fun t => (t, true)

/-- Reads the stage-5 tensor tile of an op, if the stage or CROSS needs it; RES2 that names none reads as +0 (R176). -/
def State.readRes (s : State) (need : Bool) (idx : Nat) (site : Site) (L : Nat) : Option (Tensor × List (Nat × TileData)) × Fate × State :=
  if !need || decide (idx = 0xFFFF) then (none, .good, s) else
  match s.resTensor idx site with
  | none => (none, .fault, s)
  | some (t, riser) =>
    let (d, f, s) := s.readTile t site L (!riser || decide ((idx, L) ∈ s.heat.written))
    (some (t, [(L, d)]), f, s)

/-- Reads what a drained tile needs beside its banks: the stage-5 tensors and the codes of a backward pass; with the worst fate and the
layer of the tensor that met it (R159, R163, R166). -/
def State.drainReads (s : State) (p : Pattern) (k : DrainCtx) (site : Site) (L : Nat) : DrainCtx × Fate × Nat × State :=
  let cfg := k.cfg
  let r1 := s.readRes (cfg.on 5 || (cfg.on 9 && cfg.cross)) cfg.res site L
  let r2 := r1.2.2.readRes (cfg.on 5 && cfg.resKind == 1) cfg.res2 site L
  let r3 := if cfg.backward then r2.2.2.readCodes site k.n cfg.codes L else ([], .good, r2.2.2)
  let f := (r1.2.1.worse r2.2.1).worse r3.2.1
  let layer := p.layerOf (if r1.2.1 = f then cfg.res else if r2.2.1 = f then cfg.res2 else cfg.codes)
  ({ k with res := r1.1, res2 := r2.1, codes := r3.1 }, f, layer, r3.2.2)

/-- The prepared values of the rows that a tile touches (R173, R174). -/
def State.tilePreps (s : State) (k : DrainCtx) (site : Site) (L : Nat) : List (Nat × Prep) × Fate × State :=
  if k.cfg.prep = 0 ∧ k.keys = none then ([], .good, s) else
  (((tileElems k.n L).map fun e => nth e.2 0).filter fun i => decide (nth i 0 % 128 = 0)).foldl (fun acc i =>
    let (pr, f, s) := acc.2.2.prepFor k site i
    (acc.1 ++ [(rowIndex k.n i, pr)], acc.2.1.worse f, s)) ([], .good, s)

/-- Keeps the s of each row with its x-hat in the riser (R173, R174). -/
def State.keepScales (s : State) (k : DrainCtx) (site : Site) (preps : List (Nat × Prep)) : VWrite × State :=
  preps.foldl (fun acc e => match e.2.s with
    | some v =>
      let (w, s) := acc.2.writeScale site (k.cfg.xhat.getD k.cfg.out) e.1 v
      (acc.1.join w, s)
    | none => acc) (cleanWrite, s)

/-- Writes the code record of a forward tile (R164, R166). -/
def State.writeCodes (s : State) (k : DrainCtx) (site : Site) (L : Nat) (flat : List (List Nat × Elem)) : Bool × State :=
  let cfg := k.cfg
  match s.codeHome site cfg.codes L with
  | none => (true, s)
  | some (a, d) =>
    let r := s.writeAt d site a (codeRecord k.n L flat) (codeStream cfg.codes L)
    State.wroteOp { r.2 with heat := { r.2.heat with written := addTo r.2.heat.written (4096 + cfg.codes, L) } } site.ev k.out.layer L
      k.dests r.1

/-- The configuration under which a normalisation's x-hat is converted into its riser copy (R174): to nearest even, since a SAND_ID under
stochastic rounding names one output tensor (R133; DESIGN CHOICE, log 74). -/
def DrainCfg.forXhat (c : DrainCfg) : DrainCfg :=
  { c with out := c.res, stages := c.stages % 512, modes := c.modes - (if c.sr then 2 else 0) }

/-- NORM_FWD stashes x-hat = (x - m1) * s (R174): a conversion of its own (log 74). -/
def State.stashXhat (s : State) (p : Pattern) (k : DrainCtx) (c : Nat) (site : Site) (cfgIdx L : Nat) (x : List Nat → Option (F32 × Bool × Prep)) :
    Bool × State :=
  match k.cfg.prep, k.cfg.xhat.bind fun t => s.tensorIn 2 t site with
  | 1, some out =>
    let k : DrainCtx := { k with cfg := k.cfg.forXhat, out := out }
    let elem (i : List Nat) : Option Elem := (x i).bind fun r => r.2.2.s.map fun sc =>
      ⟨fmul (fsub (if s.sampled k i then zero32 else r.1) r.2.2.m1) sc, 0, false, r.2.1⟩
    let coords := tileElems k.n L
    let s : State := { s with heat := { s.heat with written := addTo s.heat.written (out.idx, L) } }
    if isScaled out.d.fmt then
      s.firstAttempt p k c site 2 L cfgIdx (coords.map fun e => (e.1, e.2.map fun i => (elem i).getD ⟨zero32, 0, false, false⟩))
    else s.emitPlain p { k with place := fun L => ⟨out.d.base + 65536 * L, out.direct, false⟩ } site L
      ((coords.flatMap (·.2)).filterMap fun i => (elem i).map fun e => (i, e))
  | _, _ => (true, s)

/-- Drains one tile (R159): `root` gives the root value of an element and whether a group of it was an invalid product;
none for an element that the op does not hold. The flag tells whether the op goes on. -/
def State.drainTile (s : State) (p : Pattern) (k : DrainCtx) (c : Nat) (site : Site) (cfgIdx L : Nat)
    (root : List Nat → Option (F32 × Bool)) : Bool × State :=
  let (k, f, layer, s) := s.drainReads p k site L
  if f ≠ .good then (false, s.opFail site.ev f layer L k.dests) else
  let (preps, f, s) := s.tilePreps k site L
  if f ≠ .good then (false, s.opFail site.ev f k.out.layer L k.dests) else
  let prepOf (i : List Nat) : Prep := look prep0 preps (rowIndex k.n i)
  let (w, s) := s.keepScales k site preps
  let (ok, s) := s.wroteOp site.ev k.out.layer L k.dests w
  if !ok then (false, s) else
  let coords := tileElems k.n L
  let elem (i : List Nat) : Option Elem := (root i).map fun r => s.stages p k (prepOf i) i r.1 r.2
  let zero : Elem := ⟨zero32, 0, false, false⟩
  let flat := (coords.flatMap (·.2)).filterMap fun i => (elem i).map fun e => (i, e)
  let (ok, s) := if isScaled k.out.d.fmt then
      s.firstAttempt p k c site 1 L cfgIdx (coords.map fun e => (e.1, e.2.map fun i => (elem i).getD zero))
    else s.emitPlain p k site L flat
  if !ok then (false, s) else
  let (ok, s) := s.stashXhat p k c site cfgIdx L fun i => (root i).map fun r => (r.1, r.2, prepOf i)
  if !ok then (false, s) else
  if k.cfg.on 6 && !k.cfg.backward && decide (k.cfg.codes ≠ 0xFFFF) then s.writeCodes k site L flat else (true, s)

/-- A pair-mode drain of one tile (R93, R167, R437): r is that of row preparation where the configuration names one. -/
def State.drainPairs (s : State) (p : Pattern) (k : DrainCtx) (site : Site) (layer L : Nat) (root : List Nat → Option Acc) : Bool × State :=
  let (preps, f, s) := s.tilePreps k site L
  if f ≠ .good then (false, s.opFail site.ev f layer L k.dests) else
  let cfg := k.cfg
  let vec (j at_ : Nat) : F32 := p.vecAt (nth cfg.vec j) at_ one32
  let scale (i : List Nat) (x : Nat) : F32 :=
    let v : F32 := BitVec.ofNat 32 x
    if cfg.on 2 then
      fmul (fmul (fmul v ((look prep0 preps (rowIndex k.n i)).r.getD (vec 0 (nth i 1)))) (vec 1 (nth i 0))) (BitVec.ofNat 32 cfg.alpha)
    else v
  let els := ((tileElems k.n L).flatMap (·.2)).filterMap fun i => (root i).map fun a => (i, scale i a.hi, scale i a.lo, a)
  let at_ := k.place L
  let (rows, cols) := tileShape k.n L
  let old := decide (els.length < rows * cols) && marksNode s.heat.invProd at_.addr 131072
  let (w, s) := s.writeNode at_.direct site cfg.out k.n L at_.addr 8 (els.map fun e => (e.1, natLe 4 e.2.1.toNat ++ natLe 4 e.2.2.1.toNat))
  let s := s.noteStored at_.addr 131072 ((els.any fun e => e.2.2.2.inv) || old)
  let bad := els.filter fun e => !isFin32 (BitVec.ofNat 32 e.2.2.2.hi) || !isFin32 e.2.1
  let s := s.nonfinite site.ev layer L (bad.map fun e => 4 * (nth e.1 1 % 128) + nth e.1 0 % 128 / 32) bad.length
  (if at_.final then s.markFinal cfg.out L else s).wroteOp site.ev layer L k.dests w

/-- Where a DRAIN or CONVERT puts the tiles of an output in tile layout, and the bytes of one there; none for another output (R437). -/
def State.drainPlace (s : State) (p : Pattern) (cfg : DrainCfg) (site : Site) (b : Option Bank) : Option (Nat × (Nat → NodePlace)) :=
  let nk := match b with
    | some x => (nth p.products x.odx).nk
    | none => 0
  if cfg.pair then (s.pairHome cfg.out site).map fun h => (131072, fun L => s.nodePlace p cfg.out h nk L true b) else
  match s.tensor cfg.out site with
  | some x => if x.tiled then some (65536, fun L => s.nodePlace p cfg.out (x.d.base, x.direct) nk L false b) else none
  | none => none

/-- The destinations of a DRAIN or CONVERT (R28): its output tiles, and where they lie in tile layout. -/
def State.drainDests (s : State) (p : Pattern) (cfg : DrainCfg) (site : Site) (b : Option Bank) (first tiles : Nat) : List Invalid :=
  tileDests cfg.out first tiles ++ (match s.drainPlace p cfg site b with
    | some (n, f) => (List.range tiles).map fun i => Invalid.node (f (first + i)).addr n
    | none => [])

/-- The context of a drain or CONVERT op on an output. -/
def drainCtx (cfg : DrainCfg) (out : Tensor) (mask : Nat → Nat → Bool) (rowIn : Nat) (rowN : List Nat) (dests : List Invalid)
    (place : Option (Nat × (Nat → NodePlace))) : DrainCtx :=
  { cfg := cfg, out := out, n := out.d.n, mask := mask, rowIn := rowIn, rowN := rowN, dests := dests,
    place := match place with
      | some x => x.2
      | none => fun _ => ⟨0, false, false⟩,
    keys := none, res := none, res2 := none, codes := [] }

/-- The tokens of a position in the running heat (R186). -/
def State.lenOf (s : State) (pos : Nat) : Nat :=
  match s.heat.job with
  | some j => u j.entry (16 + 4 * pos) 4 % 2 ^ 17
  | none => 0

/-- The tensor that a drain writes, where pairs go to a gradient region without a working copy: shape and layer alone. -/
def State.drainOut (s : State) (p : Pattern) (cfg : DrainCfg) (site : Site) : Option Tensor :=
  match s.tensor cfg.out site, s.shapeOf cfg.out with
  | some t, _ => some t
  | none, some d => if cfg.pair && (s.pairHome cfg.out site).isSome then
      some { idx := cfg.out, d := d, direct := false, tiled := true, cap := 0, layer := p.layerOf cfg.out, room := none }
    else none
  | none, none => none

/-- The bank of a core that an engine and a number name. -/
def CoreSt.bankOf (x : CoreSt) (engine bank : Nat) : Option Bank :=
  x.banks.find? fun b => decide (b.engine = engine) && decide (b.bank = bank)

/-- The body of DRAIN: empties a bank through the stages (R159). Key columns at padding tokens enter the exponential table
as -infinity (R188). Row preparation takes the row records of the product's streamed operand (DESIGN CHOICE, log 151).
A score drain whose stage 3 names no vector takes the row offset of R175 for q, where the attempt holds the rows of both tensors (DESIGN
CHOICE, log 160). -/
def State.drain (s : State) (c : Nat) (h : OpHead) (engine bank first tiles : Nat) : State :=
  match s.heat.pattern, (s.core c).cfg with
  | some p, some ci =>
    let cfg := nth p.drains ci
    let site := s.siteOf c
    let first := s.indexed (.core c) h.lpf first
    let x := s.core c
    let held := x.bankOf engine bank
    let dests := s.drainDests p cfg site held first tiles
    let s := s.noteDests (.core c) dests
    (match held with
    | none => s.opAbandoned site.ev dests
    | some b =>
      let s := s.setCore { x with banks := x.banks.filter fun y => !(decide (y.engine = engine) && decide (y.bank = bank)) }
      if b.bad then s.markInvalid dests else
      let q := nth p.products b.odx
      let pos := s.posOf cfg.out b.p
      let at_ (i : List Nat) : Option Acc :=
        if nth i 2 = pos then b.vals.find? fun v => decide (v.row = nth i 1) && decide (v.col = nth i 0) else none
      let keys := (p.tensorNum q.b).tokens && !q.bt
      let len := s.lenOf b.p
      let mask (_ col : Nat) : Bool := keys && decide (cfg.func ≠ 0xFFFF) && decide (len ≤ col)
      (match s.drainOut p cfg site with
      | none => s.opAbandoned site.ev dests
      | some out =>
        let rowN := match s.shapeOf q.a with
          | some y => y.n
          | none => out.d.n
        let bare := keys && cfg.on 3 && decide (cfg.func ≠ 0xFFFF) && ([2, 3, 4].all fun j => decide (nth cfg.vec j = 0xFFFFFFFF))
        let k := { drainCtx cfg out mask q.a rowN dests (s.drainPlace p cfg site held) with
          keys := if bare then (s.shapeOf q.b).map fun d => (q.b, d.n) else none }
        let tile (L : Nat) (s : State) : Bool × State :=
          if cfg.pair then s.drainPairs p k site out.layer L at_
          else s.drainTile p k c site ci L fun e => (at_ e).map fun a => ((BitVec.ofNat 32 a.hi : F32), a.inv)
        (eachTile tile ((List.range tiles).map (first + ·)) s).endWrites site out.layer first dests))
  | _, _ => s

/-- The body of CONVERT: each input tile through the stages into the tile of the same index (R159). Row preparation takes the row
records of the input tensor (DESIGN CHOICE, log 151). -/
def State.convertOp (s : State) (c : Nat) (h : OpHead) (tensor first tiles : Nat) : State :=
  match s.heat.pattern, (s.core c).cfg with
  | some p, some ci =>
    let cfg := nth p.drains ci
    let site := s.siteOf c
    let first := s.indexed (.core c) h.lpf first
    let dests := s.drainDests p cfg site none first tiles
    let s := s.noteDests (.core c) dests
    (match s.tensor tensor site, s.tensor cfg.out site with
    | some src, some out =>
      let k := drainCtx cfg out (fun _ _ => false) tensor src.d.n dests (s.drainPlace p cfg site none)
      let tile (L : Nat) (s : State) : Bool × State :=
        let (d, f, s) := s.readTile src site L true
        let inv := !isScaled src.d.fmt && s.fedInvalid src L
        if f = .good then s.drainTile p k c site ci L fun e => some (s.elemAt src [(L, d)] e, inv)
        else (false, s.opFail site.ev f src.layer L dests)
      (eachTile tile ((List.range tiles).map (first + ·)) s).endWrites site out.layer first dests
    | _, _ => s.opAbandoned site.ev dests)
  | _, _ => s

/-! ## Recompute in the reserve (R118 to R120) -/

/-- The context for a tile of the retry buffer. -/
def State.retryCtx (s : State) (c : Nat) (r : Retry) : Option (Pattern × DrainCtx) :=
  match s.heat.pattern, s.tensorIn r.kind r.tensor (s.siteOf c) with
  | some p, some out =>
    let cfg := nth p.drains r.cfg
    some (p, drainCtx (if r.kind = 2 then cfg.forXhat else cfg) out (fun _ _ => false) r.tensor out.d.n [.tile r.tensor r.tile] none)
  | _, _ => none

/-- Reconverts a tile with the retry exponent and writes all its streams again, with SLAG (R118, R119). -/
def State.recomputeTile (s : State) (c : Nat) (r : Retry) : State :=
  match s.retryCtx c r with
  | none => s
  | some (p, k) =>
    let site := s.siteOf c
    let (res, f, s) := s.readRes (k.cfg.on 9 && k.cfg.cross) k.cfg.res site r.tile
    if f ≠ .good then s.opFail site.ev f (p.layerOf k.cfg.res) r.tile k.dests else
    let k := { k with res := res }
    let ins := s.blkIns p k.cfg k.out r.tile r.vals
    let mx := tileMaxOf ins
    let o := convertAs p k.out (clampET (retryExp [k.out.d.fmt] mx)) r.coarse ins
    let s := s.observe p k.out r.tile mx
    let (ok, s) := s.emitTile k site r.tile mx o true r.coarse (decide (0 < o.beyond) && decide (1 ≤ k.out.cap)) false r.inv
    let s := if ok then s.endWrites site r.layer r.tile k.dests else s
    (s.count r.layer cSlag 1).finalCounts r.layer o

/-- Recomputes the next marked tile of a core while its budget lasts (R120). -/
def State.recomputeNext (s : State) (c : Nat) : State :=
  let x := s.core c
  match x.retry, s.heat.pattern with
  | r :: rest, some p => if x.used < p.recompMax then (s.setCore { x with retry := rest, used := x.used + 1 }).recomputeTile c r else s
  | _, _ => s

/-- A marked tile that missed the budget stays as its first attempt wrote it and is counted (R120). -/
def State.budgetMiss (s : State) (c : Nat) (r : Retry) : State :=
  match s.retryCtx c r with
  | none => s
  | some (p, k) =>
    let ins := s.blkIns p k.cfg k.out r.tile r.vals
    let o := convertAs p k.out (s.predicted p k.out r.tile) false ins
    let isInf (code : Nat) : Bool := decide (code % 2 ^ (fmtWidth k.out.d.fmt - 1) = (if k.out.d.fmt = 0x31 then 0x7C else 0x7E0))
    let infs := if isG k.out.d.fmt then o.blocks.map fun b => (b.b, (b.codes.filter isInf).length) else []
    let s := s.nonfinite (s.siteOf c).ev r.layer r.tile ((infs.filter fun e => decide (0 < e.2)).map (·.1)) (sumNat (infs.map (·.2)))
    ((s.count r.layer cBudget 1).concern r.layer evBudget r.tile).finalCounts r.layer o

/-- The end of a slot for a core: what its budget still covers is recomputed, the rest is missed (R120). -/
def State.closeCore (s : State) (c : Nat) : State :=
  let s := (s.core c).retry.foldl (fun s _ => s.recomputeNext c) s
  let left := (s.core c).retry
  let s := left.foldl (fun s r => s.budgetMiss c r) s
  s.setCore { s.core c with retry := [], used := 0, held := 0 }

/-! ## The ops -/

/-- DRAIN_CFG: sets the configuration of later DRAIN and CONVERT ops of the core (R223). -/
def drainCfgOp (c : Nat) (h : OpHead) (cfg : Nat) (s : State) : State :=
  s.issue (.core c) (.drainCfg c h cfg) fun s => s.setCore { s.core c with cfg := some cfg }

/-- DRAIN. -/
def drainOp (c : Nat) (h : OpHead) (engine bank first tiles : Nat) (s : State) : State :=
  s.issue (.core c) (.drain c h engine bank first tiles) fun s => s.drain c h engine bank first tiles

/-- CONVERT. -/
def convertTilesOp (c : Nat) (h : OpHead) (tensor first tiles : Nat) (s : State) : State :=
  s.issue (.core c) (.convert c h tensor first tiles) fun s => s.convertOp c h tensor first tiles

/-- TILE_RECOMPUTE: one marked tile of the core in the reserve (R118). -/
def tileRecomputeOp (c : Nat) (s : State) : State := if s.coreIssues c then s.recomputeNext c else s

end Sys2Proof.Machine
end

