-- ==== Sys2Proof/Machine/Riser.lean ====
section
/-! DEFINITION. Pattern ladle and link ops: STASH_PUT, STASH_GET, SPILL, LINK_SEND, LINK_REDUCE and NODE_ADD (08 R190,
R193 to R195, 07 R437, 14 R349, R362 to R365). -/

namespace Sys2Proof.Machine

/-! ## Moving tiles -/

/-- Elements of the row bytes of an unscaled tile, as the tile's place in tile layout takes them. -/
def rowElems (n : List Nat) (L size : Nat) (rows : List (Nat × List Byte)) : List (List Nat × List Byte) :=
  let (h, w) := tileShape n L
  rows.flatMap fun r => if r.1 < h then (List.range w).map fun c => ([c, r.1], slice r.2 (size * c) size) else []

/-- The blocks of the rows of an unscaled tile (R365). -/
def rowBlocks (t : Nat) (n : List Nat) (L size : Nat) (rows : List (Nat × List Byte)) : List (Nat × List Byte) :=
  rows.flatMap fun r => splitParts (rowStream t n L r.1 0 (r.2.length / size) size).parts r.2

/-- Writes a tile as it was read, past the snooper of the ladle that moves it: rows in their places stay with those that the op has
still to write. `inv` says that an invalid product feeds an unscaled tile. -/
def State.putTile (s : State) (t : Tensor) (site : Site) (snoop L : Nat) (d : TileData) (inv : Bool) : VWrite × State :=
  match d with
  | .scaled x =>
    let b := retile x t.d.fmt L true x.hdr.dataOfs
    let s := s.snoop snoop 0x2 t.idx [(L, b.scale)]
    let s := if t.d.fmt = fmtMapped then s.snoop snoop 0x1 t.idx (b.blocks.map fun e => (512 * L + e.1, e.2)) else s
    let s := if b.runner.isEmpty then s else s.snoop snoop 0x3 t.idx [(L, b.runner)]
    s.putStreams t site L b
  | .plain size rows =>
    if t.tiled then
      let a := t.d.base + 65536 * L
      let r := (s.snoop snoop 0x1 t.idx (rowBlocks t.idx t.d.n L size rows)).writeNode t.direct site t.idx t.d.n L a size
        (rowElems t.d.n L size rows)
      (r.1, r.2.noteStored a 65536 inv)
    else
      (cleanWrite, (rows.foldl (fun s r =>
        s.putRow t L r.1 (t.rowAddr L r.1 0) r.2 (rowStream t.idx t.d.n L r.1 0 (r.2.length / size) size).parts) s).noteFed t.idx L inv)

/-- Writes the rows that an op of a ladle still holds, past the ladle's snooper (R362). -/
def State.endMove (s : State) (site : Site) (snoop layer L : Nat) (dests : List Invalid) : State :=
  (s.heat.rowBuf.foldl (fun s w => s.snoop snoop 0x1 w.tensor (splitParts w.parts w.bytes)) s).endWrites site layer L dests

/-- The key under which a tile of a riser (0x02) or spill (0x03) region counts as written in this attempt (R193). -/
def regionKey (kind t : Nat) : Nat := if kind = 3 then 12288 + t else t

/-- Moves tiles of a tensor from its region of one kind to that of another on a ladle (R190, R191). -/
def State.moveTiles (s : State) (c : Nat) (h : OpHead) (a : StashArgs) (src dst : Nat) : State :=
  let prog := Prog.core c
  let lad := 2 * (c / 64) + a.ladle
  let site := { s.siteOf c with ev := ladleUnit lad }
  let first := s.indexed prog h.lpf a.first
  let dests := tileDests a.tensor first a.tiles
  let s := s.noteDests prog dests
  if s.fencedNow (ladleUnit lad) then s.opAbandoned site.ev dests else
  match s.tensorIn src a.tensor site, s.tensorIn dst a.tensor site with
  | some x, some y =>
    let tile (L : Nat) (s : State) : Bool × State :=
      let here := src = 1 || decide ((regionKey src a.tensor, L) ∈ s.heat.written)
      let (d, f, s) := s.readTile x site L here
      let f := if f = .good ∧ here = false then Fate.desync else f
      if f ≠ .good then (false, s.opFail site.ev f x.layer L dests) else
      let (w, s) := s.putTile y site lad L d (!isScaled x.d.fmt && s.fedInvalid x L)
      let s := if dst = 1 then s else { s with heat := { s.heat with written := addTo s.heat.written (regionKey dst a.tensor, L) } }
      s.wroteOp site.ev x.layer L dests w
    (eachTile tile ((List.range a.tiles).map (first + ·)) s).endMove site lad y.layer first dests
  | _, _ => s.opAbandoned site.ev dests

/-- STASH_PUT: working copy to riser. -/
def stashPutOp (c : Nat) (h : OpHead) (a : StashArgs) (s : State) : State :=
  s.issue (.core c) (.stashPut c h a) fun s => s.moveTiles c h a 1 2

/-- STASH_GET: riser to working copy. -/
def stashGetOp (c : Nat) (h : OpHead) (a : StashArgs) (s : State) : State :=
  s.issue (.core c) (.stashGet c h a) fun s => s.moveTiles c h a 2 1

/-- SPILL: working copy to the planned spill region, or back (R191, R253). -/
def spillOp (c : Nat) (h : OpHead) (a : StashArgs) (read : Bool) (s : State) : State :=
  s.issue (.core c) (.spill c h a read) fun s => if read then s.moveTiles c h a 3 1 else s.moveTiles c h a 1 3

/-! ## Nodes in tile layout (R437) -/

/-- The values of a node's bytes. -/
def nodeVals (pairs : Bool) (bs : List Byte) : List Pair :=
  if pairs then (chunksOf 8 (bs.length / 8) bs).map fun b => ⟨f32At b 0, f32At b 4⟩
  else (chunksOf 4 (bs.length / 4) bs).map fun b => ⟨f32At b 0, zero32⟩

/-- The bytes of one element of a node. -/
def elemBytes (pairs : Bool) (v : Pair) : List Byte := if pairs then natLe 4 v.hi.toNat ++ natLe 4 v.lo.toNat else natLe 4 v.hi.toNat

/-- Bytes of one element of a node. -/
def elemSize (pairs : Bool) : Nat := if pairs then 8 else 4

/-- The extents of a node's tensor: its shape, or whole tiles where it has none. -/
def State.nodeShape (s : State) (t last : Nat) : List Nat :=
  match s.shapeOf t with
  | some d => d.n
  | none => [128, 128 * (last + 1), 1, 1, 1]

/-- The first tile of a plan entry's transfer (R437; log 142). -/
def State.firstTile (s : State) (e : PlanEntry) (site : Site) : Nat :=
  let base := match s.pairHome e.tensor site with
    | some h => h.1
    | none => e.dest
  let mine := s.plan.filter fun x => decide (x.tensor = e.tensor) && decide (x.pairs = e.pairs)
  match (chainsUp mine base 64 e).head? with
  | some r => r.2
  | none => 0

/-- Reads a tile of a node: its whole blocks, and zeros where it has none. -/
def State.readNode (s : State) (site : Site) (pairs : Bool) (t : Nat) (n : List Nat) (L a : Nat) (direct : Bool) : List Byte × Fate × State :=
  let (rows, cols) := tileShape n L
  let size := elemSize pairs
  let w := roundUp cols 32
  let r := (List.range rows).foldl (fun (acc : List Byte × Fate × State) r =>
    let (x, s) := acc.2.2.readAt direct site (a + 128 * size * r) (size * w) (rowStream t n L r 0 w size)
    (acc.1 ++ x.bytes ++ zeros (size * (128 - w)), acc.2.1.worse x.fate, s)) ([], .good, s)
  (r.1 ++ zeros (128 * size * (128 - rows)), r.2.1, r.2.2)

/-- Reads several tiles of a node that lie one after another: one that this attempt has not written fails as a stream check does
(R193). -/
def State.readNodes (s : State) (site : Site) (pairs : Bool) (t L0 a tiles : Nat) (direct : Bool) : List (List Byte) × Fate × State :=
  let size := nodeTile pairs
  let n := s.nodeShape t (L0 + tiles)
  let r := (List.range tiles).foldl (fun (acc : List (List Byte) × Fate × State) i =>
    let (b, f, s) := acc.2.2.readNode site pairs t n (L0 + i) (a + size * i) direct
    (acc.1 ++ [b], acc.2.1.worse f, s)) ([], .good, s)
  (r.1, if s.nodeWritten a size tiles then r.2.1 else r.2.1.worse .desync, r.2.2)

/-- The destination of a plan entry. -/
def PlanEntry.dests (e : PlanEntry) : List Invalid := [.node e.dest e.bytes]

/-- The monitor layer of a tensor of the loaded pattern. -/
def State.layerOf (s : State) (t : Nat) : Nat :=
  match s.heat.pattern with
  | some p => p.layerOf t
  | none => 0

/-- Marks the tiles of a gradient final whose root a plan entry has written (R183, R196). -/
def State.noteRoot (s : State) (e : PlanEntry) (site : Site) : State :=
  match s.heat.pattern, s.pairHome e.tensor site with
  | some p, some (b, _) =>
    if s.isRoot p e && decide (b ≤ e.dest) then
      (List.range e.tiles).foldl (fun s i => s.markFinal e.tensor ((e.dest - b) / nodeTile e.pairs + i)) s
    else s
  | _, _ => s

/-- Writes the parent of two children at DEST; an invalid child makes it invalid, and one that an invalid product feeds hands that on
(R97, R194, R195). -/
def State.writeParent (s : State) (e : PlanEntry) (site : Site) (a b : List Pair) (bad inv : Bool) : State :=
  let sum := (a.zip b).map fun x => addIn e.pairs x.1 x.2
  let L0 := s.firstTile e site
  let n := s.nodeShape e.tensor (L0 + e.tiles)
  let r := (List.range e.tiles).foldl (fun (acc : VWrite × State) i =>
    let vals := (sum.drop (16384 * i)).take 16384
    let (h, w) := tileShape n (L0 + i)
    let els := (((List.range vals.length).zip vals).filter fun v => decide (v.1 % 128 < w) && decide (v.1 / 128 < h)).map fun v =>
      ([v.1 % 128, v.1 / 128], elemBytes e.pairs v.2)
    let (x, s) := acc.2.writeNode (storeAddr e.dest) site e.tensor n (L0 + i) (e.dest + nodeTile e.pairs * i) (elemSize e.pairs) els
    (acc.1.join x, s)) (cleanWrite, s)
  let (ok, s) := r.2.wroteOp site.ev (s.layerOf e.tensor) L0 e.dests r.1
  if !ok then s else
  let s := (s.noteStored e.dest e.bytes inv).noteRoot e site
  if bad then s.markInvalid e.dests else s

/-- The body of NODE_ADD (R195). -/
def State.nodeAdd (s : State) (c : Nat) (h : OpHead) (entry : Nat) : State :=
  let site := s.siteOf c
  match s.planEntry (s.indexed (.core c) h.lpf entry) with
  | none => s
  | some e =>
    let s := s.noteDests (.core c) e.dests
    let n := e.bytes
    let L0 := s.firstTile e site
    let (r1, f1, s) := s.readNodes site e.pairs e.tensor L0 e.loc e.tiles (storeAddr e.loc)
    let (r2, f2, s) := s.readNodes site e.pairs e.tensor L0 (e.loc + n) e.tiles (storeAddr (e.loc + n))
    let f := f1.worse f2
    if f ≠ .good then s.opFail site.ev f (s.layerOf e.tensor) L0 e.dests else
    s.writeParent e site (nodeVals e.pairs r1.flatten) (nodeVals e.pairs r2.flatten)
      (marksNode s.heat.invalid e.loc (2 * n)) (marksNode s.heat.invProd e.loc (2 * n))

/-- NODE_ADD. -/
def nodeAddOp (c : Nat) (h : OpHead) (entry : Nat) (s : State) : State :=
  s.issue (.core c) (.nodeAdd c h entry) fun s => s.nodeAdd c h entry

/-- The body of LINK_REDUCE: combines the arriving stream with the local child, the child of lower index first (R194). It
waits for its LINK_SEND of the same slot. -/
def State.linkReduce (s : State) (c : Nat) (h : OpHead) (entry : Nat) : State :=
  let idx := s.indexed (.core c) h.lpf entry
  match s.planEntry idx with
  | none => s
  | some e =>
    let site := { s.siteOf c with ev := linkEndUnit e.linkEnd }
    let s := s.noteDests (.core c) e.dests
    match s.heat.links.find? (fun x => decide (x.linkEnd = e.linkEnd) && decide (x.tensor = e.tensor)) with
    | none => { s with heat := { s.heat with waitOps := addTo s.heat.waitOps (s.resolve (.linkReduce c h entry)) } }
    | some x =>
      let n := e.bytes
      let L0 := s.firstTile e site
      let (r, f, s) := s.readNodes site e.pairs e.tensor L0 e.loc e.tiles (storeAddr e.loc)
      if f ≠ .good then s.opFail site.ev f (s.layerOf e.tensor) L0 e.dests else
      let arr := nodeVals e.pairs x.tiles.flatten
      let loc := nodeVals e.pairs r.flatten
      let bad := x.bad || marksNode s.heat.invalid e.loc n
      let inv := x.inv || marksNode s.heat.invProd e.loc n
      if e.side = 0 then s.writeParent e site arr loc bad inv else s.writeParent e site loc arr bad inv

/-- LINK_REDUCE. -/
def linkReduceOp (c : Nat) (h : OpHead) (entry : Nat) (s : State) : State :=
  s.issue (.core c) (.linkReduce c h entry) fun s => s.linkReduce c h entry

/-! ## LINK_SEND -/

/-- The other end of a link. -/
def otherEnd (e : Nat) : Nat := if e % 2 = 0 then e + 1 else e - 1

/-- Is the link of an end able to carry a transfer from a die: not fenced, down or retraining, and its crossing not
timed out (R346, R349, R352)? -/
def State.linkOpen (s : State) (e : Nat) : Bool :=
  !s.linkBroken (e / 2) && !s.fencedNow (linkEndDie (otherEnd e)) && !s.deadTo (linkEndDie e) (linkUnit (e / 2))
    && !s.deadTo (linkEndDie e) (linkEndDie (otherEnd e))

/-- Passes a tile of a tensor by the receiving link end (R362 to R365). -/
def State.arriveTile (s : State) (far : Nat) (t : Tensor) (L : Nat) (d : TileData) : State :=
  match d with
  | .scaled x =>
    let b := retile x t.d.fmt L true x.hdr.dataOfs
    let s := s.arrive far 0x2 t.idx [(L, b.scale)]
    let s := s.arrive far 0x1 t.idx (b.blocks.map fun e => (512 * L + e.1, e.2))
    if b.runner.isEmpty then s else s.arrive far 0x3 t.idx [(L, b.runner)]
  | .plain size rows => s.arrive far 0x1 t.idx (rowBlocks t.idx t.d.n L size rows)

/-- Passes the tiles of a node by the receiving link end (R365). -/
def State.arriveNode (s : State) (far : Nat) (pairs : Bool) (t L0 : Nat) (tiles : List (List Byte)) : State :=
  let n := s.nodeShape t (L0 + tiles.length)
  let size := elemSize pairs
  ((List.range tiles.length).zip tiles).foldl (fun s x =>
    let (rows, cols) := tileShape n (L0 + x.1)
    s.arrive far 0x1 t (rowBlocks t n (L0 + x.1) size ((List.range rows).map fun r =>
      (r, slice x.2 (128 * size * r) (size * roundUp cols 32))))) s

/-- Keeps a stream at a link end for the LINK_REDUCE of this slot (R194). -/
def State.keepStream (s : State) (l : LinkStream) : State := { s with heat := { s.heat with links := s.heat.links ++ [l] } }

/-- LINK_SEND of a node that a LINK_REDUCE at the other end awaits: the sender's own node, with its marks (R193, R194). -/
def State.sendNode (s : State) (site : Site) (far tensor first tiles : Nat) (e : PlanEntry) (dests : List Invalid) : State :=
  let none_ : LinkStream := { linkEnd := far, tensor := tensor, first := first, tiles := [], bad := true, inv := false }
  match s.pairHome tensor site with
  | none => (s.keepStream none_).opAbandoned site.ev dests
  | some (b, direct) =>
    let a := b + nodeTile e.pairs * first
    let n := nodeTile e.pairs * tiles
    let (bs, f, s) := s.readNodes site e.pairs tensor first a tiles direct
    if f ≠ .good then (s.keepStream none_).opFail site.ev f (s.layerOf tensor) first dests else
    State.keepStream (s.arriveNode far e.pairs tensor first bs) { none_ with
      tiles := bs, bad := marksNode s.heat.invalid a n, inv := marksNode s.heat.invProd a n }

/-- LINK_SEND of tiles that the die at the other end stores in the tensor's region there (R253): they stay in the stream where it has
none. -/
def State.sendTiles (s : State) (site : Site) (far tensor first tiles : Nat) (dests : List Invalid) : State :=
  match s.tensor tensor site with
  | none => s.opAbandoned site.ev dests
  | some t =>
    let r := s.readTiles t site (fun _ => true) ((List.range tiles).map (first + ·)) []
    match r.1.2 with
    | some e => r.2.opFail site.ev e.2 t.layer e.1 dests
    | none =>
      let s := r.1.1.foldl (fun s e => s.arriveTile far t e.1 e.2) r.2
      let there : Site := { core := none, unit := linkEndDie far, ev := linkEndUnit far }
      match s.heat.pattern.bind (fun p => p.regionOf 1 tensor there), s.tensor tensor there with
      | some g, some y =>
        if g.die ≠ some (unitIdx there.unit) then s else
        let tile (L : Nat) (s : State) : Bool × State :=
          let (w, s) := s.putTile y there 127 L (look default r.1.1 L) (!isScaled t.d.fmt && s.fedInvalid t L)
          s.wroteOp there.ev t.layer L dests w
        (eachTile tile (r.1.1.map (·.1)) s).endWrites there t.layer first dests
      | _, _ => s

/-- The body of LINK_SEND: the tiles go to the other end, which keeps them for a LINK_REDUCE of this slot, or stores them in
the tensor's region on its own die (R194, R253). -/
def State.linkSend (s : State) (c : Nat) (h : OpHead) (linkEnd tensor first tiles : Nat) : State :=
  let site := { s.siteOf c with ev := linkEndUnit linkEnd }
  let first := s.indexed (.core c) h.lpf first
  let far := otherEnd linkEnd
  let dests := tileDests tensor first tiles
  let s := s.noteDests (.core c) dests
  let want := s.plan.find? fun e => decide (e.linkEnd = far) && decide (e.side < 2) && decide (e.tensor = tensor)
  if !s.linkOpen linkEnd then
    State.opAbandoned (if want.isSome then s.keepStream ⟨far, tensor, first, [], true, false⟩ else s) site.ev dests else
  match want with
  | some e => s.sendNode site far tensor first tiles e dests
  | none => s.sendTiles site far tensor first tiles dests

/-- Runs the LINK_REDUCE ops that wait for a stream, and the TOKEN_SIGNAL ops that wait for them (R194, R227). -/
def State.runReduces (s : State) : State :=
  s.resume fun i => match i with
    | .linkReduce c h e => some fun s => s.linkReduce c h e
    | .tokenSignal c h die t atDone => some fun s => s.signalToken c h die t atDone
    | _ => none

/-- LINK_SEND. -/
def linkSendOp (c : Nat) (h : OpHead) (linkEnd tensor first tiles : Nat) (s : State) : State :=
  (s.issue (.core c) (.linkSend c h linkEnd tensor first tiles) fun s => s.linkSend c h linkEnd tensor first tiles).runReduces

end Sys2Proof.Machine
end

