-- ==== Sys2Proof/Machine/Control.lean ====
section
/-! DEFINITION. Control ops of the slot programs: tokens, alternates, suspension points and loops, and OP_ABANDON (09
R226 to R229, 02 R28). -/

namespace Sys2Proof.Machine

/-! ## Tokens (R227) -/

/-- TOKEN_WAIT: looks from its ACO on whether the counter of its die has reached the count; it does not wait for an op under way. -/
def tokenWaitOp (c : Nat) (h : OpHead) (token count : Nat) (s : State) : State :=
  s.issue (.core c) (.tokenWait c h token count) fun s =>
    let n := s.indexed (.core c) h.lpf count
    let q := s.seq (.core c)
    if n ≤ s.token (c / 64) token then s else s.setSeq { q with waits := q.waits ++ [⟨token, n, q.dests.length⟩] }

/-- The earliest open window of a TOKEN_WAIT ends: if its count is not reached by then, ABANDONED is set and every destination that
the core writes from the wait's ACO to the closing tick is invalid. -/
def State.waitEnds (s : State) (c : Nat) : State :=
  let q := s.seq (.core c)
  match q.waits with
  | [] => s
  | w :: rest =>
    let q := { q with waits := rest, dests := if rest.isEmpty then [] else q.dests }
    if w.count ≤ s.token (c / 64) w.token then s.setSeq q else
    (s.setSeq { q with spoiled := true }).opAbandoned (s.siteOf c).ev ((s.seq (.core c)).dests.drop w.from_)

/-- TOKEN_WAIT_TIMEOUT. -/
def tokenWaitTimeoutOp (c : Nat) (s : State) : State := if s.coreIssues c then s.waitEnds c else s

/-- TOKEN_SIGNAL. -/
def tokenSignalOp (c : Nat) (h : OpHead) (die token : Nat) (atDone : Bool) (s : State) : State :=
  s.issue (.core c) (.tokenSignal c h die token atDone) fun s => s.signalToken c h die token atDone

/-- TOKEN_INCREMENT_ARRIVAL: an increment reaches its die while the heat's counters live. -/
def tokenArrivalOp (die token : Nat) (s : State) : State :=
  match s.heat.job with
  | some j => if j.phase == .admitting || j.phase == .ramp || j.phase == .steady || j.phase == .flush || j.phase == .reduce then
      s.addToken die token else s
  | none => s

/-! ## RECOMPUTE_ALT and SUSPEND_POINT -/

/-- RECOMPUTE_ALT: the next count ops take effect only if the bit of the flag's value is set in the mask (R228). -/
def recomputeAltOp (c : Nat) (h : OpHead) (flag mask count : Nat) (s : State) : State :=
  s.issue (.core c) (.recomputeAlt c h flag mask count) fun s =>
    s.setSeq { s.seq (.core c) with span := count, effect := bitOf mask (look 0 s.heat.alts flag) }

/-- Notes that the slot holds a suspension point: the tick that closes it looks for an urgent suspension (R229). -/
def State.urgentPoint (s : State) : State :=
  match s.heat.job with
  | some j => { s with heat := { s.heat with job := some { j with partialAt := some j.phase } } }
  | none => s

/-- SUSPEND_POINT: an urgent suspension takes effect at the tick that closes this slot (R229). -/
def suspendPointOp (c : Nat) (h : OpHead) (point : Nat) (s : State) : State :=
  s.issue (.core c) (.suspendPoint c h point) fun s => s.urgentPoint

/-! ## LOOP and ENDLOOP: they always take effect, inside a span too (R226, R228) -/

/-- LOOP: opens a body in its first iteration. -/
def loopOp (p : Prog) (_ : OpHead) (outer : Bool) (count : Nat) (increment : Int) (s : State) : State :=
  if !s.issues p then s else
  let (_, s) := s.spanStep p
  let q := s.seq p
  s.setSeq { q with loops := q.loops ++ [⟨outer, count, increment, 0, q.span, q.effect⟩] }

/-- ENDLOOP: repeats the innermost open body, with the span it began in, or leaves it. -/
def endloopOp (p : Prog) (s : State) : State :=
  if !s.issues p then s else
  let (_, s) := s.spanStep p
  let q := s.seq p
  match q.loops.getLast? with
  | none => s
  | some l =>
    if l.iter + 1 < l.count then
      s.setSeq { q with loops := q.loops.dropLast ++ [{ l with iter := l.iter + 1 }], span := l.span, effect := l.effect }
    else s.setSeq { q with loops := q.loops.dropLast }

/-! ## OP_ABANDON (R28) -/

/-- OP_ABANDON: an op has not completed by its closing tick. A host access behind it that was answered with an error raises
EV_XLATE_FAULT of kind 5 (R298). An update unit's op belongs to a pour, past the verdict, so its cause is carried. -/
def opAbandonOp (p : Prog) (d : OpDest) (hostError : Option (Nat × Bool)) (s : State) : State :=
  if !s.running then s else
  let s := match hostError with
    | some e => s.raise evXlate (s.progUnit p) 0 (xlateData e.1 e.2 5)
    | none => s
  s.abandon p d

end Sys2Proof.Machine
end

