-- ==== Sys2Proof/Machine/Update.lean ====
section
/-! DEFINITION. The fused update: UPDATE, its programs, the apply step and re-quantisation (08 R202 to R206, 05 R117,
R126, R127). -/

namespace Sys2Proof.Machine

/-! ## Update programs (R204) -/

/-- Fields of an instruction. -/
structure UpdInstr where
  op : Nat
  d  : Nat
  a  : Nat
  b  : Nat
  c  : Nat
  deriving DecidableEq, Repr, Inhabited

/-- Takes an instruction word apart. -/
def updInstr (w : Nat) : UpdInstr := { op := fld w 31 26, d := fld w 25 22, a := fld w 21 17, b := fld w 16 12, c := fld w 11 7 }

/-- The instructions from an offset on, at most 32, up to END. -/
def updProgram (sec : List Byte) (ofs : Nat) : List UpdInstr :=
  let all := (List.range 32).map fun i => updInstr (u sec (4 * (ofs + i)) 4)
  let cut := all.takeWhile fun i => i.op ≠ 0
  cut

/-- The part of a program that a pass runs: before PASS, or after it. -/
def passPart (prog : List UpdInstr) (pass : Nat) : List UpdInstr :=
  if pass = 0 then prog.takeWhile fun i => i.op ≠ 0x0E else (prog.dropWhile fun i => i.op ≠ 0x0E).drop 1

/-- Does a program hold PASS? -/
def hasPass (prog : List UpdInstr) : Bool := prog.any fun i => i.op = 0x0E

/-- Does an instruction read a source: A from ADD to ACC1, B where the opcode takes two, C for SEL (R204)? -/
def UpdInstr.reads (i : UpdInstr) (r : Nat) : Bool :=
  (decide (i.op ∈ [1, 2, 3, 4, 5, 6, 7, 8, 9, 10, 11, 12, 13]) && decide (i.a = r))
  || (decide (i.op ∈ [1, 2, 3, 4, 6, 7, 10, 12, 13]) && decide (i.b = r)) || (decide (i.op = 10) && decide (i.c = r))

/-- Does an instruction write a register? -/
def UpdInstr.writes (i : UpdInstr) (r : Nat) : Bool := decide (1 ≤ i.op ∧ i.op ≤ 11) && decide (i.d = r)

/-- How many moments a program keeps: v4 named, v3 named, or none (R202). -/
def momentsOf (prog : List UpdInstr) : Nat :=
  let uses (r : Nat) : Bool := prog.any fun i => i.reads r || i.writes r
  if uses 4 then 2 else if uses 3 then 1 else 0

/-- The registers of one run and the terms it adds into the layer sums: which sum, and the two factors. -/
structure UpdRun where
  v    : List F32
  accs : List (Nat × F32 × F32)
  deriving DecidableEq, Repr, Inhabited

/-- One instruction; `src` reads sources 16 to 31 and t is the update count. -/
def updStep (src : Nat → F32) (t : Nat) (r : UpdRun) (i : UpdInstr) : UpdRun :=
  let g (k : Nat) : F32 := if k < 16 then nth r.v k else src k
  let a := g i.a
  let b := g i.b
  let set (x : F32) : UpdRun := { r with v := setAt r.v i.d fun _ => x }
  match i.op with
  | 0x01 => set (fadd a b)
  | 0x02 => set (fsub a b)
  | 0x03 => set (fmul a b)
  | 0x04 => set (fdiv a b)
  | 0x05 => set (fsqrt a)
  | 0x06 => set (fmax a b)
  | 0x07 => set (fmin a b)
  | 0x08 => set (fabs a)
  | 0x09 => set (fneg a)
  | 0x0A => set (if FV.lt fvZero (fv a) then b else g i.c)
  | 0x0B => set (fpowt a t)
  | 0x0C => { r with accs := r.accs ++ [(0, a, b)] }
  | 0x0D => { r with accs := r.accs ++ [(1, a, b)] }
  | _ => r

/-- Runs a part of a program. -/
def updRun (prog : List UpdInstr) (src : Nat → F32) (t : Nat) (v : List F32) : UpdRun :=
  prog.foldl (updStep src t) { v := v, accs := [] }

/-- A layer sum: groups of 32 parameters by the windowed sum, then the canonical tree in pair mode, rounded (R204). -/
def layerSum (terms : List (Nat × Nat × Nat × Nat)) (which count : Nat) : F32 :=
  let mine := terms.filter fun e => e.2.1 = which
  let opd (x : Nat) : Opd := ⟨fv (BitVec.ofNat 32 x), false⟩
  let gs := (List.range (ceilDiv count 32)).map fun g =>
    enterIn true (groupSum false ((mine.filter fun e => decide (e.1 / 32 = g)).map fun e => (opd e.2.2.1, opd e.2.2.2))).1
  let r := treeRoot pairAdd pair0 gs
  fadd r.hi r.lo

/-- The apply step (R205): the new pair and whether it is an update underflow. -/
def applyStep (hi lo : Nat) (us : F32) (sc : Nat) : Nat × Nat × Bool :=
  let h := bfTo32 hi
  let r := fadd (fscale (bfTo32 lo) sc) us
  let t := fscale r (-(sc : Int))
  let w := fadd h t
  let hi2 := rneBf (fv w)
  let lo2 := rneBf (fv (fadd (fsub h (bfTo32 hi2)) t))
  (hi2, lo2, isFin32 us && !isZero32 us && decide (hi2 = hi) && decide (lo2 = lo))

/-! ## Parameters of a layer (R203) -/

/-- The trained tensors of a layer in ascending index: those with a gradient region, not frozen. -/
def Pattern.trained (p : Pattern) (layer : Nat) : List Nat :=
  (sortNat ((p.regions.filter fun r => r.kind = 4).map (·.tensor))).filter fun t => decide (p.layerOf t = layer) && !(p.tensorNum t).frozen

/-- Elements of extents. -/
def volume (n : List Nat) : Nat := nth n 0 * nth n 1 * nth n 2 * nth n 3 * nth n 4

/-- Coordinates of a canonical index (R242). -/
def canonCoord (n : List Nat) (k : Nat) : List Nat :=
  let m (x : Nat) : Nat := max x 1
  let k1 := k / m (nth n 0)
  let k2 := k1 / m (nth n 1)
  let k3 := k2 / m (nth n 2)
  [k % m (nth n 0), k1 % m (nth n 1), k2 % m (nth n 2), k3 % m (nth n 3), k3 / m (nth n 3)]

/-- Canonical index of coordinates. -/
def canonIndex (n i : List Nat) : Nat := nth i 0 + nth n 0 * rowIndex n i

/-- The trained tensors of a layer with the number of the first parameter of each. -/
def State.layerTensors (s : State) (p : Pattern) (layer : Nat) : List (Nat × List Nat × Nat) :=
  ((p.trained layer).foldl (fun (acc : List (Nat × List Nat × Nat) × Nat) t =>
    match s.shapeOf t with
    | some d => (acc.1 ++ [(t, d.n, acc.2)], acc.2 + volume d.n)
    | none => acc) ([], 0)).1

/-- The site of a memory-side update unit. -/
def mdSite (u : Nat) : Site := { core := none, unit := mdUnit (u - 16), ev := mdUnit (u - 16) }

/-- The site of a compute-die update unit. -/
def cdSite (u : Nat) : Site := { core := none, unit := dieUnit u, ev := dieUnit u }

/-- What a write of an update unit leaves: a fault abandons the op, and a word that could not be merged carries MEMORY (R206, R261,
R279). -/
def State.wroteUpdate (s : State) (site : Site) (t L : Nat) (w : VWrite) : State :=
  if w.fault then s.opAbandoned site.ev [.tile t L] else if w.usable then s else s.cause site.ev 10

/-- Addresses of a parameter's master pair and moments: three arrays in the tensor's master region (log 25). -/
def masterAddr (r : Region) (n : List Nat) (k : Nat) : Nat × Nat × Nat :=
  (r.base + 4 * k, r.base + 4 * volume n + 4 * k, r.base + 8 * volume n + 4 * k)

/-- What step 1 or the sums read of a parameter: gradient, master pair and moments. -/
structure Param where
  g    : Pair
  hi   : Nat
  lo   : Nat
  m1   : F32
  m2   : F32
  good : Bool
  deriving DecidableEq, Repr, Inhabited

/-- Reads a parameter's state; `moments` tells how many its layer has. -/
def State.readParam (s : State) (md t : Nat) (n : List Nat) (r : Region) (moments k : Nat) : Param × State :=
  let site := mdSite md
  let i := canonCoord n k
  let L := tileIndex n i
  let (a, m1, m2) := masterAddr r n k
  let (rg, f0, s) := match s.pairHome t site with
    | some (b, d) =>
      let (x, s) := s.readAt d site (b + 131072 * L + 8 * ((nth i 1 % 128) * 128 + nth i 0 % 128)) 8
        (rowStream t n L (nth i 1 % 128) (nth i 0 % 128) 1 8)
      (x.bytes, x.fate, s)
    | none => ([], Fate.fault, s)
  let f0 := if (8192 + t, L) ∈ s.heat.written then f0 else f0.worse .desync
  let (rm, s) := s.readAt false site a 4 (byAddress 0x1)
  let none_ : VRead := ⟨zeros 4, true, false, false, false, []⟩
  let (r1, s) := if 1 ≤ moments then s.readAt false site m1 4 (byAddress 0x1) else (none_, s)
  let (r2, s) := if 2 ≤ moments then s.readAt false site m2 4 (byAddress 0x1) else (none_, s)
  let f := ((f0.worse rm.fate).worse r1.fate).worse r2.fate
  ({ g := ⟨f32At rg 0, f32At rg 4⟩, hi := u rm.bytes 0 2, lo := u rm.bytes 2 2, m1 := f32At r1.bytes 0, m2 := f32At r2.bytes 0,
     good := f == .good }, s)

/-- v0 to v15 at the start of a run (R204). -/
def Param.regs (p : Param) : List F32 :=
  [p.g.hi, p.g.lo, rne32 (FV.add (fvBf p.hi) (fvBf p.lo)), p.m1, p.m2] ++ List.replicate 11 zero32

/-- Adds to a count of the update units and notes the event that it raises in the next heat (R124, R339). -/
def State.lateCount (s : State) (layer k code n L : Nat) : State :=
  if n = 0 then s else
  let s := s.count layer k n
  if code = 0 then s else { s with heat := { s.heat with late := s.heat.late ++ [(layer, code, n, L)] } }

/-- Non-finite elements of a re-quantised tile: the count, the carried cause, and the first occurrence of the heat being
poured (R117, R121, R339). -/
def State.lateNonfinite (s : State) (unit layer L : Nat) (blocks : List Nat) (n : Nat) : State :=
  match blocks with
  | [] => s
  | b :: bs =>
    let f : First := { layer := layer, tile := packFirst L (bs.foldl min b * 2 ^ 12) }
    let s := { s with heat := { s.heat with firstNon := lowerFirst s.heat.firstNon f } }
    (s.lateCount layer cNonfinite evNonfinite n L).cause unit 0

/-- The program of a layer with its update table: constants and scale exponent (R204, R205, R233). -/
def Pattern.updOf (p : Pattern) (layer : Nat) : Option (List UpdInstr × List Nat × Nat) :=
  match p.updDir[layer]? with
  | some e => if e.1 = 0xFFFFFFFF then none else
      let tab := p.updTabs.getD e.1 ([], 0)
      some (updProgram p.updProgs e.2, tab.1, tab.2)
  | none => none

/-- Step 1 on one parameter (R203, R205, R206). -/
def State.updateParam (s : State) (p : Pattern) (u layer pass num : Nat) (t : Nat) (n : List Nat) (k : Nat) : State :=
  match p.updOf layer, p.regionOf 7 t (mdSite u) with
  | some (prog, consts, sc), some r =>
    if r.place ≠ u then s else
    let moments := momentsOf prog
    let (x, s) := s.readParam u t n r moments k
    let unit := mdUnit (u - 16)
    let s := if x.good && !isZero32 x.g.hi then { s with heat := { s.heat with gradSeen := addTo s.heat.gradSeen layer } } else s
    if !x.good then s.cause unit 10 else
    let terms := look [] s.heat.passSums layer
    let total := sumNat ((s.layerTensors p layer).map fun e => volume e.2.1)
    let src (i : Nat) : F32 := if i < 30 then BitVec.ofNat 32 (nth consts (i - 16)) else layerSum terms (i - 30) total
    let part := if hasPass prog then passPart prog pass else prog
    let run := updRun part src (s.heat.updates + 1) x.regs
    let more := run.accs.map fun e => (num, e.1, e.2.1.toNat, e.2.2.toNat)
    let s := { s with heat := { s.heat with passSums := put s.heat.passSums layer (terms ++ more) } }
    if hasPass prog && decide (pass = 0) then s else
    let m1 := nth run.v 3
    let m2 := nth run.v 4
    let us := nth run.v 6
    let (hi, lo, uflow) := applyStep x.hi x.lo us sc
    let fin : Bool := isFin32 us && (decide (moments < 1) || isFin32 m1) && (decide (moments < 2) || isFin32 m2) && (fvBf hi).isFin && (fvBf lo).isFin
    if !fin then (s.lateCount layer cNonfinite evNonfinite 1 (tileIndex n (canonCoord n k))).cause unit 0 else
    let (a, a1, a2) := masterAddr r n k
    let site := mdSite u
    let (w, s) := s.writeAt false site a (natLe 2 hi ++ natLe 2 lo) (byAddress 0x1)
    let (w1, s) := if 1 ≤ moments then s.writeAt false site a1 (natLe 4 m1.toNat) (byAddress 0x1) else (cleanWrite, s)
    let (w2, s) := if 2 ≤ moments then s.writeAt false site a2 (natLe 4 m2.toNat) (byAddress 0x1) else (cleanWrite, s)
    let s := s.wroteUpdate site t (tileIndex n (canonCoord n k)) ((w.join w1).join w2)
    s.count layer cUflow (if uflow then 1 else 0)
  | _, _ => s

/-! ## Step 2: the forward copies (R83, R117, R203, R206) -/

/-- A memory-side unit reads a new master pair again and sends w to the compute die that holds the forward copy (R203); one that
cannot be read is not sent, and MEMORY is carried (R206). -/
def State.sendMaster (s : State) (md t : Nat) (n : List Nat) (k : Nat) (r : Region) : State :=
  let site := mdSite md
  let (x, s) := s.readAt false site (masterAddr r n k).1 4 (byAddress 0x1)
  let good := x.fate == .good
  let w := if good then some (rne32 (FV.add (fvBf (u x.bytes 0 2)) (fvBf (u x.bytes 2 2)))).toNat else none
  let s : State := { s with heat := { s.heat with sent := put s.heat.sent (t, k) w } }
  if good then s else s.cause site.ev 10

/-- Has every one of some parameters been sent? -/
def State.allSent (s : State) (t : Nat) (ks : List Nat) : Bool := ks.all fun k => s.heat.sent.any fun e => decide (e.1 = (t, k))

/-- What was sent of a parameter. -/
def State.sentOf (s : State) (t k : Nat) : Option Nat := look none s.heat.sent (t, k)

/-- The rounding of an element of a forward copy: with stochastic rounding the draws of the compute-die unit, under the heat number
of the heat being poured (R100, R131, R133, R135, R203; log 103). -/
def State.updateRnd (s : State) (p : Pattern) (t : Nat) (n i : List Nat) : Rnd :=
  if !Config.updateSr p.hash t then .rne else
  let b := (p.tensorNum t).srBits
  .sr b (sandOf (BitVec.ofNat 64 (nth s.heat.seeds 0)) 1 (Config.updateSand p.hash t).toNat s.heat.heatNum n i b)

/-- K of a format of the F-engine (R75). -/
def fpathK (f : Nat) : Nat :=
  let n := fmtWidth f
  if f = 1 then 1 else if isFI f then n - 1 else if isFU f then n else
  if f = 0x21 then 4 else if f = 0x22 then 9 else 6

/-- The integer a of a code of the F-engine (R75). -/
def laneInt (f c : Nat) : Int :=
  match bOperand f c 0 0 (if isFU f then 2 ^ (fmtWidth f - 1) - 1 else 0) with
  | .fin s m e =>
    let a : Int := m * 2 ^ (e + fpathK f).toNat
    if s then -a else a
  | _ => 0

/-- W_g of a weight block: the sum of its lanes that are neither escaped nor read as zero (R83). -/
def blockSum (b : BlkOut) : Int :=
  if b.eb = 15 then 0 else
  ((b.codes.filter fun c => decide (escCode b.fmt ≠ some c)).map (laneInt b.fmt)).foldl (· + ·) 0

/-- Rewrites the column sums of a re-quantised tile's blocks (R83, R203; log 104). -/
def State.putColSums (s : State) (t : Nat) (n : List Nat) (L : Nat) (o : TileOut) : State :=
  { s with heat := { s.heat with colSums := o.blocks.foldl (fun l b =>
      let i := elemCoord n L b.b 0
      if fClass b.fmt = 0 then l else put l (t, rowIndex n i, nth i 0 / 32) (blockSum b)) s.heat.colSums } }

/-- A compute-die unit re-quantises a forward tile from what it was sent; a tile with a parameter that could not be read stays as it
was (R117, R206). The elements that a retry exponent above 128 makes non-finite are those of a drain's tile (log 148). -/
def State.requantise (s : State) (p : Pattern) (u layer : Nat) (t : Tensor) (L : Nat) : State :=
  let n := t.d.n
  let site := cdSite u
  let vals := (tileElems n L).map fun e => (e.1, e.2.map fun i => (i, s.sentOf t.idx (canonIndex n i)))
  if vals.any fun e => e.2.any fun x => x.2.isNone then s else
  let present := presentBlocks n L
  let fmts := if t.d.fmt = fmtMapped then s.mappedFmts t.d L present else present.map fun B => (B, t.d.fmt)
  let ins : List BlkIn := vals.map fun e =>
    { b := e.1, fmt := look 0 fmts e.1, z := 0,
      vals := e.2.map fun x => fv (fdiv (BitVec.ofNat 32 (x.2.getD 0)) (s.chanOf t.d (nth x.1 1)).1),
      rnds := e.2.map fun x => s.updateRnd p t.idx n x.1 }
  let mapped := t.d.fmt = fmtMapped
  let (old, s) := if mapped then s.readAt t.direct site (t.d.scaleBase + 304 * L) 16 (scaleStream t.idx L 1) else (⟨zeros 16, true, false, false, false, []⟩, s)
  if old.fate ≠ .good then s.cause site.ev 10 else
  let big := (ins.flatMap (·.vals)).foldl (fun acc v => if magLt acc v then v else acc) fvZero
  let kinds := (fmts.map (·.2)).dedup
  let eT := clampET (retryExpOf kinds big.abs)
  let lay := p.layerNum layer
  let cap := if mapped then lay.c else t.cap
  let first := convTile eT lay.ratio cap false ins
  let excess := decide (0 < first.beyond) && decide (1 ≤ cap)
  let coarse := excess && lay.policy == 0
  let o := if coarse then convTile eT lay.ratio cap true ins else first
  let mx := tileMaxOf ins
  let huge := !maxNonfinite mx && decide (128 < retryExpOf kinds big.abs)
  let bad (e : BlkIn) : Nat := (e.vals.filter fun v => !v.isFin || (huge && hugeLane e.fmt (ins.map fun b => (b.b, b.vals)) v)).length
  let hdr : TileHdr := { valid := true, coarse := coarse, clipped := excess && !coarse, tileMax := mx,
                         nonfinite := maxNonfinite mx || huge, dataOfs := if mapped then (TileHdr.dec old.bytes).dataOfs else 0 }
  let (w, s) := s.writeStreams t site L (tileStreams t.d.fmt L hdr o)
  let s := (s.wroteUpdate site t.idx L w).putColSums t.idx n L o
  let s := if excess && lay.policy == 2 then s.cause site.ev 1 else s
  let s := s.lateNonfinite site.ev layer L ((ins.filter fun e => 0 < bad e).map (·.b)) (sumNat (ins.map bad))
  (s.lateCount layer cRunnerOvf evRunnerFull (if excess then 1 else 0) L).finalCounts layer o

/-- The tiles of a tensor whose last parameter lies in a range of a layer's numbering (log 26). -/
def tilesIn (first count : Nat) (e : Nat × List Nat × Nat) : List Nat :=
  let (_, n, from_) := e
  let last (L : Nat) : Nat :=
    let c := tileCoord n L
    canonIndex n [min (128 * nth c 0 + 127) (nth n 0 - 1), min (128 * nth c 1 + 127) (nth n 1 - 1), nth c 2, nth c 3, nth c 4]
  (List.range (tileCount n)).filter fun L => decide (first ≤ from_ + last L) && decide (from_ + last L < first + count)

/-- The canonical indices of a tensor's elements that lie in a range of a layer's numbering. -/
def paramsIn (first count : Nat) (e : Nat × List Nat × Nat) : List Nat :=
  (List.range (volume e.2.1)).filter fun k => decide (first ≤ e.2.2 + k) && decide (e.2.2 + k < first + count)

/-- The forward copy that a compute-die unit holds of a tensor (R203). -/
def State.forwardOf (s : State) (u t : Nat) : Option Tensor :=
  match s.heat.pattern.bind (fun p => p.regionOf 1 t (cdSite u)), s.tensor t (cdSite u) with
  | some r, some x => if r.die = some u ∧ isScaled x.d.fmt then some x else none
  | _, _ => none

/-- The parameters that step 2 of a compute-die unit takes of a tensor: those of its tiles, or of its vector entries. -/
def State.needed (s : State) (p : Pattern) (u first count : Nat) (e : Nat × List Nat × Nat) : List Nat :=
  if (p.tensorNum e.1).vecCopy then paramsIn first count e else
  match s.forwardOf u e.1 with
  | some _ => (tilesIn first count e).flatMap fun L => ((tileElems e.2.1 L).flatMap (·.2)).map (canonIndex e.2.1)
  | none => []

/-- Step 2 of a compute-die unit on a tensor: its tiles, or its entries in the drain table (R203). -/
def State.forwardCopy (s : State) (p : Pattern) (u layer first count : Nat) (e : Nat × List Nat × Nat) : State :=
  let num := p.tensorNum e.1
  if num.vecCopy then
    (paramsIn first count e).foldl (fun s k => match s.sentOf e.1 k with
      | some w => { s with heat := { s.heat with pattern := s.heat.pattern.map fun q => { q with vecs := setAt q.vecs (num.vecFirst + k) fun _ => w } } }
      | none => s) s
  else
    match s.forwardOf u e.1 with
    | some x => (tilesIn first count e).foldl (fun s L => s.requantise p u layer x L) s
    | none => s

/-- Step 1, and step 2 of a memory-side unit, on the parameters of the op whose master pairs lie in its channels (R203). -/
def State.masterWork (s : State) (p : Pattern) (u layer pass step first count : Nat) : State :=
  let ts := s.layerTensors p layer
  (List.range count).foldl (fun s i =>
    let k := first + i
    match ts.find? fun e => decide (e.2.2 ≤ k) && decide (k < e.2.2 + volume e.2.1) with
    | some e =>
      if step = 1 then s.updateParam p u layer pass k e.1 e.2.1 (k - e.2.2) else
      (match p.regionOf 7 e.1 (mdSite u) with
      | some r => if r.place = u then s.sendMaster u e.1 e.2.1 (k - e.2.2) r else s
      | none => s)
    | none => s) s

/-- The body of UPDATE (R203): the memory-side unit of the parameters' channels does step 1, and at step 2 sends what it holds; the
compute-die unit that holds the forward copy writes it, and waits for what is not yet sent. -/
def State.updateBody (s : State) (u : Nat) (h : OpHead) (a : UpdateArgs) : State :=
  match s.heat.pattern, s.heat.job with
  | some p, some j =>
    if j.pourStep ≠ a.step then s else
    let first := s.indexed (.unit u) h.lpf a.first
    if 16 ≤ u then s.masterWork p u a.layer a.pass a.step first a.count else
    if a.step ≠ 2 then s else
    let ts := s.layerTensors p a.layer
    if ts.all fun e => s.allSent e.1 (s.needed p u first a.count e) then
      ts.foldl (fun s e => s.forwardCopy p u a.layer first a.count e) s
    else { s with heat := { s.heat with waitOps := addTo s.heat.waitOps (s.resolve (.update u h a)) } }
  | _, _ => s

/-- Runs the ops of compute-die units that wait for what a memory-side unit sends. -/
def State.runSends (s : State) : State :=
  s.resume fun i => match i with
    | .update u h a => if u < 16 then some fun s => s.updateBody u h a else none
    | _ => none

/-- UPDATE. -/
def updateOp (u : Nat) (h : OpHead) (a : UpdateArgs) (s : State) : State :=
  (s.issue (.unit u) (.update u h a) fun s => s.updateBody u h a).runSends

end Sys2Proof.Machine
end

