-- ==== Sys2Proof/Machine/Image.lean ====
section
/-! DEFINITION. The pattern image: its layout, and the checks of LOAD_PATTERN on header, directory, tables, plans, remap
and update entries (09 R207 to R220, R224, R230, R233, R234 checks 4 to 9). -/

namespace Sys2Proof.Machine

/-! ## Header and directory (R207 to R210) -/

/-- IMAGE_LEN. -/
def imageLen (b : List Byte) : Nat := u b 0x10 8

/-- Check 4 of R234. -/
def headerOk (b : List Byte) (len : Nat) : Bool :=
  decide (slice b 0 8 = ascii "SNIADPAT") && decide (u b 8 2 = 1) && decide (u b 0xC 4 = 2048)
  && decide ((crc64 (slice b 0 2040)).toNat = u b 0x7F8 8) && (decide (len = imageLen b) || decide (len = imageLen b + 128))

/-- Check 5: the signature under PAT_SIG_POLICY (R213, R214): 0 IGNORE, 1 VERIFY, 2 REQUIRE. -/
def signatureOk (policy : Nat) (keys : List Key) (b : List Byte) (len : Nat) : Bool :=
  let il := imageLen b
  let sig := slice b il 128
  let good := decide (slice sig 0 8 = ascii "SNIADSIG") && zeroBytes sig 24 8 &&
    keys.any fun k => decide (k.role = 2) && decide (k.id = slice sig 8 16) && ecdsaVerify k.enc (slice b 0 il) (slice sig 32 48) (slice sig 80 48)
  match policy with
  | 0 => true
  | 1 => decide (len = il) || good
  | _ => decide (len = il + 128) && good

/-- A directory entry: type, variant, offset in bytes, length. -/
structure DirEntry where
  ty      : Nat
  variant : Nat
  ofs     : Nat
  len     : Nat
  deriving DecidableEq, Repr, Inhabited

/-- Directory entry i. -/
def dirEntry (b : List Byte) (i : Nat) : DirEntry :=
  let o := 0x380 + 16 * i
  { ty := u b o 1, variant := u b (o + 1) 1, ofs := 64 * u b (o + 4) 4, len := u b (o + 8) 8 }

def nVariants (b : List Byte) : Nat := u b 0x3E 1
def nSections (b : List Byte) : Nat := u b 0x3F 1

/-- The directory in use. -/
def directory (b : List Byte) : List DirEntry := (List.range (min (nSections b) 40)).map (dirEntry b)

/-- The sections that an image must carry (R210). -/
def wantedSections (v : Nat) : List (Nat × Nat) :=
  ((List.range v).map fun i => (1, i)) ++ ((List.range v).map fun i => (4, i)) ++ [(2, 0), (3, 0), (5, 0), (6, 0)]

/-- Bytes of a section without its CRC; empty when absent. -/
def sectionOf (b : List Byte) (ty variant : Nat) : List Byte :=
  match (directory b).find? (fun e => decide (e.ty = ty) && decide (e.variant = variant)) with
  | some e => slice b e.ofs (e.len - 8)
  | none => []

/-- Check 8: the directory and every section's CRC (R207, R210). -/
def directoryOk (b : List Byte) : Bool :=
  let ds := directory b
  let want := wantedSections (nVariants b)
  decide (nSections b ≤ 40) && decide (ds.length = want.length) && want.all (fun w => ds.any fun e => decide (e.ty = w.1) && decide (e.variant = w.2))
  && ((List.range (min (nSections b) 40)).all fun i => zeroBytes b (0x380 + 16 * i + 2) 2)
  && ((List.range 40).all fun i => decide (i < nSections b) || zeroBytes b (0x380 + 16 * i) 16)
  && ds.all (fun e => decide (2048 ≤ e.ofs) && decide (8 ≤ e.len) && decide (e.ofs + e.len ≤ imageLen b) && sectionCrcOk (slice b e.ofs e.len))
  && (((List.range ds.length).zip ds).all fun x => ((List.range ds.length).zip ds).all fun y =>
    decide (x.1 = y.1) || !overlaps x.2.ofs x.2.len y.2.ofs y.2.len)

/-- Header ranges (R208, R224). -/
def headerRanges (b : List Byte) : Bool :=
  let slot := u b 0x2C 4
  let reserve := u b 0x30 4
  let pour := u b 0x34 4
  let layers := u b 0x3A 2
  let cls := u b 0x3C 1
  let tmp := u b 0x3D 1
  let v := nVariants b
  decide (imageLen b % 64 = 0) && decide (2048 ≤ imageLen b) && decide (imageLen b ≤ 8 * gib - 128) && decide (4096 ≤ slot ∧ slot ≤ 4194304) && decide (reserve < slot)
  && decide (1 ≤ pour ∧ pour ≤ 16777215) && decide (288 * u b 0x38 2 ≤ reserve) && decide (1 ≤ layers ∧ layers ≤ 1024)
  && decide (1 ≤ cls ∧ cls ≤ 8) && decide (1 ≤ tmp ∧ tmp ≤ 16) && decide (1 ≤ v ∧ v ≤ 4) && decide (nSections b = 4 + 2 * v)
  && zeroBytes b 0x620 (0x7F8 - 0x620)
  && ((List.range 4).all fun i =>
    let o := 0x600 + 8 * i
    if i < v then decide (1 ≤ u b o 1 ∧ u b o 1 ≤ 8) && decide (1 ≤ u b (o + 1) 1 ∧ u b (o + 1) 1 ≤ 8) && zeroBytes b (o + 2) 6
    else zeroBytes b o 8)

/-- The length classes: bound and cycle (R209). -/
def classesOf (b : List Byte) : List (Nat × Nat) := (List.range (u b 0x3C 1)).map fun i => (u b (0x40 + 8 * i) 4, u b (0x44 + 8 * i) 4)

/-- The heat templates (R209). -/
def templatesOf (b : List Byte) : List Template :=
  (List.range (u b 0x3D 1)).map fun i =>
    let o := 0x80 + 48 * i
    { cls := (List.range 32).map fun k => u b (o + k) 1, ramp := u b (o + 32) 4, steady := u b (o + 36) 4, flush := u b (o + 40) 4, reduce := u b (o + 44) 4 }

/-- Strictly ascending? -/
def ascending : List Nat → Bool
  | a :: b :: rest => decide (a < b) && ascending (b :: rest)
  | _ => true

/-- The checks of R209. -/
def classTables (b : List Byte) : Bool :=
  let cs := classesOf b
  let ts := templatesOf b
  ascending (cs.map (·.1)) && cs.all (fun c => decide (1 ≤ c.1 ∧ c.1 ≤ 65536) && decide (1 ≤ c.2 ∧ c.2 ≤ 16777215))
  && zeroBytes b (0x40 + 8 * cs.length) (64 - 8 * cs.length)
  && ts.all (fun t => t.cls.all (fun c => decide (c < cs.length) || decide (c = 0xFF)) && t.cls.any (fun c => decide (c ≠ 0xFF))
    && [t.ramp, t.steady, t.flush, t.reduce].all (fun n => decide (n ≤ 16777215)) && decide (0 < t.ramp + t.steady + t.flush + t.reduce))
  && zeroBytes b (0x80 + 48 * ts.length) (768 - 48 * ts.length)

/-! ## Tables (R215 to R218, R169, R171, R72) -/

/-- Entry size of a subtable type; none for a type not listed (R215). -/
def subSize (ty : Nat) : Option Nat :=
  look none [(1, some 32), (2, some 64), (3, some 5152), (4, some 1024), (5, some 8), (6, some 4), (7, some 4), (8, some 128),
    (9, some 16), (10, some 16), (11, some 2), (12, some 64), (13, some 4), (14, some 8)] ty

/-- Subtable directory entry i of the tables section: type, entry size, count, offset. -/
def subEntry (t : List Byte) (i : Nat) : Nat × Nat × Nat × Nat := (u t (16 * i) 1, u t (16 * i + 2) 2, u t (16 * i + 4) 4, u t (16 * i + 8) 8)

/-- The used subtables. -/
def subDir (t : List Byte) : List (Nat × Nat × Nat × Nat) := ((List.range 32).map (subEntry t)).filter fun e => e.1 ≠ 0

/-- The checks of the subtable directory. -/
def subDirOk (t : List Byte) : Bool :=
  let ds := subDir t
  ((List.range 32).all fun i => decide (u t (16 * i) 1 ≠ 0) || zeroBytes t (16 * i) 16)
  && ds.all (fun e => decide (subSize e.1 = some e.2.1) && decide (e.2.2.2 + e.2.1 * e.2.2.1 ≤ t.length))
  && decide ((ds.map (·.1)).dedup.length = ds.length)

/-- The entries of a subtable. -/
def subTable (t : List Byte) (ty : Nat) : List (List Byte) :=
  match (subDir t).find? (fun e => e.1 = ty) with
  | some (_, size, count, ofs) => (List.range count).map fun i => slice t (ofs + size * i) size
  | none => []

/-- A product descriptor (R216). -/
def productOf (b : List Byte) : Product :=
  let a := u b 0 2
  let c := u b 2 2
  let f := u b 6 1
  { a := a % 4096, at_ := bitOf a 15, b := c % 4096, bt := bitOf c 15, layer := u b 4 2, foldA := bitOf f 0, foldB := bitOf f 1,
    split := bitOf f 2, nk := u b 8 4, q0 := u b 12 4, q := u b 16 4, out := u b 20 4 % 4096 }

/-- A format by tensor as compiled, if known (log 6). -/
def fmtOf (shapes : List (Nat × List Byte)) (t : Nat) : Option Nat := (shapes.find? fun e => e.1 = t).map fun e => (descOf e.2).fmt

/-- The checks of R216. -/
def productOk (shapes : List (Nat × List Byte)) (layers : Nat) (b : List Byte) : Bool :=
  let p := productOf b
  let bf (t : Nat) : Option Bool := (fmtOf shapes t).map (· == fmtBf16)
  let splitOk : Bool := match bf p.a, bf p.b with
    | some x, some y => decide (p.split = (x || y))
    | some x, none => !x || p.split
    | none, some y => !y || p.split
    | none, none => true
  decide (fld (u b 0 2) 14 12 = 0) && decide (fld (u b 2 2) 14 12 = 0) && decide (p.layer < layers) && decide (u b 6 1 < 8)
  && decide (u b 7 1 = 0) && decide (1 ≤ p.nk) && decide (1 ≤ p.q ∧ p.q ≤ 256) && decide (u b 20 4 < 4096) && zeroBytes b 24 8 && splitOk

/-- A drain configuration (R217). -/
def drainCfgOf (b : List Byte) : DrainCfg :=
  { stages := u b 0 2, out := u b 2 2, sandId := u b 4 2, modes := u b 6 1, dropP := u b 8 2, func := u b 10 2, deriv := u b 12 2,
    res := u b 14 2, res2 := u b 16 2, codes := u b 18 2, vec := (List.range 6).map fun i => u b (20 + 4 * i) 4, alpha := u b 44 4,
    kd := u b 48 4, eps := u b 52 4, sampleS := u b 56 3, sample := bitOf (u b 59 1) 0, maskVec := u b 60 4 }

/-- The checks of R217, with those of R161, R163, R167 and R189 that need no op. -/
def drainCfgOk (shapes : List (Nat × List Byte)) (funcs derivs vecs : Nat) (b : List Byte) : Bool :=
  let c := drainCfgOf b
  let shape (t : Nat) : Option (List Nat) := (shapes.find? fun e => e.1 = t).map fun e => (descOf e.2).n
  let sameShape (t : Nat) : Bool := match shape t, shape c.out with
    | some x, some y => decide (x = y)
    | _, _ => true
  let covers (idx n : Nat) : Bool := decide (idx = 0xFFFFFFFF) || decide (idx + n ≤ vecs)
  let n0 := match shape c.out with
    | some n => nth n 0
    | none => 1
  let n1 := match shape c.out with
    | some n => nth n 1
    | none => 1
  decide (c.stages % 4 = 0) && decide (c.stages < 1024) && decide (u b 7 1 = 0) && decide (c.prep ≤ 4)
  && (decide (c.func = 0xFFFF) || decide (c.func < funcs)) && (decide (c.deriv = 0xFFFF) || decide (c.deriv < derivs))
  && (!c.on 6 || decide (c.func ≠ 0xFFFF) || decide (c.deriv ≠ 0xFFFF)) && (decide (c.func = 0xFFFF) || decide (c.deriv = 0xFFFF))
  && decide (c.out < 4096) && [c.res, c.res2, c.codes].all (fun t => decide (t < 4096) || decide (t = 0xFFFF))
  && (c.resKind == 1 || decide (c.res2 = 0xFFFF)) && decide (u b 59 1 < 2) && (c.sample || decide (c.sampleS = 0))
  && (!c.pair || decide (c.stages < 8))
  && (!c.on 5 || (sameShape c.res && (c.resKind != 1 || decide (c.res2 = 0xFFFF) || sameShape c.res2)))
  && ([0, 2, 5].all fun j => covers (nth c.vec j) n1) && ([1, 3, 4].all fun j => covers (nth c.vec j) n0)
  && (!c.sample || (decide (c.maskVec ≠ 0xFFFFFFFF) && decide (c.maskVec + n0 ≤ vecs)))

/-- The checks of a function table (R169). -/
def funcOk (b : List Byte) : Bool :=
  let segs := u b 0 1
  let deg := u b 1 1 % 4
  decide (fld (u b 0 4) 31 10 = 0) && ([12, 13, 14].all fun o => decide (u b o 1 ≤ segs)) && zeroBytes b 15 17
  && ((List.range (segs + 1)).all fun i => isFin32 (segBase b i) && (List.range (deg + 1)).all fun j => isFin32 (segCoef b i j))
  && ((List.range segs).all fun i => FV.lt (fv (segBase b i)) (fv (segBase b (i + 1))))

/-- The check of a derivative table (R171). -/
def derivOk (b : List Byte) : Bool := (List.range 256).all fun i => isFin32 (f32At b (4 * i))

/-- Is a code a positive normal binary32 (R61)? -/
def scaleOk (x : Nat) : Bool := decide (0x00800000 ≤ x) && decide (x < 0x7F800000)

/-- The check of a channel entry (R61). -/
def chanOk (b : List Byte) : Bool := scaleOk (u b 0 4) && decide (u b 4 1 ≤ 254) && zeroBytes b 5 3

/-- The check of a channel directory entry (R215). -/
def chanDirOk (count : Nat) (b : List Byte) : Bool := decide (u b 4 1 ≤ 16) && zeroBytes b 5 3 && decide (u b 0 4 + 2 ^ u b 4 1 ≤ count)

/-- The check of a width palette (R72). -/
def paletteOk (b : List Byte) : Bool :=
  let fs := (b.map (·.toNat)).filter (· ≠ 0)
  fs.all weightFmt && (fs.all (fun f => decide (fClass f ≠ 0)) || fs.all fun f => decide (fClass f = 0))

/-- Do the width maps of a MAPPED tensor select used entries of its palette for every present block (R72)? -/
def mapsOk (palettes : List (List Nat)) (maps : List (List Byte)) (d : Desc) : Bool :=
  d.fmt != fmtMapped || (decide (d.palette < palettes.length) && (List.range (tileCount d.n)).all fun L =>
    decide (d.map + L < maps.length) && (presentBlocks d.n L).all fun B =>
      decide (nth (palettes.getD d.palette []) (fld (((maps.getD (d.map + L) []).getD (B / 4) 0).toNat) (2 * (B % 4) + 1) (2 * (B % 4))) ≠ 0))

/-- A code with a DEFAULT: the field's value, the default where the code says so, or none out of range. -/
def withDefault (v code dflt max : Nat) : Option Nat := if v = code then some dflt else if v ≤ max then some v else none

/-- Tensor numerics of an entry, with DEFAULT codes resolved from the defaults register (R218, R406). -/
def tensorNumOf (dflt : Nat) (b : List Byte) : Option TensorNum :=
  let v := u b 0 16
  match withDefault (fld v 1 0) 3 (fld dflt 1 0) 2, withDefault (fld v 6 2) 31 (fld dflt 5 2) 15, withDefault (fld v 10 7) 15 (fld dflt 8 6) 7,
    withDefault (fld v 14 11) 15 (fld dflt 11 9) 7, withDefault (fld v 21 15) 127 (fld dflt 18 12) 64, withDefault (fld v 26 22) 31 (fld dflt 23 19) 16 with
  | some tm, some h, some r, some f, some fl, some sr =>
    let vc := bitOf v 29
    if sr < 3 ∨ fld v 31 30 ≠ 0 ∨ fld v 127 64 ≠ 0 ∨ (!vc ∧ fld v 63 32 ≠ 0) then none else
    some { trackMode := tm, head := h, rise := r, fall := f, flushNum := fl, srBits := sr, frozen := bitOf v 27, tokens := bitOf v 28,
           vecCopy := vc, vecFirst := fld v 63 32 }
  | _, _, _, _, _, _ => none

/-- The numerics of a tensor without an entry. -/
def tensorNumDefault (dflt : Nat) : TensorNum :=
  { trackMode := fld dflt 1 0, head := fld dflt 5 2, rise := fld dflt 8 6, fall := fld dflt 11 9, flushNum := fld dflt 18 12,
    srBits := fld dflt 23 19, frozen := false, tokens := false, vecCopy := false, vecFirst := 0 }

/-- Layer numerics of an entry (R218). -/
def layerNumOf (dflt : Nat) (b : List Byte) : Option LayerNum :=
  let v := u b 0 16
  match withDefault (fld v 4 0) 31 (fld dflt 28 24) 24, withDefault (fld v 15 14) 3 (fld dflt 30 29) 2 with
  | some t, some pol =>
    if (fld v 4 0 = 0) ∨ 256 < fld v 13 5 ∨ fld v 127 33 ≠ 0 then none else
    some { t := t, c := fld v 13 5, policy := pol, uflowMax := if bitOf v 32 then fld dflt 47 32 else fld v 31 16 }
  | _, _ => none

/-- The numerics of a layer without an entry. -/
def layerNumDefault (dflt : Nat) : LayerNum := { t := fld dflt 28 24, c := 0, policy := fld dflt 30 29, uflowMax := fld dflt 47 32 }

/-- All results, if every one is there. -/
def allSome {α : Type} (l : List (Option α)) : Option (List α) := l.foldr (fun x acc => match x, acc with
  | some a, some as => some (a :: as)
  | _, _ => none) (some [])

/-- The tables as parsed. -/
structure Tables where
  products : List Product
  drains   : List DrainCfg
  funcs    : List (List Byte)
  derivs   : List (List Byte)
  chans    : List (Nat × Nat)
  colSums  : List Int
  palettes : List (List Nat)
  maps     : List (List Byte)
  tnum     : List TensorNum
  lnum     : List LayerNum
  est0     : List Int
  updTabs  : List (List Nat × Nat)
  vecs     : List Nat
  chanDir  : List (Nat × Nat)
  deriving DecidableEq, Repr, Inhabited

/-- Checks and parses the tables section (R215 to R218); every tensor and layer gets its resolved numerics. -/
def parseTables (dflt : Nat) (shapes : List (Nat × List Byte)) (layers : Nat) (t : List Byte) : Option Tables :=
  let tab (ty : Nat) : List (List Byte) := subTable t ty
  let ok := subDirOk t && (tab 1).all (productOk shapes layers)
    && (tab 2).all (drainCfgOk shapes (tab 3).length (tab 4).length (tab 13).length) && (tab 3).all funcOk && (tab 4).all derivOk
    && (tab 5).all chanOk && (tab 7).all paletteOk && (tab 14).all (chanDirOk (tab 5).length)
    && (tab 12).all (fun b => decide (u b 56 1 ≤ 63) && zeroBytes b 57 7)
  match allSome ((tab 9).map (tensorNumOf dflt)), allSome ((tab 10).map (layerNumOf dflt)) with
  | some tn, some ln =>
    let vecOk := ((List.range tn.length).zip tn).all fun e => !e.2.vecCopy ||
      (match (shapes.find? fun x => x.1 = e.1) with
        | some x => decide (e.2.vecFirst + volume (descOf x.2).n ≤ (tab 13).length)
        | none => decide (e.2.vecFirst ≤ (tab 13).length))
    let tokOk := ((List.range tn.length).zip tn).all fun e => !e.2.tokens ||
      (match (shapes.find? fun x => x.1 = e.1) with
        | some x => decide ((descOf x.2).role = 1 ∨ (descOf x.2).role = 2) && decide (nth (descOf x.2).n 2 = 32)
        | none => true)
    let mapOk := shapes.all fun x => mapsOk ((tab 7).map fun b => b.map (·.toNat)) (tab 8) (descOf x.2)
    if !(ok && vecOk && tokOk && mapOk) then none else
    some { products := (tab 1).map productOf, drains := (tab 2).map drainCfgOf, funcs := tab 3, derivs := tab 4,
           chans := (tab 5).map fun b => (u b 0 4, u b 4 1), colSums := (tab 6).map fun b => signedOf 32 (u b 0 4),
           palettes := (tab 7).map fun b => b.map (·.toNat), maps := tab 8,
           tnum := tn ++ List.replicate (4096 - tn.length) (tensorNumDefault dflt),
           lnum := ln ++ List.replicate (layers - ln.length) (layerNumDefault dflt),
           est0 := (tab 11).map fun b => signedOf 16 (u b 0 2),
           updTabs := (tab 12).map fun b => ((List.range 14).map fun i => u b (4 * i) 4, u b 56 1),
           vecs := (tab 13).map fun b => u b 0 4, chanDir := (tab 14).map fun b => (u b 0 4, u b 4 1) }
  | _, _ => none

/-! ## Plans, remap and update entries (R219, R220, R230, R233) -/

/-- A region entry (R219). -/
def regionEntry (b : List Byte) : Region :=
  { kind := u b 0 1, place := u b 1 1, tensor := u b 2 2, alt := u b 4 4, base := u b 8 8, size := u b 16 8, spill := u b 24 4, unit := u b 28 4 }

/-- The regions of a plan section. -/
def regionsOf (sec : List Byte) : List Region := (List.range (u sec 0 8)).map fun i => regionEntry (slice sec (8 + 32 * i) 32)

/-- Is a place a store? -/
def Region.inStore (r : Region) : Bool := r.place == 0x40 || r.place == 0x41

/-- Size of a store. -/
def storeSize (place : Nat) : Nat := if place = 0x40 then 2097152 else 16777216

/-- The checks of R219 that need no free frames. -/
def planOk (sec : List Byte) (rs : List Region) : Bool :=
  let pairs := ((List.range rs.length).zip rs)
  let clash (a b : Region) : Bool :=
    if a.inStore && b.inStore then decide (a.place = b.place) && decide (a.unit = b.unit) && a.size != 0 && b.size != 0 && overlaps a.base a.size b.base b.size
    else if a.inStore || b.inStore || a.size == 0 || b.size == 0 then false
    else overlaps (a.base / 65536) a.frameCount (b.base / 65536) b.frameCount
  decide (8 + 32 * rs.length ≤ sec.length)
  && rs.all (fun r => decide (1 ≤ r.kind ∧ r.kind ≤ 10) && (decide (r.place < 24) || r.inStore || decide (r.place = 0xFF))
    && (decide (r.tensor < 4096) || decide (r.tensor = 0xFFFF)) && (r.inStore || decide (r.unit = 0))
    && (!r.inStore || (decide (r.base + r.size ≤ storeSize r.place) && decide (r.unit < if r.place = 0x40 then 1024 else 128)))
    && (decide (r.kind ≠ 7) || decide (16 ≤ r.place ∧ r.place ≤ 23))
    && (decide (r.kind ≠ 2) || (match rs[r.spill]? with
      | some q => decide (q.kind = 3)
      | none => false)))
  && pairs.all (fun x => pairs.all fun y => decide (y.1 ≤ x.1) || !clash x.2 y.2)
  && ((rs.filter fun r => r.kind = 7).all fun r => decide ((rs.filter fun g => decide (g.kind = 4) && decide (g.tensor = r.tensor)).length = 1))
  && ((rs.filter fun r => r.kind = 4).all fun r => decide ((rs.filter fun g => decide (g.kind = 4) && decide (g.tensor = r.tensor)).length = 1))

/-- A reduction plan entry (R220). -/
def planEntryOf (b : List Byte) : PlanEntry :=
  { tensor := u b 0 2, pairs := bitOf (u b 2 1) 0, linkEnd := u b 3 1, level := u b 4 1, side := u b 5 1, tree := u b 6 1, j := u b 8 4,
    tiles := u b 12 4, loc := u b 16 8, dest := u b 24 8 }

/-- The entries of a reduction plan section. -/
def planEntries (sec : List Byte) : List PlanEntry := (List.range (sec.length / 32)).map fun i => planEntryOf (slice sec (32 * i) 32)

/-- G of the tree of an entry (R220); none where the descriptors disagree. -/
def treeGroups (shapes : List (Nat × List Byte)) (ps : List Product) (e : PlanEntry) : Option Nat :=
  match e.tree with
  | 0 =>
    (match ps.filter (fun q => q.out = e.tensor) with
    | q :: rest => if rest.all fun x => decide (x.nk = q.nk) then some (ceilDiv q.nk 32) else none
    | [] => none)
  | 1 => some 32
  | 2 => (shapes.find? fun x => x.1 = e.tensor).map fun x => ceilDiv (nth (descOf x.2).n 0) 32
  | _ => none

/-- Is a link end on a compute die (R17, R220)? -/
def endOnCompute (e : Nat) : Bool := decide (unitKind (linkEndDie e) = 2)

/-- The checks of R220. -/
def planEntryOk (shapes : List (Nat × List Byte)) (ps : List Product) (b : List Byte) : Bool :=
  let e := planEntryOf b
  let known : Bool := match treeGroups shapes ps e with
    | some g => decide (e.j * 2 ^ e.level < g)
    | none => e.tree == 2 && !(shapes.any fun x => decide (x.1 = e.tensor))
  decide (u b 2 1 < 2) && decide (1 ≤ e.level ∧ e.level ≤ 31) && decide (e.side ≤ 2) && decide (e.tree ≤ 2) && decide (u b 7 1 = 0)
  && (decide (e.side = 2) || (decide (e.linkEnd ≤ 83) && endOnCompute e.linkEnd)) && known

/-- The words of a variant's remap block: 16 die words, then 128 cluster words (R230). -/
def remapBlock (sec : List Byte) (v : Nat) : List Nat := (List.range 144).map fun i => u sec (576 * v + 4 * i) 4

/-- Is a remap word a permutation with its active count (R230)? -/
def remapWordOk (act w : Nat) : Bool :=
  let fs := (List.range 8).map fun i => fld w (3 * i + 2) (3 * i)
  (List.range 8).all (fun k => decide (k ∈ fs)) && decide (fld w 27 24 = act) && decide (fld w 31 28 = 0)

/-- The remap section's check; words of fenced dies are ignored. -/
def remapOk (s : State) (variants : List (Nat × Nat)) (sec : List Byte) : Bool :=
  decide (sec.length = 576 * variants.length) &&
  ((List.range variants.length).zip variants).all fun e =>
    let ws := remapBlock sec e.1
    (List.range 16).all fun d => s.fencedReg (dieUnit d) ||
      (remapWordOk e.2.2 (nth ws d) && (List.range 8).all fun k => remapWordOk e.2.1 (nth ws (16 + 8 * d + k)))

/-- The checks of an update program (R204, R233): at most 32 instructions up to END, defined opcodes, bits [6:0] zero, sums
read only after PASS. -/
def updProgOk (sec : List Byte) (ofs : Nat) : Bool :=
  let words := (List.range 32).map fun i => u sec (4 * (ofs + i)) 4
  let prog := updProgram sec ofs
  let used := words.take (prog.length + 1)
  let before := prog.takeWhile fun i => i.op ≠ 0x0E
  decide (4 * (ofs + prog.length + 1) ≤ sec.length) && decide (prog.length < 32) && used.all (fun w => decide (w % 128 = 0) && decide (fld w 31 26 ≤ 0x0E))
  && before.all (fun i => !i.reads 30 && !i.reads 31)

/-- The update section's entries: update table and program offset (R233). -/
def updDirOf (layers : Nat) (sec : List Byte) : List (Nat × Nat) := (List.range layers).map fun i => (u sec (8 * i) 4, u sec (8 * i + 4) 4)

/-- The checks of R233 on the entries and programs. -/
def updatesOk (layers tabs : Nat) (sec : List Byte) : Bool :=
  decide (8 * layers ≤ sec.length) && (updDirOf layers sec).all fun e =>
    if e.1 = 0xFFFFFFFF then decide (e.2 = 0) else decide (e.1 < tabs) && decide (2 * layers ≤ e.2) && updProgOk sec e.2

/-! ## Free frames (R219) -/

/-- The frames of a place, lowest address first, as device physical addresses. -/
def State.placeFrames (s : State) (place : Nat) : List Nat :=
  let run (base size : Nat) : List Nat := (List.range (size / 65536)).map fun i => base + 65536 * i
  if place < 16 then run (place * 16 * gib) (16 * gib - 64 * 2 ^ 20) else
  if place < 24 then run (roundUp (s.localBase (place - 16)) 65536) ((s.actOf (place - 16)).length * s.lpLocal) else
  run lpBase (s.interSize - 9 * gib)

/-- Is a frame free: populated throughout, not retired, in no other region (R219)? -/
def State.frameFree (s : State) (used : List Nat) (a : Nat) : Bool :=
  decide (a ∉ used) && !decide (a ∈ s.fences.retired) && (List.range 256).all fun i => s.populated (a + 256 * i)

/-- The first n free frames of a list. -/
def State.takeFree (s : State) (used : List Nat) : Nat → List Nat → List Nat
  | _, [] => []
  | 0, _ => []
  | n + 1, a :: as => if s.frameFree used a then a :: s.takeFree used n as else s.takeFree used (n + 1) as

/-- Gives every region outside the stores its frames: (virtual frame, physical frame) in 64 KiB units; none where a place
has too few. -/
def State.placeRegions (s : State) (rs : List Region) : Option (List (Nat × Nat)) :=
  rs.foldl (fun (acc : Option (List (Nat × Nat))) r =>
    match acc with
    | none => none
    | some l =>
      if r.inStore then some l else
      let n := r.frameCount
      let got := s.takeFree (l.map fun e => 65536 * e.2) n (s.placeFrames r.place)
      if got.length < n then none else
      some (l ++ ((List.range n).zip got).map fun e => (r.base / 65536 + e.1, e.2 / 65536))) (some [])

end Sys2Proof.Machine
end

