-- ==== Sys2Proof/Machine/Programs.lean ====
section
/-! DEFINITION. The slot programs of an image and check 10 of LOAD_PATTERN: encodings, loops, spans, the rules of each op,
and the rules of each slot under every assignment of the alternate flags (09 R221 to R229, R234, 07 R155 to R163, 08 R182,
R189, R194, R195). -/

namespace Sys2Proof.Machine

/-! ## Ops (R222) -/

/-- An op as stored, and after expansion the span that guards it: flag and mask. -/
structure POp where
  opc   : Nat
  aco   : Nat
  acl   : Nat
  lpf   : Nat
  rsv   : Nat
  pay   : Nat
  guard : Option (Nat × Nat)
  deriving DecidableEq, Repr, Inhabited

/-- Takes a 16-byte op apart. -/
def pop (b : List Byte) : POp :=
  let v := u b 0 16
  { opc := fld v 127 120, aco := fld v 119 98, acl := fld v 97 76, lpf := fld v 75 74, rsv := fld v 73 72, pay := fld v 71 0, guard := none }

def POp.f (o : POp) (hi lo : Nat) : Nat := fld o.pay hi lo
def POp.isProduct (o : POp) : Bool := decide (1 ≤ o.opc ∧ o.opc ≤ 3)
def POp.isTick (o : POp) : Bool := o.opc == 0

/-- The indexed fields of an op (R222). -/
def indexedFields (opc : Nat) : List (Nat × Nat) :=
  match opc with
  | 0x01 | 0x02 | 0x03 => [(55, 51), (25, 10)]
  | 0x09 => [(67, 36)]
  | 0x0A | 0x10 | 0x11 | 0x12 => [(59, 28)]
  | 0x18 => [(52, 21)]
  | 0x19 | 0x1A => [(71, 48)]
  | 0x20 => [(61, 46)]
  | 0x30 => [(58, 21)]
  | _ => []

/-- Is the encoding of an op legal: defined opcode, reserved bits zero, in the kind of program it may stand in? -/
def POp.legal (o : POp) (unitProg : Bool) : Bool :=
  let z (hi : Nat) : Bool := decide (o.f hi 0 = 0)
  let bare := decide (o.pay = 0) && decide (o.aco = 0) && decide (o.acl = 0)
  let bits := ((List.range 4).filter fun i => bitOf o.pay (26 + i)).length
  decide (o.rsv = 0) &&
  match o.opc with
  | 0x00 => bare
  | 0x39 => bare
  | 0x38 => z 14 && decide (1 ≤ o.f 70 47)
  | 0x30 => unitProg && (decide (o.f 60 59 = 1) || decide (o.f 60 59 = 2))
  | 0x01 => !unitProg && decide (bits = 0)
  | 0x02 => !unitProg && decide (bits ∈ [1, 2, 4])
  | 0x03 => !unitProg && decide (bits ∈ [1, 2, 4]) && bitOf o.pay 30
  | 0x08 => !unitProg && z 55
  | 0x09 => !unitProg && z 19 && decide (o.f 71 69 ≤ 4)
  | 0x0A => !unitProg && z 11
  | 0x10 => !unitProg && z 10
  | 0x11 => !unitProg && z 10
  | 0x12 => !unitProg && z 9
  | 0x18 => !unitProg && z 4 && decide (o.f 71 65 ≤ 83)
  | 0x19 => !unitProg && z 47
  | 0x1A => !unitProg && z 47
  | 0x20 => !unitProg && z 45
  | 0x21 => !unitProg && z 56 && decide (o.f 71 68 < 16)
  | 0x28 => !unitProg && z 39
  | 0x29 => !unitProg && z 55
  | _ => false

/-! ## Expansion of loops and spans (R226, R228) -/

/-- An open loop of the expansion. -/
structure LoopFrame where
  start : Nat
  outer : Bool
  count : Nat
  inc   : Int
  iter  : Nat
  deriving DecidableEq, Repr, Inhabited

/-- Adds the loop increments to an op's indexed fields; none where one leaves its range. -/
def bumped (o : POp) (fs : List LoopFrame) : Option POp :=
  let add : Int := fs.foldl (fun acc f => if bitOf o.lpf (if f.outer then 1 else 0) then acc + f.iter * f.inc else acc) 0
  (indexedFields o.opc).foldl (fun acc h => acc.bind fun p =>
    let v : Int := (p.f h.1 h.2 : Int) + add
    if v < 0 ∨ (2 : Int) ^ (h.1 + 1 - h.2) ≤ v then none else
    some { p with pay := p.pay - p.f h.1 h.2 * 2 ^ h.2 + v.toNat * 2 ^ h.2 }) (some o)

/-- The spans of a program as stored: first guarded position, last guarded position, flag, mask (R228). -/
def spansOf (ops : List POp) : List (Nat × Nat × Nat × Nat) :=
  ((List.range ops.length).zip ops).filterMap fun e =>
    if e.2.opc = 0x28 then some (e.1 + 1, e.1 + e.2.f 55 40, e.2.f 71 60, e.2.f 59 56) else none

/-- The span that guards a position, in every iteration of a loop opened in it (R228). -/
def spanAt (spans : List (Nat × Nat × Nat × Nat)) (pc : Nat) : Option (Nat × Nat × Nat × Nat) :=
  spans.find? fun x => decide (x.1 ≤ pc) && decide (pc ≤ x.2.1)

/-- No span nests in another or runs past the end of its program (R228). -/
def spansOk (ops : List POp) : Bool :=
  let spans := spansOf ops
  spans.all fun x => decide (x.2.1 < ops.length) && (spanAt spans (x.1 - 1)).isNone

/-- Expands a program op by op: nesting to depth 2 with the outer loop outside, no span that leaves its loop (R226, R228). -/
def expandGo (ops : List POp) (spans : List (Nat × Nat × Nat × Nat)) : Nat → Nat → List LoopFrame → List POp → Option (List POp)
  | 0, _, _, _ => none
  | fuel + 1, pc, fs, acc =>
    match ops[pc]? with
    | none => if fs.isEmpty then some acc.reverse else none
    | some o =>
      if o.opc = 0x38 then
        let outer := bitOf o.pay 71
        if 2 ≤ fs.length ∨ (fs.length = 1 ∧ (outer ∨ !(fs.headD default).outer)) then none else
        expandGo ops spans fuel (pc + 1) (⟨pc, outer, o.f 70 47, signedOf 32 (o.f 46 15), 0⟩ :: fs) acc
      else if o.opc = 0x39 then
        match fs with
        | [] => none
        | f :: rest =>
          if (spanAt spans pc).any fun x => decide (f.start < x.1) then none else
          if f.iter + 1 < f.count then expandGo ops spans fuel (f.start + 1) ({ f with iter := f.iter + 1 } :: rest) acc
          else expandGo ops spans fuel (pc + 1) rest acc
      else match bumped o fs with
        | none => none
        | some p => expandGo ops spans fuel (pc + 1) fs ({ p with guard := (spanAt spans pc).map fun x => (x.2.2.1, x.2.2.2) } :: acc)

/-- The expanded program. -/
def expandProg (ops : List POp) : Option (List POp) :=
  if spansOk ops then expandGo ops (spansOf ops) (2 ^ 72) 0 [] [] else none

/-- The slots of an expanded program: the ops from each TICK to the next (R221, R223). -/
def slotsOf : List POp → List (List POp)
  | [] => []
  | o :: rest => if o.isTick then rest.takeWhile (fun p => !p.isTick) :: slotsOf rest else slotsOf rest

/-- Does an expanded program begin with a TICK? -/
def startsAtTick (ops : List POp) : Bool := (ops.headD { (default : POp) with opc := 1 }).isTick

/-! ## The program directory (R221) -/

/-- The programs of a slot-programs section: ops of entry i. -/
def progOps (sec : List Byte) (i : Nat) : List POp :=
  let ofs := u sec (16 * i) 8
  (List.range (u sec (16 * i + 8) 4)).map fun k => pop (slice sec (ofs + 16 * k) 16)

/-- A core program: its template, logical core and expanded slots. -/
structure CoreProg where
  template : Nat
  core     : Nat
  slots    : List (List POp)
  /-- No op stands before the first TICK. -/
  fromTick : Bool
  deriving DecidableEq, Repr, Inhabited

/-- The core programs of a variant in directory order: template, die, cluster, core. -/
def coreKeys (templates : Nat) (v : Nat × Nat) : List (Nat × Nat) :=
  (List.range templates).flatMap fun t => (List.range 16).flatMap fun d => (List.range v.2).flatMap fun k => (List.range v.1).map fun c => (t, 64 * d + 8 * k + c)

/-! ## What an op uses, reads and writes -/

/-- The tables that the rules look at. -/
structure Ctx where
  p      : Pattern
  shapes : List (Nat × List Byte)
  plan   : List PlanEntry
  window : Nat

def Ctx.shape (x : Ctx) (t : Nat) : Option Desc := (x.shapes.find? fun e => e.1 = t).map fun e => descOf e.2

/-- The product descriptor of a product op. -/
def Ctx.prod (x : Ctx) (o : POp) : Product := nth x.p.products (o.f 71 56)

/-- The resources of an op (R223): engines and drain of its core, ladles, link ends. -/
def resourcesOf (x : Ctx) (core : Nat) (o : POp) : List Nat :=
  match o.opc with
  | 0x01 => [16 * core]
  | 0x02 => ((List.range 4).filter fun i => bitOf o.pay (26 + i)).map fun i => 16 * core + 1 + i
  | 0x03 => ((List.range 4).filter fun i => bitOf o.pay (26 + i)).map fun i => 16 * core + 1 + i
  | 0x08 | 0x09 | 0x0A | 0x1A => [16 * core + 5]
  | 0x10 | 0x11 | 0x12 => [100000 + 2 * (core / 64) + (if bitOf o.pay 11 then 1 else 0)]
  | 0x18 => [200000 + o.f 71 65]
  | 0x19 => [200000 + (x.plan.getD (o.f 71 48) default).linkEnd]
  | 0x30 => [300000 + core]
  | _ => []

/-- The engines that a product op names. -/
def enginesOf (o : POp) : List Nat := if o.opc = 1 then [0] else ((List.range 4).filter fun i => bitOf o.pay (26 + i)).map (· + 1)

/-- The engines of a product op that form columns: one whose run is empty idles (R151). -/
def Ctx.busyEngines (x : Ctx) (o : POp) : List Nat :=
  let es := enginesOf o
  let q := (x.prod o).q
  ((List.range es.length).zip es).filterMap fun e => if e.1 * ceilDiv q es.length < q then some e.2 else none

/-- The width class of a tensor's format (R51), of a MAPPED tensor that of the widest format of its palette (R72, R149);
0 for none. -/
def Ctx.widthClass (x : Ctx) (d : Desc) : Nat :=
  if d.fmt ≠ fmtMapped then fClass d.fmt else
  match (x.p.palettes.getD d.palette []).filter (· ≠ 0) with
  | [] => 0
  | f :: fs => fs.foldl (fun c g => min c (fClass g)) (fClass f)

/-- Groups, rows and columns of a product op. -/
def Ctx.node (x : Ctx) (o : POp) : Nat × Nat := nodeGroups (x.prod o).nk (o.f 50 47) (o.f 46 32)

/-- Tiles that a product op reads: (tensor, L). -/
def Ctx.productReads (x : Ctx) (o : POp) : List (Nat × Nat) :=
  let q := x.prod o
  let (g0, g1) := x.node o
  let pos (t : Nat) : Nat := if (x.p.tensorNum t).tokens then o.f 55 51 else 0
  let side (t : Nat) (tr : Bool) (o0 n : Nat) : List (Nat × Nat) := match x.shape t with
    | some d => (coverTiles d.n tr (32 * g0) (32 * g1) o0 (o0 + n) (pos t)).map fun L => (t, L)
    | none => []
  side q.a q.at_ (64 * o.f 25 10) (64 * o.f 9 0) ++ side q.b q.bt q.q0 q.q

/-- Tiles L of a run. -/
def runOf (t first n : Nat) : List (Nat × Nat) := (List.range n).map fun i => (t, first + i)

/-- Tiles that an op reads; `cfg` is the drain configuration in force. -/
def Ctx.reads (x : Ctx) (o : POp) (cfg : Option Nat) : List (Nat × Nat) :=
  let res (first n : Nat) : List (Nat × Nat) := match cfg with
    | some i =>
      let c := nth x.p.drains i
      (if c.on 5 || (c.on 9 && c.cross) then runOf c.res first n else []) ++ (if c.on 5 && c.resKind == 1 then runOf c.res2 first n else [])
    | none => []
  match o.opc with
  | 0x01 | 0x02 | 0x03 => x.productReads o
  | 0x09 => res (o.f 67 36) (o.f 35 20)
  | 0x0A => runOf (o.f 71 60) (o.f 59 28) (o.f 27 12) ++ res (o.f 59 28) (o.f 27 12)
  | 0x10 => runOf (o.f 71 60) (o.f 59 28) (o.f 27 12)
  | 0x12 => if bitOf o.pay 10 then [] else runOf (o.f 71 60) (o.f 59 28) (o.f 27 12)
  | 0x18 => runOf (o.f 64 53) (o.f 52 21) (o.f 20 5)
  | _ => []

/-- The code records that a drain op reads, in backward, or writes, in forward: (CODES tensor, L) (R164, R166). -/
def Ctx.codeTiles (x : Ctx) (o : POp) (cfg : Option Nat) (backward : Bool) : List (Nat × Nat) :=
  match cfg with
  | none => []
  | some i =>
    let c := nth x.p.drains i
    if !c.on 6 || c.backward != backward || decide (4096 ≤ c.codes) then [] else
    if o.opc = 0x09 then runOf c.codes (o.f 67 36) (o.f 35 20) else if o.opc = 0x0A then runOf c.codes (o.f 59 28) (o.f 27 12) else []

/-- Tiles that a drain op writes. -/
def Ctx.drained (x : Ctx) (o : POp) (cfg : Option Nat) : List (Nat × Nat) :=
  match cfg with
  | none => []
  | some i =>
    let out := (nth x.p.drains i).out
    if o.opc = 0x09 then runOf out (o.f 67 36) (o.f 35 20) else if o.opc = 0x0A then runOf out (o.f 59 28) (o.f 27 12) else []

/-- Memory that a drained tile occupies, by virtual address: its place in tile layout (R437), or its tensor's whole region
where the tensor is stored otherwise. -/
def Ctx.tileRange (x : Ctx) (c : DrainCfg) (t L : Nat) : List (Nat × Nat) :=
  let size := if c.pair then 131072 else 65536
  let tiled (r : Region) : Bool := c.pair || r.kind == 4 || (match x.shape t with
    | some d => d.fmt == fmtB32
    | none => false)
  ((x.p.regions.filter fun r => decide (r.tensor = t) && (decide (r.kind = 4) || decide (r.kind = 1)) && !r.inStore).map fun r =>
    if tiled r then (r.base + size * L, size) else (r.base, r.size))

/-- The ladle destinations of an op: a copy of a tensor by its region, and the tiles (R253). A LINK_SEND that a LINK_REDUCE
takes stores nothing (R194). -/
def Ctx.ladleWrites (x : Ctx) (core : Nat) (o : POp) : List (Nat × Nat × Nat) :=
  let near : Site := { core := some core, unit := dieUnit (core / 64), ev := 0 }
  let far : Site := { core := none, unit := linkEndDie (otherEnd (o.f 71 65)), ev := 0 }
  let key (r : Region) : Nat := 1 + r.base + 2 ^ 64 * (r.place + 256 * r.unit)
  let copy (k t : Nat) (s : Site) : Nat := match x.p.regionOf k t s with
    | some r => key r
    | none => 0
  let tiles (k : Nat) : List (Nat × Nat × Nat) :=
    (runOf (o.f 71 60) (o.f 59 28) (o.f 27 12)).map fun e => (copy k e.1 near, e.1, e.2)
  match o.opc with
  | 0x10 => tiles 2
  | 0x11 => tiles 1
  | 0x12 => if bitOf o.pay 10 then tiles 1 else tiles 3
  | 0x18 =>
    if x.plan.any fun e => decide (e.linkEnd = otherEnd (o.f 71 65)) && decide (e.side < 2) && decide (e.tensor = o.f 64 53) then [] else
    (match x.p.regionOf 1 (o.f 64 53) far with
    | some r => if r.die = some (unitIdx far.unit) then (runOf (o.f 64 53) (o.f 52 21) (o.f 20 5)).map fun e => (key r, e.1, e.2) else []
    | none => [])
  | _ => []

/-! ## Rules of one op (R52, R148, R151, R154, R156 to R158, R177, R189, R194, R195, R227, R245) -/

/-- Scale tiles of both operands that a product reads (R66, R158). -/
def Ctx.tileReads (x : Ctx) (o : POp) : Nat := (x.productReads o).length

/-- The least ac of a product op (R156 to R158). -/
def Ctx.productAc (x : Ctx) (o : POp) : Nat :=
  let q := x.prod o
  let (g0, g1) := x.node o
  let kr := min q.nk (32 * g1) - 32 * g0
  let P := 64 * o.f 9 0
  let fmt (t : Nat) : Nat := match x.shape t with
    | some d => d.fmt
    | none => 4
  let runner := ceilDiv ((x.p.layerNum q.layer).c * x.tileReads o) 8
  let cls (t : Nat) : Nat := match x.shape t with
    | some d => x.widthClass d
    | none => 4
  if o.opc = 1 then
    let c := max 1 (min (cls q.a) (cls q.b))
    ceilDiv (4 * kr) (128 * c) * (roundUp q.q 128 / 128) * max P 128 + runner
  else
    let ka := if q.at_ || q.bt then 128 else 64
    let qa := if q.bt then 128 else 64
    let pb := if q.at_ then 128 else 1
    let ne := max 1 (enginesOf o).length
    let mul := (if fmt q.a = fmtBf16 then 1 else 0) + (if fmt q.b = fmtBf16 then 1 else 0) + 1
    ceilDiv (roundUp kr ka / 64 * (roundUp q.q qa / 64) * max (roundUp P pb) 64 * mul) ne + runner

/-- Are tiles of a tensor within its extents (R245)? -/
def Ctx.tilesIn (x : Ctx) (t first n : Nat) : Bool := match x.shape t with
  | some d => decide (first + n ≤ tileCount d.n)
  | none => true

/-- May an op write a tensor: not a frozen one (R177)? -/
def Ctx.writable (x : Ctx) (t : Nat) : Bool := !(x.p.tensorNum t).frozen

/-- The rules of an op taken alone; `slot` is its slot, `wgEnd` the first slot of REDUCE, `cfg` the configuration in
force. -/
def Ctx.opRule (x : Ctx) (o : POp) (slot wgEnd : Nat) (cfg : Option Nat) : Bool :=
  let c := cfg.map fun i => nth x.p.drains i
  match o.opc with
  | 0x01 | 0x02 | 0x03 =>
    let q := x.prod o
    let cls (t : Nat) : Bool := match x.shape t with
      | some d => decide (x.widthClass d ≠ 0)
      | none => true
    let operand (t : Nat) : Bool := match x.shape t with
      | some d => d.fmt != fmtB32
      | none => true
    let ext (t : Nat) (axis : Nat) : Nat := match x.shape t with
      | some d => nth d.n axis
      | none => 2 ^ 40
    let rows := ext q.a (if q.at_ then 0 else 1)
    let kEnd := min q.nk (32 * (x.node o).2)
    let inside := decide (64 * (o.f 25 10 + o.f 9 0) < rows + 64) && decide (q.q0 + q.q ≤ ext q.b (if q.bt then 0 else 1))
      && decide (kEnd ≤ ext q.a (if q.at_ then 1 else 0)) && decide (kEnd ≤ ext q.b (if q.bt then 1 else 0))
    let rowMax := if o.opc = 1 then (if bitOf o.pay 30 then 128 else 256) else if bitOf o.pay 30 then 64 else 128
    decide (o.f 71 56 < x.p.products.length) && decide (o.f 50 47 ≤ 10) && decide ((x.node o).1 < ceilDiv q.nk 32)
    && decide (1 ≤ q.q) && decide (1 ≤ o.f 9 0) && decide (64 * o.f 9 0 ≤ rowMax) && inside && decide (x.productAc o ≤ o.acl)
    && operand q.a && operand q.b
    && (if o.opc = 1 then cls q.a && cls q.b && !q.at_ && !q.bt && decide (q.q ≤ 128) else decide (q.q ≤ 64 * (enginesOf o).length))
    && (decide (o.opc ≠ 3) || (decide (slot < wgEnd) && x.writable q.out))
  | 0x08 => decide (o.f 71 56 < x.p.drains.length)
  | 0x09 => (match c with
    | some c => x.tilesIn c.out (o.f 67 36) (o.f 35 20) && x.writable c.out && !c.sample
    | none => false)
  | 0x0A => (match c with
    | some c =>
      let same : Bool := match x.shape (o.f 71 60), x.shape c.out with
        | some a, some b => decide (a.n = b.n)
        | _, _ => true
      same && x.tilesIn (o.f 71 60) (o.f 59 28) (o.f 27 12) && x.writable c.out && (!c.sample || (x.p.tensorNum (o.f 71 60)).tokens) && !c.pair
    | none => false)
  | 0x10 | 0x11 | 0x12 =>
    x.tilesIn (o.f 71 60) (o.f 59 28) (o.f 27 12)
    && (x.writable (o.f 71 60) || decide (o.opc = 0x10) || (decide (o.opc = 0x12) && !bitOf o.pay 10))
    && (x.p.regions.any fun r => decide (r.tensor = o.f 71 60) && decide (r.kind = if o.opc = 0x12 then 3 else 2))
  | 0x18 => x.tilesIn (o.f 64 53) (o.f 52 21) (o.f 20 5) && x.writable (o.f 64 53)
  | 0x19 => (match x.plan[o.f 71 48]? with
    | some e => decide (e.side ≤ 1)
    | none => false)
  | 0x1A => (match x.plan[o.f 71 48]? with
    | some e => decide (e.side = 2) && decide (40 + ceilDiv (16384 * e.tiles) (if e.pairs then 32 else 64) ≤ o.acl)
    | none => false)
  | _ => true

/-! ## Rules of a slot and of a program (R13, R103, R155, R223, R227, R229, R253) -/

/-- An op with its core, its slot's number and the drain configuration in force. -/
structure Placed where
  core : Nat
  o    : POp
  cfg  : Option Nat
  deriving DecidableEq, Repr, Inhabited

/-- Does an op take effect under an assignment of the flags? -/
def POp.takes (o : POp) (asg : List (Nat × Nat)) : Bool :=
  match o.guard with
  | some (f, m) => bitOf m (look 0 asg f)
  | none => true

/-- All assignments of 0, 1 and 2 to flags. -/
def assignments : List Nat → List (List (Nat × Nat))
  | [] => [[]]
  | f :: fs => (assignments fs).flatMap fun a => [(f, 0) :: a, (f, 1) :: a, (f, 2) :: a]

/-- Runs the rules of one core program under an assignment: banks written and drained in turn, a configuration before every
drain, non-decreasing offsets, window, no undrained bank at a suspension point. Answers the ops that take effect, by slot,
or none. -/
def Ctx.coreRun (x : Ctx) (core wgEnd : Nat) (asg : List (Nat × Nat)) : List (List POp) → Nat → List (Nat × Nat) → Option Nat → List (List Placed) → Option (List (List Placed))
  | [], _, _, _, acc => some acc.reverse
  | sl :: rest, n, full, cfg, acc =>
    let ops := sl.filter fun o => o.takes asg
    let run := ops.foldl (fun (r : Bool × List (Nat × Nat) × Option Nat × Nat × List Placed) o =>
      let (ok, full, cfg, last, ps) := r
      let cfg' := if o.opc = 0x08 then some (o.f 71 56) else cfg
      let res := resourcesOf x core o
      let banks := (x.busyEngines o).map fun e => (e, o.f 31 31)
      let ok := ok && decide (last ≤ o.aco) && (res.isEmpty || decide (o.aco + o.acl ≤ x.window)) && x.opRule o n wgEnd cfg
      let (ok, full) :=
        if o.isProduct then (ok && banks.all (fun b => decide (b ∉ full) && ps.all fun q => q.o.opc != 0x09 || decide ((q.o.f 71 69, q.o.f 68 68) ≠ b)), full ++ banks)
        else if o.opc = 0x09 then (ok && decide ((o.f 71 69, o.f 68 68) ∈ full), full.filter fun b => b ≠ (o.f 71 69, o.f 68 68))
        else (ok, full)
      (ok, full, cfg', o.aco, ps ++ [⟨core, o, cfg⟩])) (true, full, cfg, 0, [])
    let stops := sl.any fun o => o.opc = 0x29
    if !run.1 ∨ (stops ∧ !run.2.1.isEmpty) then none else
    x.coreRun core wgEnd asg rest (n + 1) run.2.1 run.2.2.1 (run.2.2.2.2 :: acc)

/-- Do two ops overlap in ac? -/
def acOverlap (a b : POp) : Bool := overlaps a.aco a.acl b.aco b.acl

/-- The rules of one slot over all the core programs of a template. -/
def Ctx.slotRule (x : Ctx) (ps : List Placed) : Bool :=
  let idx := (List.range ps.length).zip ps
  let pairs := idx.flatMap fun a => (idx.filter fun b => decide (a.1 < b.1)).map fun b => (a.2, b.2)
  let drained := ps.flatMap fun q => x.drained q.o q.cfg
  let node (q : Placed) : PlanEntry := x.plan.getD (q.o.f 71 48) default
  let memory := (ps.flatMap fun q => match q.cfg with
      | some i => (x.drained q.o q.cfg).flatMap fun e => x.tileRange (nth x.p.drains i) e.1 e.2
      | none => []) ++
    (ps.filter fun q => q.o.opc = 0x1A).map fun q => ((node q).dest, (node q).tiles * nodeTile (node q).pairs)
  pairs.all (fun e =>
    let shared := (resourcesOf x e.1.core e.1.o).any fun r => decide (r ∈ resourcesOf x e.2.core e.2.o)
    let clash := (x.ladleWrites e.1.core e.1.o).any fun w => decide (w ∈ x.ladleWrites e.2.core e.2.o)
    !((shared || clash) && acOverlap e.1.o e.2.o))
  && ps.all (fun q => (x.reads q.o q.cfg).all fun t => decide (t ∉ drained))
  && ps.all (fun q => (x.codeTiles q.o q.cfg true).all fun t => ps.all fun r => decide (t ∉ x.codeTiles r.o r.cfg false))
  && ps.all (fun q => if q.o.opc = 0x19 ∨ q.o.opc = 0x1A then
      let e := node q
      let n := e.tiles * nodeTile e.pairs
      memory.all fun m => !overlaps m.1 m.2 e.loc (if q.o.opc = 0x1A then 2 * n else n)
    else true)
  && ps.all (fun q => if q.o.opc = 0x19 then
      let e := node q
      ps.any fun r => decide (r.o.opc = 0x18) && decide (dieUnit (r.core / 64) = linkEndDie (otherEnd e.linkEnd)) && decide (r.o.f 71 65 = otherEnd e.linkEnd) && decide (r.o.f 64 53 = e.tensor) && decide (r.o.f 20 5 = e.tiles)
    else true)

/-- Transposes the slots of several programs: slot by slot, the ops of all. -/
def bySlot (n : Nat) (l : List (List (List Placed))) : List (List Placed) := (List.range n).map fun k => (l.map fun s => s.getD k []).flatten

/-- The rules of the core programs of one template of a variant. -/
def Ctx.templateRule (x : Ctx) (t : Template) (ps : List CoreProg) : Bool :=
  let wgEnd := 1 + t.ramp + t.steady + t.flush
  let n := wgEnd + t.reduce
  let flags := sortNat (ps.flatMap fun c => c.slots.flatMap fun sl => sl.filterMap fun o => o.guard.map (·.1))
  let signals := ps.flatMap fun c => c.slots.flatMap fun sl => (sl.filter fun o => o.opc = 0x21).map fun o => (o.f 71 68, o.f 67 58)
  let waits := ps.flatMap fun c => c.slots.flatMap fun sl => (sl.filter fun o => o.opc = 0x20).map fun o => (c.core / 64, o.f 71 62)
  let points (c : CoreProg) : List (Nat × Nat) :=
    ((List.range c.slots.length).zip c.slots).flatMap fun e => (e.2.filter fun o => o.opc = 0x29).map fun o => (e.1, o.f 71 56)
  ps.all (fun c => decide (c.slots.length = n) && c.fromTick) && waits.all (fun w => decide (w ∈ signals))
  && (match ps with
    | c :: rest => rest.all fun d => (points c).all (fun e => decide (e ∈ points d)) && (points d).all fun e => decide (e ∈ points c)
    | [] => true)
  && (assignments flags).all fun asg =>
    match allSome (ps.map fun c => x.coreRun c.core wgEnd asg c.slots 0 [] none []) with
    | none => false
    | some l => (bySlot n l).all x.slotRule

/-- The rules of an update-unit program (R221, R223, R233). -/
def Ctx.unitRule (x : Ctx) (u_ pour : Nat) (ops : List POp) : Bool :=
  let slots := slotsOf ops
  let ups := ops.filter fun o => o.opc = 0x30
  decide (slots.length = pour) && startsAtTick ops && slots.all (fun sl =>
    let idx := (List.range sl.length).zip sl
    idx.all (fun a => idx.all fun b => decide (b.1 ≤ a.1) || (decide (a.2.aco ≤ b.2.aco) && !((resourcesOf x u_ a.2 != []) && (resourcesOf x u_ b.2 != []) && acOverlap a.2 b.2)))
    && sl.all fun o => (resourcesOf x u_ o).isEmpty || decide (o.aco + o.acl ≤ x.window))
  && ups.all (fun o => (x.p.updOf (o.f 71 62)).isSome && !(x.p.regions.any fun r =>
      decide (r.kind = 7) && decide (x.p.layerOf r.tensor = o.f 71 62) && (x.p.tensorNum r.tensor).frozen))
  && (let passes := ups.map fun o => (o.f 71 62, o.f 61 61)
      let idx := (List.range passes.length).zip passes
      let passing (l : Nat) : Bool := match x.p.updOf l with
        | some (prog, _, _) => hasPass prog
        | none => false
      idx.all fun a => idx.all fun b => !(decide (a.1 < b.1) && decide (a.2.1 = b.2.1) && passing a.2.1 && decide (b.2.2 < a.2.2)))

/-- Two UPDATE ops that name the same parameters of a layer in one step and pass (R178). -/
def updatesClash (a b : POp) : Bool :=
  decide (a.f 71 59 = b.f 71 59) && overlaps (a.f 58 21) (a.f 20 0) (b.f 58 21) (b.f 20 0)

/-- The rules on the UPDATE ops of all units together: no master region named twice (R178), and a layer whose program holds
PASS on one memory-side die (R233). -/
def Ctx.updateRule (x : Ctx) (us : List (Nat × List POp)) : Bool :=
  (let own (e : Nat × List POp) : List POp := e.2.filter fun o => o.opc = 0x30
   let apart (ups : List POp) : Bool :=
     let idx := (List.range ups.length).zip ups
     idx.all fun a => idx.all fun b => decide (b.1 ≤ a.1) || !updatesClash a.2 b.2
   (us.filter fun e => e.1 < 16).all (fun e => apart (own e)) && apart ((us.filter fun e => 16 ≤ e.1).flatMap own))
  && (List.range x.p.nLayers).all fun l => match x.p.updOf l with
    | some (prog, _, _) => !hasPass prog || decide (((x.p.trained l).flatMap fun t =>
        (x.p.regions.filter fun r => decide (r.kind = 7) && decide (r.tensor = t)).map (·.place)).dedup.length ≤ 1)
    | none => true

/-- The rules on SAND_IDs of drain and update outputs (R133; log 103) and weights (R178). Coordinates of every tensor start at element 0,
so the extents of any two overlap. -/
def Ctx.sharedRules (x : Ctx) (wg : List Product) : Bool :=
  let ds := x.p.drains
  let named (f : DrainCfg → Bool) : List (Nat × Nat) := (ds.filter f).map fun a => (a.sandId, a.out)
  let updated := ((List.range x.p.nLayers).flatMap x.p.trained).filter fun t => Config.updateSr x.p.hash t && !(x.p.tensorNum t).vecCopy
  let clash (l : List (Nat × Nat)) : Bool := l.any fun a => l.any fun b => decide (a.1 = b.1) && decide (a.2 ≠ b.2)
  !clash (named DrainCfg.sr ++ updated.map fun t => ((Config.updateSand x.p.hash t).toNat, t)) && !clash (named (·.sample)) && wg.all fun a => wg.all fun b => decide (a.out ≠ b.out) || decide (a.layer = b.layer)

/-- Every program of one variant (check 10). -/
def Ctx.variantRule (x : Ctx) (s : State) (v : Nat × Nat) (sec : List Byte) : Bool :=
  let keys := coreKeys x.p.templates.length v
  let fenced (d : Nat) : Bool := s.fencedReg (dieUnit d)
  let cores := ((List.range keys.length).zip keys).filter fun e => !fenced (e.2.2 / 64)
  let raw := cores.map fun e => (e.2, progOps sec e.1)
  let units := (List.range 24).map fun i => (i, progOps sec (keys.length + i))
  let idle := ((List.range keys.length).zip keys).all (fun e => !fenced (e.2.2 / 64) || decide (u sec (16 * e.1 + 8) 4 = 0))
    && (List.range 24).all fun i => !(if i < 16 then fenced i else s.fencedReg (mdUnit (i - 16))) || decide (u sec (16 * (keys.length + i) + 8) 4 = 0)
  let dirOk := (List.range (keys.length + 24)).all fun i => zeroBytes sec (16 * i + 12) 4 && decide (u sec (16 * i) 8 + 16 * u sec (16 * i + 8) 4 ≤ sec.length)
  let live := units.filter fun e => !(if e.1 < 16 then fenced e.1 else s.fencedReg (mdUnit (e.1 - 16)))
  dirOk && idle && raw.all (fun e => e.2.all fun o => o.legal false) && live.all (fun e => e.2.all fun o => o.legal true)
  && match allSome (raw.map fun e => (expandProg e.2).map fun ops => (⟨e.1.1, e.1.2, slotsOf ops, startsAtTick ops⟩ : CoreProg)), allSome (live.map fun e => (expandProg e.2).map fun ops => (e.1, ops)) with
    | some cs, some us =>
      let wg := cs.flatMap fun c => c.slots.flatMap fun sl => (sl.filter fun o => o.opc = 3).map x.prod
      x.sharedRules wg && x.updateRule us && us.all (fun e => x.unitRule e.1 x.p.pourSlots e.2)
      && ((List.range x.p.templates.length).zip x.p.templates).all fun t => x.templateRule t.2 (cs.filter fun c => c.template = t.1)
    | _, _ => false

/-- The flags that the core programs of a variant test (R228). -/
def testedFlags (templates : Nat) (v : Nat × Nat) (sec : List Byte) : List Nat :=
  (List.range (coreKeys templates v).length).flatMap fun i =>
    ((progOps sec i).filter fun o => o.opc = 0x28).map fun o => o.f 71 60

/-- The ladles that the ops of a program section name (R222, R348). -/
def ladlesNamed (keys : List (Nat × Nat)) (sec : List Byte) : List Nat :=
  sortNat (((List.range keys.length).zip keys).flatMap fun e =>
    ((progOps sec e.1).filter fun o => decide (0x10 ≤ o.opc ∧ o.opc ≤ 0x12)).map fun o => 2 * (e.2.2 / 64) + (if bitOf o.pay 11 then 1 else 0))

/-- The ladles that the programs of a variant name. -/
def Pattern.ladlesOf (p : Pattern) (v : Nat) : List Nat :=
  ladlesNamed (coreKeys p.templates.length (nth p.variants v)) (p.programs.getD v [])

/-- Tensors that a STASH_GET, a SPILL that reads or a LINK_SEND of some variant writes (R190, R191, R253). -/
def Pattern.movedTensors (p : Pattern) : List Nat :=
  ((List.range p.variants.length).flatMap fun v => (List.range (coreKeys p.templates.length (nth p.variants v)).length).flatMap fun i =>
    (progOps (p.programs.getD v []) i).filterMap fun o =>
      if o.opc = 0x11 ∨ (o.opc = 0x12 ∧ bitOf o.pay 10) then some (o.f 71 60) else if o.opc = 0x18 then some (o.f 64 53) else none).dedup

/-- Does some RECOMPUTE_ALT test the flag of every riser region (R228)? -/
def riserFlagsOk (p : Pattern) (secs : List ((Nat × Nat) × List Byte)) : Bool :=
  let tested := secs.flatMap fun e => testedFlags p.templates.length e.1 e.2
  (p.regions.filter fun r => r.kind = 2).all fun r => decide (fld r.alt 30 0 ∈ tested)

end Sys2Proof.Machine
end

