-- ==== Sys2Proof/Machine/Placement.lean ====
section
/-! DEFINITION. Placement of a pattern on physical units: variants, remap, the change of variant, frame retirement and the
riser check (09 R225, R230 to R232, R236, 08 R191, 14 R347, R348). -/

namespace Sys2Proof.Machine

/-! ## Remap words (R230, R231) -/

/-- The state as it stands once the fences in progress are complete: placement already counts their units as fenced. -/
def State.settled (s : State) : State := { s with fences := { s.fences with fenced := s.fences.marked } }

/-- The eight unit fields of a remap word. -/
def wordFields (w : Nat) : List Nat := (List.range 8).map fun i => fld w (3 * i + 2) (3 * i)

/-- A remap word with other unit fields. -/
def wordOf (w : Nat) (fs : List Nat) : Nat := sumNat ((List.range 8).map fun i => nth fs i * 2 ^ (3 * i)) + w / 2 ^ 24 * 2 ^ 24

/-- Exchanges two fields. -/
def swapFields (fs : List Nat) (i k : Nat) : List Nat := setAt (setAt fs i fun _ => nth fs k) k fun _ => nth fs i

/-- Remap over the logical positions: each unusable unit is exchanged with the first spare that is usable (R231). -/
def remapFields (bad : Nat → Bool) (act : Nat) : List Nat → List Nat → Option (List Nat)
  | [], fs => some fs
  | i :: is, fs =>
    if !bad (nth fs i) then remapFields bad act is fs else
    match ((List.range 8).filter fun k => decide (act ≤ k)).find? fun k => !bad (nth fs k) with
    | none => none
    | some k => remapFields bad act is (swapFields fs i k)

/-- Remap of one word; none is NOT_COVERED. -/
def remapWord (bad : Nat → Bool) (w : Nat) : Option Nat :=
  (remapFields bad (fld w 27 24) (List.range (fld w 27 24)) (wordFields w)).map (wordOf w)

/-- Is a cluster usable for a variant with so many active cores (R225)? -/
def State.usableCluster (s : State) (actCores d k : Nat) : Bool :=
  !s.fencedReg (clusterUnit (8 * d + k)) &&
    decide (actCores ≤ ((List.range 8).filter fun c => !s.fencedReg (coreUnit (64 * d + 8 * k + c))).length)

/-- Does a variant (ACT_CORES, ACT_CLUSTERS) cover the fence state (R225)? The fingerprint is compared apart. -/
def State.covers (s : State) (v : Nat × Nat) : Bool :=
  (List.range 16).all fun d => s.fencedReg (dieUnit d) ||
    decide (v.2 ≤ ((List.range 8).filter fun k => s.usableCluster v.1 d k).length)

/-- Remap of the words of one die: its die word, then the cluster words of the clusters in logical positions. -/
def State.placeDie (s : State) (actCores d : Nat) (words : List Nat) : Option (List Nat) :=
  if s.fencedReg (dieUnit d) then some words else
  match remapWord (fun k => !s.usableCluster actCores d k) (nth words d) with
  | none => none
  | some w =>
    ((List.range (fld w 27 24)).map fun j => fld w (3 * j + 2) (3 * j)).foldl (fun acc k => acc.bind fun ws =>
      (remapWord (fun c => s.fencedReg (coreUnit (64 * d + 8 * k + c))) (nth ws (16 + 8 * d + k))).map fun cw =>
        setAt ws (16 + 8 * d + k) fun _ => cw) (some (setAt words d fun _ => w))

/-- Remap of all words of a variant. -/
def State.placeWords (s : State) (actCores : Nat) (words : List Nat) : Option (List Nat) :=
  (List.range 16).foldl (fun acc d => acc.bind (s.placeDie actCores d)) (some words)

/-- The lowest-numbered variant that covers the fence state, placed from its words in the image (R232). -/
def State.chooseVariant (s : State) (variants : List (Nat × Nat)) (remap0 : List (List Nat)) : Option (Nat × List Nat) :=
  (List.range variants.length).findSome? fun i =>
    let v := nth variants i
    if s.covers v then (s.placeWords v.1 (nth remap0 i)).map fun ws => (i, ws) else none

/-- The placement that the fence state asks of the loaded pattern: none where the fingerprint no longer matches or no
variant covers it (R232, R236). -/
def State.replaced (s : State) (p : Pattern) : Option (Nat × List Nat) :=
  let s := s.settled
  if s.fingerprint ≠ p.fp then none else
  match s.placeWords (nth p.variants p.variant).1 p.words with
  | some ws => some (p.variant, ws)
  | none => s.chooseVariant p.variants p.remap0

/-! ## Moving contents -/

/-- Copies a range as a command copy does: words that cannot be corrected arrive poisoned (R279, R347). -/
def State.copyRange (s : State) (src dst n : Nat) : State :=
  let (r, s) := s.readMem src n
  (s.writeMem dst r.bytes).2.poisonRange dst (r.found.map fun f => !f.usable)

/-- Moves the contents of store regions whose logical units changed place (R231): each is read from the old placement
before any is written. -/
def State.moveStores (s : State) (old new : Pattern) : State :=
  let moved := old.regions.filter fun r => r.inStore && decide (old.regionAt r ≠ new.regionAt r)
  let (data, s) := moved.foldl (fun (acc : List (Nat × Read) × State) r =>
    let (d, s) := acc.2.readMem (old.regionAt r).1 r.size
    (acc.1 ++ [((new.regionAt r).1, d)], s)) ([], s)
  data.foldl (fun s e => (s.writeMem e.1 e.2.bytes).2.poisonRange e.1 (e.2.found.map fun f => !f.usable)) s

/-- Applies the fence state to the loaded pattern: its words and variant change and its store regions move; without a
placement the pattern is marked as not fitting the geometry (R231, R232). -/
def State.replacePattern (s : State) : State :=
  match s.heat.pattern with
  | none => s
  | some p =>
    match s.replaced p with
    | none => { s with heat := { s.heat with badGeom := true } }
    | some (v, ws) =>
      let q := { p with variant := v, words := ws, ladles := p.ladlesOf v }
      let s := if q.words = p.words then s else s.moveStores p q
      { s with heat := { s.heat with pattern := some q } }

/-- Does the running pattern name a fenced ladle in any op (R348)? -/
def State.ladleLost (s : State) : Bool :=
  match s.heat.pattern with
  | some p => p.ladles.any fun i => s.fencedNow (ladleUnit i)
  | none => false

/-! ## The riser check (R191) -/

/-- The frames of a region: (virtual frame, physical frame). -/
def State.regionFrames (s : State) (r : Region) : List (Nat × Nat) :=
  s.mem.frames.filter fun f => decide (r.base / 65536 ≤ f.1) && decide (f.1 < r.base / 65536 + r.frameCount)

/-- Does a region fall short of its plan: a frame is missing, retired without a spare, or in a fenced unit? -/
def State.fallsShort (s : State) (r : Region) : Bool :=
  !r.inStore && (decide ((s.regionFrames r).length < r.frameCount) ||
    (s.regionFrames r).any fun f => decide (65536 * f.2 ∈ s.fences.retired) || !s.rangePopulated (65536 * f.2) 65536)

/-- One riser region: the spill variant, else rematerialisation, else no fall-back. -/
def State.checkRiser (s : State) (p : Pattern) (r : Region) : State :=
  if !s.fallsShort r then s else
  let flag := fld r.alt 11 0
  let cur := look 0 s.heat.alts flag
  let spillOk := !s.fallsShort (nth p.regions r.spill)
  if cur = 2 ∨ (cur = 1 ∧ spillOk) then s else
  if spillOk then
    State.raise { s with heat := { s.heat with alts := put s.heat.alts flag 1 } } evSpill noUnit (p.layerOf r.tensor) 0
  else if bitOf r.alt 31 then { s with heat := { s.heat with alts := put s.heat.alts flag 2 } }
  else { s with heat := { s.heat with noStash := true } }

/-- The riser check of the loaded pattern. -/
def State.riserCheck (s : State) : State :=
  match s.heat.pattern with
  | some p => (p.regions.filter fun r => r.kind = 2).foldl (fun s r => s.checkRiser p r) s
  | none => s

/-! ## Frame retirement (R347) -/

/-- The placement that a frame lies in (R219, R347). -/
def State.placeOf (s : State) (a : Nat) : Nat :=
  if a < 256 * gib then a / (16 * gib) else
  match (List.range 8).find? fun m => decide (s.localBase m ≤ a) && decide (a < s.localBase m + (s.actOf m).length * s.lpLocal) with
  | some m => 16 + m
  | none => 0xFF

/-- Retires a frame: its content moves to the lowest spare frame of its placement and its leaves point there. Without a
spare its leaves become invalid; outside the riser that ends the operation with ST_FENCED. -/
def State.retireFrame (s : State) (f : Nat) : State :=
  if f ∈ s.fences.retired then s else
  let s := s.markRetired f
  let users := s.mem.frames.filter fun e => e.2 = f / 65536
  let used := s.mem.frames.map fun e => 65536 * e.2
  match s.takeFree used 1 (s.placeFrames (s.placeOf f)) with
  | x :: _ =>
    let s := s.copyRange f x 65536
    let s := { s with mem := { s.mem with frames := s.mem.frames.map fun e => if e.2 = f / 65536 then (e.1, x / 65536) else e } }
    users.foldl (fun s e => s.mapFrame (65536 * e.1) (leafEntry true true false x)) s
  | [] =>
    let s := users.foldl (fun s e => s.mapFrame (65536 * e.1) 0) s
    let hit (r : Region) : Bool := !r.inStore && r.kind != 2 && (s.regionFrames r).any fun e => decide (e.2 = f / 65536)
    match s.heat.pattern with
    | some p => if p.regions.any hit then { s with heat := { s.heat with badFence := true } } else s
    | none => s

/-- Retires due frames, in ascending address. -/
def State.retireFrames (s : State) (l : List Nat) : State := (sortNat l).foldl State.retireFrame s

/-- Without a RUN_HEATS operation an S2 reaction acts at once: the frames that are due are retired at the end of the
command that made them due, and riser regions that fall short take their fall-backs (R335, R347). -/
def State.settleFrames (s : State) : State :=
  let l := s.fences.dueFrames ++ s.fences.laterFrames
  if s.running || l.isEmpty then s else
  (State.retireFrames { s with fences := { s.fences with dueFrames := [], laterFrames := [] } } l).riserCheck

/-- The end of a command that can raise events: the reset that one of severity S5 is due (R338), or the frames that are
retired at once. -/
def State.settle (s : State) : State := if s.events.resetDue.isSome then s.settleReset else s.settleFrames

end Sys2Proof.Machine
end

