-- ==== Sys2Proof/Machine/Load.lean ====
section
/-! DEFINITION. LOAD_PATTERN: its checks in order and its effects (09 R234, R235; the parts that it reads are in Image and
Programs). -/

namespace Sys2Proof.Machine

/-! ## The checks of R234 -/

/-- The geometry fingerprint that an image was compiled for. -/
def imageFp (b : List Byte) : List Byte := slice b 0x18 16

/-- The variants of an image: ACT_CORES and ACT_CLUSTERS (R224). -/
def variantsOf (b : List Byte) : List (Nat × Nat) := (List.range (nVariants b)).map fun i => (u b (0x600 + 8 * i) 1, u b (0x601 + 8 * i) 1)

/-- The pattern that an image describes, before placement. -/
def patternOf (b : List Byte) (len : Nat) (t : Tables) (rs : List Region) : Pattern :=
  let vs := variantsOf b
  let il := min len (imageLen b)
  { hash := sha384 (slice b 0 il), verMinor := u b 0xA 2, fp := imageFp b, slotLen := u b 0x2C 4, reserve := u b 0x30 4,
    pourSlots := u b 0x34 4, recompMax := u b 0x38 2, nLayers := u b 0x3A 2, classes := classesOf b, templates := templatesOf b,
    variants := vs, products := t.products, drains := t.drains, funcs := t.funcs, derivs := t.derivs, chans := t.chans,
    colSums := t.colSums, palettes := t.palettes, maps := t.maps, tnum := t.tnum, lnum := t.lnum, est0 := t.est0,
    updTabs := t.updTabs, vecs := t.vecs, chanDir := t.chanDir, regions := rs,
    plans := (List.range vs.length).map fun i => planEntries (sectionOf b 4 i),
    remap0 := (List.range vs.length).map fun i => remapBlock (sectionOf b 5 0) i, words := [], variant := 0,
    updDir := updDirOf (u b 0x3A 2) (sectionOf b 6 0), updProgs := sectionOf b 6 0,
    programs := (List.range vs.length).map fun i => sectionOf b 1 i, ladles := [] }

/-- Check 9 after the header: tables, memory plan with its frames, reduction plans, remap, updates. -/
def State.tablesOk (s : State) (b : List Byte) : Option (Tables × List Region × List (Nat × Nat)) :=
  let layers := u b 0x3A 2
  let plan := sectionOf b 3 0
  let rs := regionsOf plan
  match parseTables (nth s.regs.defaults.active 0) s.heat.shapes layers (sectionOf b 2 0), s.placeRegions rs with
  | some t, some frames =>
    let plans := (List.range (nVariants b)).all fun i =>
      let sec := sectionOf b 4 i
      decide (sec.length % 32 = 0) && (List.range (sec.length / 32)).all fun k => planEntryOk s.heat.shapes t.products (slice sec (32 * k) 32)
    if headerRanges b && classTables b && planOk plan rs && plans && remapOk s (variantsOf b) (sectionOf b 5 0)
        && updatesOk layers t.updTabs.length (sectionOf b 6 0) then some (t, rs, frames) else none
  | _, _ => none

/-- Check 10 over every variant. -/
def State.programsOk (s : State) (b : List Byte) (p : Pattern) : Bool :=
  riserFlagsOk p ((List.range p.variants.length).map fun i => (nth p.variants i, sectionOf b 1 i)) &&
  (List.range p.variants.length).all fun i =>
    Ctx.variantRule { p := p, shapes := s.heat.shapes, plan := nth p.plans i, window := p.slotLen - p.reserve } s (nth p.variants i)
      (sectionOf b 1 i)

/-- Do the zero points keep the bound of R55 in the tables that the pattern's FU tensors name (R61)? -/
def Pattern.zerosOk (p : Pattern) (shapes : List (Nat × List Byte)) : Bool := shapes.all fun x =>
  let d := descOf x.2
  !isFU d.fmt || match p.chanTable d.chan with
    | some t => zerosFit d.fmt t
    | none => true

/-- Checks 4 to 10: the status, and on ST_OK the pattern as placed with its frames. Fences in progress count as complete
(log 27). -/
def State.checkImage (s0 : State) (b : List Byte) (len : Nat) : Nat × Option (Pattern × List (Nat × Nat)) :=
  let s := s0.settled
  if !headerOk b len then (stCorrupt, none) else
  if !signatureOk (fld s.regs.policy 9 8) s.mbx.keys b len then (stRights, none) else
  if u b 0x28 4 ≠ 1 then (stCorrupt, none) else
  let vs := variantsOf b
  if imageFp b ≠ s.fingerprint ∨ !vs.any s.covers then (stGeometry, none) else
  if !directoryOk b then (stCorrupt, none) else
  match s.tablesOk b with
  | none => (stCorrupt, none)
  | some (t, rs, frames) =>
    let p := patternOf b len t rs
    if !p.zerosOk s.heat.shapes || !s.programsOk b p then (stCorrupt, none) else
    match s.chooseVariant vs p.remap0 with
    | none => (stGeometry, none)
    | some (v, ws) =>
      (stOk, some ({ p with variant := v, words := ws, ladles := p.ladlesOf v }, frames))

/-! ## The effects of R235 -/

/-- The tensors that a drain writes in an F-format or a G-format, ascending, with the configuration of each (R235). -/
def trackedTensors (p : Pattern) (shape : Nat → Option Desc) : List (Nat × DrainCfg × Desc) :=
  (sortNat (p.drains.map (·.out))).filterMap fun t =>
    match p.drains.find? (fun c => c.out = t), shape t with
    | some c, some d => if !c.pair && (isF d.fmt || isG d.fmt) then some (t, c, d) else none
    | _, _ => none

/-- How many tracking indices a tensor has (R105). -/
def tauCount (mode : Nat) (n : List Nat) : Nat :=
  match mode with
  | 0 => 1
  | 1 => (tilesOf n).1 * (tilesOf n).2
  | _ => tileCount n

/-- The keys (tensor, tracking index) in the order of the initial-estimates table. -/
def estKeys (p : Pattern) (l : List (Nat × DrainCfg × Desc)) : List (Nat × Nat) :=
  l.flatMap fun e => (List.range (tauCount (p.tensorNum e.1).trackMode e.2.2.n)).map fun k => (e.1, k)

/-- The initial estimates of a pattern. -/
def initialEst (p : Pattern) (l : List (Nat × DrainCfg × Desc)) : List ((Nat × Nat) × Int) :=
  let ks := estKeys p l
  ((List.range ks.length).zip ks).map fun e => (e.2, p.est0.getD e.1 0)

/-- Are the tile extents of two tensors equal? -/
def sameTiles (a b : List Nat) : Bool :=
  decide (tilesOf a = tilesOf b) && decide (nth a 2 = nth b 2) && decide (nth a 3 = nth b 3) && decide (nth a 4 = nth b 4)

/-- The estimates after a load: those held are kept where SAND_ID, TRACK_MODE and tile extents agree (R235). -/
def State.estAfterLoad (s : State) (p : Pattern) (reset : Bool) : List ((Nat × Nat) × Int) :=
  let shape (t : Nat) : Option Desc := (s.heat.shapes.find? fun e => e.1 = t).map fun e => descOf e.2
  let new := trackedTensors p shape
  let init := initialEst p new
  if reset then init else
  match s.heat.pattern with
  | none => init
  | some q =>
    let old := trackedTensors q s.shapeOf
    init.map fun e =>
      match new.find? (fun x => x.1 = e.1.1) with
      | none => e
      | some n =>
        match old.find? (fun o => decide (o.2.1.sandId = n.2.1.sandId) && decide ((q.tensorNum o.1).trackMode = (p.tensorNum n.1).trackMode) && sameTiles o.2.2.n n.2.2.n) with
        | some o => (e.1, look e.2 s.heat.est (o.1, e.1.2))
        | none => e

/-- Leaves the fleet: a LOAD_PATTERN that completes with ST_OK, FLEET_LEAVE, a reset (R316). -/
def State.leaveFleet (s : State) : State := { s with fleet := { s.fleet with member := none, exch := exch0, left := none } }

/-- The stretch controller starts again with every term at 0 (R428). -/
def State.restartController (s : State) : State :=
  { s with power := { s.power with sp := 0, st := List.replicate 41 0, atLimit := List.replicate 41 false, nextStretch := 0 } }

/-- Unmaps every plan frame and host window (R235, R260). -/
def State.unmapAll (s : State) : State :=
  let s := s.mem.frames.foldl (fun s f => s.mapFrame (65536 * f.1) 0) s
  let s := s.mem.windows.foldl (fun s w => (List.range (w.size / 65536)).foldl (fun s i => s.mapFrame (w.va + 65536 * i) 0) s) s
  { s with mem := { s.mem with frames := [], windows := [] } }

/-- Installs a pattern that passed every check (R235). A layer without trained tensors has no run of zero-gradient heats (R177). -/
def State.install (s : State) (p : Pattern) (frames : List (Nat × Nat)) (reset : Bool) : State :=
  let est := s.estAfterLoad p reset
  let s := s.unmapAll
  let s := { s with mem := { s.mem with frames := frames } }
  let s := frames.foldl (fun s f => s.mapFrame (65536 * f.1) (leafEntry true true false (65536 * f.2))) s
  let s : State := { s with heat := { s.heat with
    pattern := some p, slotLen := p.slotLen, alts := [], bindings := [], est := est, obs := [], badState := false, badFence := false,
    badGeom := false, noStash := false, cores := [], seqs := [], invalid := [], written := [], nodes := [], invProd := [], rowRecs := [],
    rowScale := [], chanNew := [], expNew := [], chanSet := [], expSet := [], sent := [], colSums := [],
    zeroRun := s.heat.zeroRun.filter fun e => !(p.trained e.1).isEmpty } }
  s.storeTrackers.riserCheck.leaveFleet.restartController

/-- Where the image is staged: the first byte of the last 9 GiB of the interleaved window (R264). -/
def State.stagingBase (s : State) : Nat := lpBase + s.interSize - 9 * gib

/-- The audit entry of a LOAD_PATTERN (R387, R417). -/
def State.auditLoad (s : State) (role st : Nat) (key : List Byte) (hash : List Byte) : State :=
  if s.audit.flashOk then s.auditAppend 0x40 role st key (slice hash 0 36) else s

/-- The image has arrived: it passes the loader's snooper, is staged and checked, and the operation ends (R234, R235). A load
whose entry flash does not take is refused (R389), and so is one that meets a RUN_HEATS operation. -/
def State.imageRead (s : State) (o : Op) (len role : Nat) (reset : Bool) (bs : List Byte) : State :=
  let b := slice bs 0 len
  let s := s.snoop 124 0xC 0 (addrBlocks 0 b)
  let s := (s.writeMem s.stagingBase b).2
  let hash := sha384 (slice b 0 (min len (imageLen b)))
  let key := (s.ring o.ring).key
  if s.running || !s.audit.flashOk then (s.auditLoad role stConfig key hash).finishOp o stConfig 0 0 else
  match s.checkImage b len with
  | (_, some (p, frames)) => ((s.install p frames reset).auditLoad role stOk key hash).finishOp o stOk p.verMinor 0
  | (st, none) => (s.auditLoad role st key hash).finishOp o st 0 0

end Sys2Proof.Machine
end

