-- ==== Sys2Proof/Machine/Copies.lean ====
section
/-! DEFINITION. Command copies and fills: COPY, GATHER, SCATTER and FILL from their acceptance to their last chunk (10 R238,
R240 to R257, 06 R146, 12 R290, R303, R308). -/

namespace Sys2Proof.Machine

/-! ## Descriptors and units -/

/-- Layer and runner capacity of a descriptor: those of the pattern's tensor that is bound or placed at its BASE (R74);
else layer 0 and a free capacity (log 28). -/
def State.descLayer (s : State) (d : Desc) : Nat × Nat :=
  let cap (n : Nat) : Nat := if hasRunner d.fmt then n else 0
  let none_ := (0, cap Config.copyRunnerCap.toNat)
  match s.heat.pattern with
  | none => none_
  | some p =>
    let bound := (s.heat.bindings.find? fun e => (descOf e.2).base = d.base).map (·.1)
    let placed := (p.regions.find? fun r => !r.inStore && decide (r.base = d.base) && decide (r.tensor < 4096)).map (·.tensor)
    match bound <|> placed with
    | some t => (p.layerOf t, cap (p.layerNum (p.layerOf t)).c)
    | none => none_

/-- A descriptor as a tensor. -/
def State.copyTensor (s : State) (d : Desc) : Tensor :=
  let l := s.descLayer d
  { idx := noTensor, d := d, direct := false, tiled := false, cap := l.2, layer := l.1, room := none }

/-- Extents in units along each dimension: blocks along dimension 0 for an unscaled tensor, tiles for a scaled one (R249). -/
def unitExt (scaled : Bool) (n : List Nat) : List Nat :=
  if scaled then [(tilesOf n).1, (tilesOf n).2, nth n 2, nth n 3, nth n 4] else [ceilDiv (nth n 0) 32, nth n 1, nth n 2, nth n 3, nth n 4]

/-- Coordinates of the e-th unit in canonical index order; beyond the last the outermost coordinate runs on. -/
def unitCoord (ext : List Nat) (e : Nat) : List Nat :=
  let m (k : Nat) : Nat := max (nth ext k) 1
  let e1 := e / m 0
  let e2 := e1 / m 1
  let e3 := e2 / m 2
  [e % m 0, e1 % m 1, e2 % m 2, e3 % m 3, e3 / m 3]

/-- An index along a dimension with extent n and low pad lo: the real index, wrapped under WRAP, or none for padding
(R243). -/
def resolveDim (n lo : Nat) (wrap : Bool) (j : Nat) : Option Nat :=
  let x : Int := (j : Int) - lo
  if 0 ≤ x ∧ x < n then some x.toNat else if wrap ∧ 0 < n then some (x % n).toNat else none

/-- Coordinates resolved in every dimension; none where one is padding. -/
def resolveAll (n lo bound j : List Nat) : Option (List Nat) :=
  allSome ((List.range 5).map fun k => resolveDim (nth n k) (nth lo k) (decide (nth bound k = 1)) (nth j k))

/-- Extents of the padded view (R243). -/
def Desc.view (d : Desc) : List Nat := (List.range 5).map fun k => nth d.padLo k + nth d.n k + nth d.padHi k

/-- The view coordinates behind destination coordinates under a permutation (R247). -/
def viewOf (perm i : List Nat) : List Nat := (List.range 5).map fun m => nth i (perm.idxOf m)

/-- The coordinates of a list entry and its SKIP bit; none where a reserved bit is set (R249). -/
def listEntry (v : Nat) : Option (List Nat × Bool) :=
  if fld v 127 121 ≠ 0 then none else some ((List.range 5).map fun k => fld v (24 * k + 23) (24 * k), bitOf v 120)

/-- What stands behind one destination unit: view coordinates of the source unit and coordinates of the destination unit
with the low pad that they count from. -/
structure Move where
  src : List Nat
  dst : List Nat
  lo  : List Nat
  deriving DecidableEq, Repr, Inhabited

/-- No pads. -/
def noPad : List Nat := [0, 0, 0, 0, 0]

/-- The move of unit e of a copy (R247, R250); none for a skipped entry. For a plain copy the source follows per element. -/
def moveOf (opc : Nat) (scaled : Bool) (a b : Desc) (e entry : Nat) : Option Move :=
  match opc with
  | 0x11 => (match listEntry entry with
    | some (c, skip) => if skip then none else some ⟨c, unitCoord (unitExt scaled b.n) e, noPad⟩
    | none => none)
  | 0x12 => (match listEntry entry with
    | some (c, skip) => if skip then none else some ⟨unitCoord (unitExt scaled a.view) e, c, b.padLo⟩
    | none => none)
  | _ => some ⟨[], unitCoord (unitExt scaled b.n) e, noPad⟩

/-! ## Reading a chunk -/

/-- Bytes to be written at a virtual address, with a flag for each byte that came from a word that could not be corrected
(none: all good), and the place of the run among those of a chunk (R242). -/
structure PutRun where
  key   : Nat
  va    : Nat
  bytes : List Byte
  bad   : List Bool
  deriving DecidableEq, Repr, Inhabited

/-- What the reading half of a chunk gave. -/
structure ChunkRead where
  puts   : List PutRun
  moved  : Nat
  broken : Nat
  fault  : Bool
  fenced : Bool
  deriving DecidableEq, Repr, Inhabited

/-- The bytes of a range that lie in words which cannot be corrected. -/
def State.badBytes (s : State) (unit va n : Nat) : List Bool :=
  (List.range n).map fun i => match s.translate unit (va + i) false with
    | .device a => !(s.mem.readWord a).2.usable
    | _ => false

/-- Reads a range for a copy: what it holds, as read where it cannot be corrected (R279). -/
def State.readRun (s : State) (site : Site) (va n : Nat) : VRead × List Bool × State :=
  let (r, s') := s.readVa site.unit site.ev va n (byAddress 0x9)
  (r, if r.usable || r.fault then [] else s.badBytes site.unit va n, s')

/-- Nothing read. -/
def chunk0 : ChunkRead := ⟨[], 0, 0, false, false⟩

/-- A run of elements of one block: destination address, source address or fill, and their number. -/
structure Seg where
  dst : Nat
  src : Option Nat
  n   : Nat
  deriving DecidableEq, Repr, Inhabited

/-- Adds one element to the runs. -/
def addSeg (size : Nat) (l : List Seg) (dst : Nat) (src : Option Nat) : List Seg :=
  match l.getLast? with
  | some g =>
    let joins : Bool := match g.src, src with
      | some a, some b => decide (a + size * g.n = b)
      | none, none => true
      | _, _ => false
    if joins ∧ g.dst + size * g.n = dst then l.dropLast ++ [{ g with n := g.n + 1 }] else l ++ [⟨dst, src, 1⟩]
  | none => [⟨dst, src, 1⟩]

/-- The address of an element of an unscaled tensor (R240). -/
def Desc.elemVa (d : Desc) (i : List Nat) : Nat := (d.blockAddr i).toNat + fmtWidth d.fmt / 8 * (nth i 0 % 32)

/-- The runs that one block of an unscaled destination gets (R243, R244, R247, R250). -/
def blockSegs (opc : Nat) (a b : Desc) (perm : List Nat) (m : Move) : List Seg :=
  let size := fmtWidth b.fmt / 8
  (List.range 32).foldl (fun l lane =>
    let at_ (c : List Nat) : List Nat := setAt c 0 fun x => 32 * x + lane
    let dst := at_ m.dst
    let src := if opc = 0x10 then viewOf perm dst else at_ m.src
    if opc ≠ 0x12 ∧ nth b.n 0 ≤ nth dst 0 then l else
    if opc = 0x12 ∧ nth a.view 0 ≤ nth src 0 then l else
    match resolveAll b.n m.lo b.bound dst with
    | none => l
    | some i =>
      match resolveAll a.n a.padLo a.bound src with
      | some j => addSeg size l (b.elemVa i) (some (a.elemVa j))
      | none => if b.padMat then addSeg size l (b.elemVa i) none else l) []

/-- The code of a fill value in an unscaled format. -/
def fillCode (fmt : Nat) (x : F32) : List Byte := if fmt = fmtBf16 then natLe 2 (rneBf (fv x)) else natLe 4 x.toNat

/-- One block of an unscaled copy. -/
def State.readBlock (s : State) (site : Site) (opc : Nat) (a b : Desc) (perm : List Nat) (m : Move) : ChunkRead × State :=
  let size := fmtWidth b.fmt / 8
  let segs := blockSegs opc a b perm m
  segs.foldl (fun (acc : ChunkRead × State) g =>
    match g.src with
    | some v =>
      let (r, bad, s) := acc.2.readRun site v (size * g.n)
      ({ acc.1 with puts := acc.1.puts ++ [⟨0, g.dst, r.bytes, bad⟩], fault := acc.1.fault || r.fault, fenced := acc.1.fenced || r.fenced }, s)
    | none =>
      ({ acc.1 with puts := acc.1.puts ++ [⟨0, g.dst, (List.replicate g.n (fillCode b.fmt a.fill)).flatten, []⟩] }, acc.2))
    ({ chunk0 with moved := if segs.isEmpty then 0 else 1 }, s)

/-- The linear tile index of tile coordinates (R66). -/
def tileAt (n c : List Nat) : Nat :=
  let e := unitExt true n
  nth c 0 + nth e 0 * (nth c 1 + nth e 1 * (nth c 2 + nth e 2 * (nth c 3 + nth e 3 * nth c 4)))

/-- Where the streams of a tile lie, run by run, in the order in which they are written: place among the runs of a chunk, address and
bytes. Rows of data stand in canonical index order, behind the records that no other tile shares (R242). -/
def tileRuns (t : Tensor) (L : Nat) (b : TileBytes) : List (Nat × Nat × List Byte) :=
  let rows := (List.range 128).filter fun row => b.blocks.any fun e => decide (e.1 / 4 = row)
  let key (row : Nat) : Nat := 1 + nth (rowCoord t.d.n L row) 0 + nth t.d.n 0 * rowIndex t.d.n (rowCoord t.d.n L row)
  let data := if t.d.fmt = fmtMapped then [(0, t.d.base + 64 * (TileHdr.dec b.scale).dataOfs, (b.blocks.map (·.2)).flatten)] else
    rows.map fun row => (key row, (t.d.blockAddr (rowCoord t.d.n L row)).toNat, ((b.blocks.filter fun e => decide (e.1 / 4 = row)).map (·.2)).flatten)
  [(0, t.d.scaleBase + 304 * L, b.scale)] ++ data ++ (if b.runner.isEmpty then [] else [(0, t.d.runnerBase + 4 * t.cap * L, b.runner)])

/-- Puts a run behind those of its place or an earlier one. -/
def insPut (x : PutRun) : List PutRun → List PutRun
  | [] => [x]
  | y :: ys => if x.key < y.key then x :: y :: ys else y :: insPut x ys

/-- The runs of a chunk in canonical index order (R242). -/
def inOrder (l : List PutRun) : List PutRun := l.foldl (fun acc x => insPut x acc) []

/-- DATA_OFS of a tile of a MAPPED destination, which its header keeps (R73); 0 otherwise. -/
def State.dataOfsAt (s : State) (site : Site) (t : Tensor) (L : Nat) : Nat × State :=
  if t.d.fmt ≠ fmtMapped then (0, s) else
  let (old, s) := s.readAt false site (t.d.scaleBase + 304 * L) 16 (byAddress 0x9)
  ((TileHdr.dec old.bytes).dataOfs, s)

/-- A unit of good runs. -/
def goodRuns (l : List (Nat × Nat × List Byte)) : ChunkRead := { chunk0 with puts := l.map fun e => ⟨e.1, e.2.1, e.2.2, []⟩, moved := 1 }

/-- The runs of a zero tile at a destination (R244). -/
def State.zeroRuns (s : State) (site : Site) (t : Tensor) (L : Nat) : ChunkRead × State :=
  let present := presentBlocks t.d.n L
  let fmts := if t.d.fmt = fmtMapped then s.mappedFmts t.d L present else []
  let (ofs, s) := s.dataOfsAt site t L
  (goodRuns (tileRuns t L (zeroTile t.d.fmt L present fmts ofs)), s)

/-- Reads a source tile with the checks of steps 1 to 6 of R78, and once more where one fails (R248). -/
def State.readTwice (s : State) (x : Tensor) (site : Site) (L : Nat) : Tile × Fate × Bool × State :=
  let (tile, f, ok, s) := s.readStreams x site L
  if f = .good ∧ ok then (tile, f, true, s) else
  if f = .fault ∨ f = .miss then (tile, f, ok, s) else
  let (tile, f, ok, s) := s.readStreams x site L
  (tile, f, f = .good && ok, s)

/-- One tile of a scaled copy (R248): a tile whose checks fail, on its re-read too, is written with VALID 0. -/
def State.readTileMove (s : State) (site : Site) (x y : Tensor) (opc : Nat) (perm : List Nat) (m : Move) : ChunkRead × State :=
  match resolveAll (unitExt true y.d.n) m.lo y.d.bound m.dst with
  | none => (chunk0, s)
  | some i =>
    let L' := tileAt y.d.n i
    let view := if opc = 0x10 then viewOf perm m.dst else m.src
    match resolveAll (unitExt true x.d.n) x.d.padLo x.d.bound view with
    | none => if y.d.padMat then s.zeroRuns site y L' else (chunk0, s)
    | some j =>
      let L := tileAt x.d.n j
      let (tile, f, ok, s) := s.readTwice x site L
      let b := retile tile y.d.fmt L' ok tile.hdr.dataOfs
      let flags (e : Nat × Nat × List Byte) : List Bool := if f = .memory then s.badBytes site.unit e.2.1 e.2.2.length else []
      let puts := ((tileRuns x L b).zip (tileRuns y L' b)).map fun e => (⟨e.2.1, e.2.2.1, e.2.2.2, flags e.1⟩ : PutRun)
      let s := if ok || f = .fault || f = .miss then s else s.raise evDesync noUnit x.layer (numericsData 1 L)
      (⟨puts, 1, if ok then 0 else 1, f = .fault, f = .fault && s.meetsFence site.unit site.ev [(x.d.scaleBase + 304 * L, 304)] false⟩, s)

/-- Joins what two units gave. -/
def ChunkRead.join (a b : ChunkRead) : ChunkRead :=
  ⟨a.puts ++ b.puts, a.moved + b.moved, a.broken + b.broken, a.fault || b.fault, a.fenced || b.fenced⟩

/-- Units of a chunk: 1 MiB of destination bytes in whole units, at most 4,096 list entries (R256). A tile counts as a full
one with its scale record (log 29). -/
def chunkUnits (fmt : Nat) (listed : Bool) : Nat :=
  let unit := if isScaled fmt then 304 + 512 * blockBytes (if fmt = fmtMapped then 8 else fmt) else blockBytes fmt
  let n := ceilDiv (2 ^ 20) unit
  if listed then min n 4096 else n

/-! ## Random fills (R146) -/

/-- The value of one element of a random fill. -/
def State.fillValue (s : State) (a : FillArgs) (n i : List Nat) : F32 :=
  let f := sandOf (BitVec.ofNat 64 (nth s.heat.seeds 2)) 3 a.sandId a.heat n i 24
  match a.mode with
  | 1 => fmul (fscale (fadd (rne32 (ofDyadic ((f : Int) - 2 ^ 23) 0)) 0x3F000000) (-23)) a.a
  | _ =>
    match s.heat.pattern with
    | some p => fmul (fEval (nth p.funcs a.func) (natTo32 f)).1 a.a
    | none => zero32

/-- One block of an unscaled fill: lanes within the extents, and those beyond them when the fill materialises padding. -/
def State.fillBlock (s : State) (a : FillArgs) (d : Desc) (e : Nat) : ChunkRead :=
  let c := unitCoord (unitExt false d.n) e
  let coord (lane : Nat) : List Nat := setAt c 0 fun x => 32 * x + lane
  let lanes := (List.range 32).filter fun k => d.padMat || decide (32 * nth c 0 + k < nth d.n 0)
  let code (k : Nat) : List Byte := fillCode d.fmt (if a.mode = 0 then d.fill else s.fillValue a d.n (coord k))
  goodRuns [(0, (d.blockAddr (coord 0)).toNat, (lanes.map code).flatten)]

/-- One tile of a random fill on a drain of the destination's die: the spec gives no tile exponent, so it is a free value
(log 30). -/
def State.fillTile (s : State) (site : Site) (a : FillArgs) (t : Tensor) (L : Nat) : ChunkRead × State :=
  let (k, s) := s.draw
  let eT := (Config.freeWord k).toNat % 256
  let n := t.d.n
  let lay := match s.heat.pattern with
    | some p => p.layerNum t.layer
    | none => { t := 0, c := 0, policy := 0, uflowMax := 0 }
  let present := presentBlocks n L
  let fmts := if t.d.fmt = fmtMapped then s.mappedFmts t.d L present else present.map fun B => (B, t.d.fmt)
  let ins : List BlkIn := present.map fun B =>
    let lanes := (List.range (blockLanes n L B)).map fun k => elemCoord n L B k
    let z := (s.chanOf t.d (nth (elemCoord n L B 0) 1)).2
    { b := B, fmt := look 0 fmts B, z := z, vals := lanes.map fun i => fv (fdiv (s.fillValue a n i) (s.chanOf t.d (nth i 1)).1),
      rnds := lanes.map fun _ => .rne }
  let o := if isG t.d.fmt then convTileG t.d.fmt eT ins else convTile eT lay.ratio t.cap false ins
  let (ofs, s) := s.dataOfsAt site t L
  let odd := ins.any fun b => b.vals.any fun v => !v.isFin
  let hdr : TileHdr := { valid := true, clipped := decide (0 < o.beyond), nonfinite := odd, tileMax := tileMaxOf ins, dataOfs := ofs }
  (goodRuns (tileRuns t L (tileStreams t.d.fmt L hdr o)), s)

/-- One unit of a fill (R303): CONST writes FILL, or zero tiles for a scaled tensor. -/
def State.fillUnit (s : State) (site : Site) (a : FillArgs) (t : Tensor) (e : Nat) : ChunkRead × State :=
  if !isScaled t.d.fmt then (s.fillBlock a t.d e, s) else
  if a.mode = 0 then s.zeroRuns site t e else s.fillTile site a t e

/-! ## Ladles (R251, R257) -/

/-- The ladle that an operation holds. -/
def Op.ladle (o : Op) : Option Nat :=
  match o.body with
  | .copy c => if c.ladle < 40 then some c.ladle else none
  | .fill f => if f.ladle < 40 then some f.ladle else none
  | _ => none

/-- Is a ladle taken by another operation? -/
def State.ladleBusy (s : State) (l : Nat) : Bool := s.ops.any fun o => decide (o.ladle = some l)

/-- The ladle for a destination whose first chunk begins at an address (R257): the second one of a die where the first is taken; none
where every one that could serve it is fenced. -/
def State.ladleFor (s : State) (va : Nat) : Option Nat :=
  let ok (l : Nat) : Bool := !s.fencedNow (ladleUnit l)
  let pick (l m : Nat) : Option Nat :=
    if ok l && !(s.ladleBusy l && ok m) then some l else if ok m then some m else none
  match s.frameAt va with
  | some a =>
    if a < 256 * gib then pick (2 * (a / (16 * gib))) (2 * (a / (16 * gib)) + 1) else
    let m := unitIdx (s.holder a)
    if ok (32 + m) then some (32 + m) else none
  | none => pick 0 2

/-- The site of a ladle. -/
def ladleSite (l : Nat) : Site := { core := none, unit := if l < 32 then dieUnit (l / 2) else mdUnit (l - 32), ev := ladleUnit l }

/-! ## Acceptance (R238, R246, R247, R250, R254, R303) -/

/-- Do two ranges of virtual addresses meet a plan region that the test picks? -/
def State.meetsPlan (s : State) (pick : Pattern → Region → Bool) (lo n : Nat) : Bool :=
  match s.heat.pattern with
  | some p => p.regions.any fun r => !r.inStore && pick p r && overlaps lo n r.span.1 r.span.2
  | none => false

/-- Do the blocks of a descriptor meet a range of addresses: some run along dimension 0, found from the outermost dimension in (R240,
R254)? -/
def Desc.meetsFrom (d : Desc) (lo n : Nat) : Nat → Int → Bool
  | 0, a => decide (a < ((lo + n : Nat) : Int)) && decide ((lo : Int) < a + (ceilDiv (nth d.n 0) 32 * blockBytes d.fmt : Nat))
  | k + 1, a => (List.range (nth d.n (k + 1))).any fun i => d.meetsFrom lo n k (a + (i : Int) * d.stride (k + 1))

/-- Do the blocks of a descriptor meet a range of addresses? -/
def Desc.meets (d : Desc) (lo n : Nat) : Bool :=
  decide (d.reach.1 < ((lo + n : Nat) : Int)) && decide ((lo : Int) ≤ d.reach.2) && d.meetsFrom lo n 4 d.base

/-- Where the tiles of a MAPPED destination hold their data, by the DATA_OFS of their headers as they stand (R73). -/
def State.mappedSpans (s : State) (d : Desc) : List (Nat × Nat) :=
  (List.range (tileCount d.n)).filterMap fun L => (s.frameAt (d.scaleBase + 304 * L)).map fun a =>
    (d.base + 64 * (TileHdr.dec (s.peek a 16)).dataOfs, match s.heat.pattern with
      | some p => p.mappedTile d L
      | none => 1)

/-- May a write of a destination's blocks, scale records or runner meet a range of addresses? -/
def State.touches (s : State) (t : Tensor) (lo n : Nat) : Bool :=
  (if t.d.fmt = fmtMapped then (s.mappedSpans t.d).any fun x => overlaps lo n x.1 x.2 else t.d.meets lo n) ||
  (isScaled t.d.fmt && (overlaps lo n t.d.scaleBase (304 * tileCount t.d.n) ||
    (t.cap != 0 && overlaps lo n t.d.runnerBase (4 * t.cap * tileCount t.d.n))))

/-- Does a destination meet a region of the loaded pattern's plan (R254)? -/
def State.inRegions (s : State) (t : Tensor) : Bool :=
  match s.heat.pattern with
  | some p => p.regions.any fun r => !r.inStore && s.touches t r.span.1 r.span.2
  | none => false

/-- Does a destination lie in bonded DRAM of a fenced die (R303)? -/
def State.onFenced (s : State) (t : Tensor) : Bool :=
  s.mem.frames.any fun f => decide (65536 * f.2 < 256 * gib) && s.fencedNow (bondedUnit (65536 * f.2 / (16 * gib))) &&
    s.touches t (65536 * f.1) 65536

/-- The status with which a copy is accepted or refused. -/
def State.copyStatus (s : State) (opc : Nat) (c : CopyOp) : Nat :=
  let st1 := descStatus s.heat.pattern c.src false
  let st2 := descStatus s.heat.pattern c.dst true
  if st1 ≠ stOk then st1 else if st2 ≠ stOk then st2 else
  let a := descOf c.src
  let b := descOf c.dst
  let scaled := isScaled a.fmt
  let extents := (List.range 5).all fun k => decide (nth b.n k = nth a.view (nth c.perm k))
  if a.fmt ≠ b.fmt ∨ (a.fmt = fmtMapped ∧ (a.palette ≠ b.palette ∨ a.map ≠ b.map)) then stInvalid else
  if opc = 0x10 ∧ !extents then stInvalid else
  if scaled ∧ (nth c.perm 0 ≠ 0 ∨ nth c.perm 1 ≠ 1 ∨ nth a.n 0 ≠ nth b.n 0 ∨ nth a.n 1 ≠ nth b.n 1) then stInvalid else
  let y := s.copyTensor b
  if s.running && s.inRegions y then stConfig else
  if opc ≠ 0x10 ∧ scaled ∧ !c.inHost ∧ s.meetsPlan (fun p r => !(p.tensorNum r.tensor).frozen) c.list (16 * c.entries) then stConfig else
  if s.onFenced y then stFenced else stOk

/-- The status with which a fill is accepted or refused. -/
def State.fillStatus (s : State) (f : FillOp) : Nat :=
  let st := descStatus s.heat.pattern f.dst true
  if st ≠ stOk then st else
  let d := descOf f.dst
  let funcs := match s.heat.pattern with
    | some p => p.funcs.length
    | none => 0
  if f.args.mode = 2 ∧ funcs ≤ f.args.func then stInvalid else
  if isScaled d.fmt ∧ s.running then stConfig else
  if isScaled d.fmt ∧ s.onFenced (s.copyTensor d) then stFenced else stOk

/-- Asks the host for the list entries of the next chunk of a list in host memory. -/
def State.askList (s : State) (o : Op) (c : CopyOp) : State :=
  if o.opc = 0x10 ∨ !c.inHost ∨ c.haveLst then s else
  let n := min (chunkUnits (descOf c.src).fmt true) (c.entries - c.pos)
  s.hostRead (c.list + 16 * c.pos) (16 * n) (.gatherList o.ring o.id)

/-- Gives an operation its ladle: it takes its turn there behind those that were given it before (R251, R257). -/
def State.takeLadle (s : State) (o : Op) (l : Nat) (body : OpBody) : State :=
  let wait := s.ladleBusy l && decide (o.state = .running)
  let o := { o with body := body, state := if wait then .queued else o.state }
  { s with ops := (s.ops.filter fun x => !x.is o.ring o.id) ++ [o] }

/-- A copy's descriptor arrived: once both are there the copy is accepted or refused. One whose destination's first chunk is known gets
its ladle; a SCATTER gets it with its list (R257). -/
def State.copyAccept (s : State) (o : Op) (c : CopyOp) : State :=
  let s := s.setOp { o with body := .copy c }
  if c.src.isEmpty || c.dst.isEmpty then s else
  let st := s.copyStatus o.opc c
  if st ≠ stOk then s.finishOp o st 0 0 else
  if o.opc = 0x12 then s.askList { o with body := .copy c } c else
  match s.ladleFor (descOf c.dst).base with
  | none => s.finishOp o stFenced 0 0
  | some l => (s.takeLadle o l (.copy { c with ladle := l })).askList o { c with ladle := l }

/-- The address at which the first chunk of a SCATTER begins: that of the first unit that its list moves (R250, R257). -/
def scatterStart (c : CopyOp) (entries : List Nat) : Nat :=
  let a := descOf c.src
  let b := descOf c.dst
  let scaled := isScaled a.fmt
  (((List.range entries.length).zip entries).findSome? fun e => (moveOf 0x12 scaled a b e.1 e.2).bind fun m =>
    if scaled then (resolveAll (unitExt true b.n) m.lo b.bound m.dst).map fun i => (b.blockAddr (rowCoord b.n (tileAt b.n i) 0)).toNat
    else (resolveAll b.n m.lo b.bound (setAt m.dst 0 fun x => 32 * x)).map b.elemVa).getD b.base

/-- A SCATTER whose first list entries can be read gets its ladle (R257). -/
def State.scatterLadle (s : State) (o : Op) (c : CopyOp) : State :=
  let n := min (chunkUnits (descOf c.src).fmt true) c.entries
  let entries := if c.inHost then c.units else
    let r := (s.readVa iodUnit iodUnit c.list (16 * n) (byAddress 0x9)).1
    (List.range n).map fun i => u r.bytes (16 * i) 16
  match s.ladleFor (scatterStart c entries) with
  | none => s.finishOp o stFenced 0 0
  | some l => s.takeLadle o l (.copy { c with ladle := l })

/-- A fill's descriptor arrived: it is accepted, with its ladle, or refused. -/
def State.fillAccept (s : State) (o : Op) (f : FillOp) : State :=
  let st := s.fillStatus f
  if st ≠ stOk then s.finishOp o st 0 0 else
  match s.ladleFor (descOf f.dst).base with
  | none => s.finishOp o stFenced 0 0
  | some l => s.takeLadle o l (.fill { f with ladle := l })

/-! ## Chunks (R256) -/

/-- The host-held lines that writes are about to change (R290). -/
def State.heldByPuts (s : State) (unit : Nat) (puts : List PutRun) : List Nat :=
  sortNat (puts.flatMap fun w => (piecesOf w.va w.bytes.length).flatMap fun q =>
    match s.translate unit q.1 true with
    | .device a => s.heldIn a q.2
    | _ => [])

/-- Writes the runs of a chunk past the ladle's snooper; words whose source could not be corrected arrive poisoned, and so do words
that could not be merged (R279). The number of poisoned words and what the writes met come with the state. -/
def State.doPuts (s : State) (o : Op) (l : Nat) (puts : List PutRun) : Nat × VWrite × State :=
  let site := ladleSite l
  puts.foldl (fun (acc : Nat × VWrite × State) w =>
    let s := acc.2.2.snoop l 0x9 0 (addrBlocks w.va w.bytes)
    let (r, s) := s.writeVa site.unit site.ev w.va w.bytes (.chunkWrite o.ring o.id) (byAddress 0x9)
    let words := sortNat (((List.range w.bad.length).zip w.bad).filterMap fun e => if e.2 then some ((w.va + e.1) / 8) else none)
    let s := words.foldl (fun s x => match s.translate site.unit (8 * x) true with
      | .device a => s.poison a
      | _ => s) s
    (acc.1 + words.length + (if r.usable || r.fault then 0 else 1), acc.2.1.join r, s)) (0, cleanWrite, s)

/-- The interim record of a suspension that takes effect (R308, R309); R303 gives the details of final records alone, so
those of this one are free (log 7). -/
def State.postSuspended (s : State) (c : Rc) (opc sqHead : Nat) : State :=
  let (k, s) := s.draw
  let (m, s) := s.draw
  s.post { completionOf c opc sqHead stSuspended (Config.freeWord k).toNat (Config.freeWord m).toNat with final := false }

/-- The interim or final record at a chunk boundary (R256, R308). -/
def State.chunkBoundary (s : State) (o : Op) (done : Bool) : State :=
  match o.endWith with
  | some st => s.endOp o st
  | none =>
    if o.cancel then s.endOp o stCancelled else
    if done then s.endOp o stOk else
    if o.state = .suspendPending then
      (s.setOp { o with state := .suspended }).postSuspended o.rc o.opc o.sqHead
    else s.setOp o

/-- Reads the list entries of a chunk in device memory. -/
def State.deviceList (s : State) (site : Site) (c : CopyOp) (n : Nat) : List Nat × (Bool × Bool) × State :=
  let (r, s) := s.readVa site.unit site.ev (c.list + 16 * c.pos) (16 * n) (byAddress 0x9)
  ((List.range n).map fun i => u r.bytes (16 * i) 16, (r.fault || !r.usable, r.fenced), s)

/-- The reading half of a copy chunk. -/
def State.readChunk (s : State) (o : Op) (c : CopyOp) (n : Nat) (entries : List Nat) : ChunkRead × State :=
  let site := ladleSite c.ladle
  let a := descOf c.src
  let b := descOf c.dst
  let scaled := isScaled a.fmt
  (List.range n).foldl (fun (acc : ChunkRead × State) i =>
    match moveOf o.opc scaled a b (c.pos + i) (nth entries i) with
    | none => acc
    | some m =>
      let (r, s) := if scaled then acc.2.readTileMove site (acc.2.copyTensor a) (acc.2.copyTensor b) o.opc c.perm m
        else acc.2.readBlock site o.opc a b c.perm m
      (acc.1.join r, s)) (chunk0, s)

/-- Waits for the back-invalidation of host-held lines (R290). -/
def State.waitLines (s : State) (o : Op) (lines : List Nat) : State :=
  lines.foldl State.backInvalidate (s.setOp { o with waitFor := lines })

/-- The reading half of the chunk under way, with the host data that it has: its units and the runs to write, and the position of a list
entry that is out of range (R251, R256). A list that could not be read counts as a fault. -/
def State.chunkHalf (s : State) (o : Op) (c : CopyOp) (n : Nat) : (ChunkRead × Option Nat) × State :=
  let t : State := { s with heat := { s.heat with leafMiss := [], leafData := c.leafs } }
  let l := if o.opc = 0x10 then ([], (false, false), t) else if c.inHost then (c.units.take n, (false, false), t) else
    t.deviceList (ladleSite c.ladle) c n
  let stop := if o.opc = 0x10 then none else l.1.findIdx? fun v => decide (fld v 127 121 ≠ 0)
  let r := l.2.2.readChunk o c (stop.getD n) l.1
  let puts := if o.opc = 0x10 then inOrder r.1.puts else r.1.puts
  (({ r.1 with puts := puts, fault := r.1.fault || l.2.1.1, fenced := r.1.fenced || l.2.1.2 }, stop), r.2)

/-- Asks the host for the leaves that a chunk still waits for, unless the link took them away (R261, R311). -/
def State.askLeaves (s : State) (o : Op) (miss : List (Nat × Nat)) : State :=
  if o.silent then s.endOp o stCancelled else
  miss.foldl (fun s m => if s.port.hostAcc.any (fun a => decide (a.iova = m.1) && decide (a.purpose = .chunkLeaf o.ring o.id)) then s
    else s.hostRead m.1 m.2 (.chunkLeaf o.ring o.id)) s

/-- Units of a whole operation that moves data. -/
def Op.total (o : Op) : Nat :=
  let ext (d : Desc) : Nat := (unitExt (isScaled d.fmt) d.n).foldl (· * ·) 1
  match o.body with
  | .copy c => if o.opc = 0x10 then ext (descOf c.dst) else c.entries
  | .fill f => ext (descOf f.dst)
  | _ => 0

/-- Units that it has done. -/
def Op.done (o : Op) : Nat :=
  match o.body with
  | .copy c => c.pos
  | .fill f => f.pos
  | _ => 0

/-- Has every write of an operation to host memory been accepted (R251, R298)? -/
def State.writesDone (s : State) (o : Op) : Bool := !s.port.hostAcc.any fun a => decide (a.purpose = .chunkWrite o.ring o.id)

/-- The end of a chunk, once every write of it has been accepted (R251, R308). -/
def State.chunkEnds (s : State) (o : Op) : State :=
  if !s.writesDone o then s else
  let done := decide (o.total ≤ o.done)
  let t := s.chunkBoundary o done
  match o.body with
  | .copy c => if done || (t.findOp o.ring o.id).isNone || decide (o.state = .suspendPending) then t else t.askList o c
  | _ => t

/-- The status of a chunk that a fault or a fenced reply ends (R261, R346). -/
def faultStatus (fenced : Bool) : Nat := if fenced then stFenced else stInvalid

/-- The writing half of a chunk, and what its end brings (R251, R256, R279, R308). -/
def State.writeChunk (s : State) (o : Op) (c : CopyOp) (n : Nat) (r : ChunkRead) (stop : Option Nat) : State :=
  let w := s.doPuts o c.ladle r.puts
  let c := { c with
    pos := c.pos + n, moved := c.moved + r.moved, bad := c.bad + r.broken + w.1, haveLst := false, units := [], leafs := [] }
  let o := { o with body := .copy c }
  if w.2.1.fault then (w.2.2.setOp o).endOp o (faultStatus w.2.1.fenced) else
  if stop.isSome then (w.2.2.setOp o).endOp o stInvalid else (w.2.2.setOp o).chunkEnds o

/-- One chunk of a copy completes (R251, R256, R261, R279, R346): nothing stands of a chunk that a translation fault ends;
one that still waits for host data or for a host's line stays as it was. -/
def State.copyChunk (s : State) (o : Op) (c : CopyOp) : State :=
  let site := ladleSite c.ladle
  if s.fencedNow (ladleUnit c.ladle) then s.endOp o stFenced else
  let n := min (chunkUnits (descOf c.src).fmt (o.opc ≠ 0x10)) (o.total - c.pos)
  let h := s.chunkHalf o c n
  if !h.2.heat.leafMiss.isEmpty then s.askLeaves o h.2.heat.leafMiss else
  let t : State := { h.2 with heat := { h.2.heat with leafMiss := s.heat.leafMiss, leafData := s.heat.leafData } }
  if h.1.1.fault then t.endOp o (faultStatus h.1.1.fenced) else
  let lines := t.heldByPuts site.unit h.1.1.puts
  if !lines.isEmpty then s.waitLines o lines else t.writeChunk o c n h.1.1 h.1.2

/-- One chunk of a fill completes. -/
def State.fillChunk (s : State) (o : Op) (f : FillOp) : State :=
  let d := descOf f.dst
  let x := s.copyTensor d
  let l := f.ladle
  if s.fencedNow (ladleUnit l) then s.endOp o stFenced else
  let n := min (chunkUnits d.fmt false) (o.total - f.pos)
  let (r, t) := (List.range n).foldl (fun (acc : ChunkRead × State) i =>
    let (r, s) := acc.2.fillUnit (ladleSite l) f.args x (f.pos + i)
    (acc.1.join r, s)) (chunk0, s)
  let lines := t.heldByPuts (ladleSite l).unit r.puts
  if !lines.isEmpty then s.waitLines o lines else
  let (_, w, t) := t.doPuts o l (inOrder r.puts)
  let o := { o with body := .fill { f with pos := f.pos + n, written := f.written + r.moved } }
  if w.fault then (t.setOp o).endOp o (faultStatus w.fenced) else (t.setOp o).chunkEnds o

/-- Does an operation still wait for its ladle: one that was given it before holds it (R251)? -/
def State.ladleWaits (s : State) (o : Op) : Bool :=
  (s.ops.takeWhile fun x => !x.is o.ring o.id).any fun x => x.ladle.isSome && decide (x.ladle = o.ladle)

/-- Is a change of the translation tables outstanding: a LOAD_PATTERN, or a BIND_TENSORS whose list is being read (R260)? -/
def State.tablesChange (s : State) : Bool :=
  (s.ops.any fun o => decide (o.opc = 0x01)) || s.port.hostAcc.any fun a => match a.purpose with
    | .bindList _ _ _ => true
    | _ => false

/-- COPY_CHUNK_DONE: a chunk of a copy or fill completes. None does while a change of the translation tables is outstanding (R260). One that a fenced reply met ends there (R346); a suspended
operation, one whose descriptors, list, host lines or writes are still under way, and one that waits for its ladle have none. A SCATTER
gets its ladle before its first chunk. -/
def copyChunkOp (ring tag : Nat) (s : State) : State :=
  match s.findTag ring tag with
  | none => s
  | some o =>
    if o.state = .suspended ∨ !o.waitFor.isEmpty ∨ !s.writesDone o ∨ s.tablesChange then s else
    if o.endWith = some stFenced then s.endOp o stFenced else
    match o.body with
    | .copy c =>
      if c.src.isEmpty ∨ c.dst.isEmpty ∨ s.ladleWaits o ∨ (o.opc ≠ 0x10 ∧ c.inHost ∧ !c.haveLst) then s else
      if 40 ≤ c.ladle then s.scatterLadle o c else
      s.copyChunk { o with state := if o.state = .queued then .running else o.state } c
    | .fill f =>
      if f.dst.isEmpty ∨ 40 ≤ f.ladle ∨ s.ladleWaits o then s else
      s.fillChunk { o with state := if o.state = .queued then .running else o.state } f
    | _ => s

end Sys2Proof.Machine
end

