-- ==== Sys2Proof/Machine/Skim.lean ====
section
/-! DEFINITION. Skimming: the range check, a chunk of 16 MiB, and what follows it (11 R274, R279, R281 to R283). -/

namespace Sys2Proof.Machine

/-- A window of memory whose populated state is constant in steps: base, size, step. -/
structure Window where
  base : Nat
  size : Nat
  step : Nat
  deriving DecidableEq, Repr, Inhabited

/-- The windows of the device physical map (R262, R266). -/
def State.windows (s : State) : List Window :=
  ((List.range 16).map fun d => ⟨d * (16 * gib), 16 * gib, 16 * gib⟩) ++
  [⟨lpBase, s.interSize, s.lpGrain⟩] ++
  ((List.range 8).map fun m => ⟨s.localBase m, (s.actOf m).length * s.lpLocal, s.lpGrain⟩) ++
  ((List.range 1024).map fun i => ⟨coreBase + 2097152 * i, 2097152, 2097152⟩) ++
  ((List.range 128).map fun i => ⟨clusterBase + 16777216 * i, 16777216, 16777216⟩)

/-- Does a range touch populated memory? The channels of an interleaved window come round after at most 128 steps. -/
def State.touchesMemory (s : State) (base len : Nat) : Bool :=
  s.windows.any fun w =>
    let lo := max base w.base
    let hi := min (base + len) (w.base + w.size)
    decide (lo < hi) && ((List.range 129).any fun k =>
      let a := if k = 0 then lo else w.base + ((lo - w.base) / max w.step 1 + k) * w.step
      decide (a < hi) && s.populated a)

/-- Is an address in SRAM? -/
def isSram (a : Nat) : Bool := decide (coreBase ≤ a)

/-- Does a skim read the 256-byte block at an address? -/
def State.skims (s : State) (noSram : Bool) (a : Nat) : Bool := s.populated a && !(noSram && isSram a)

/-- A failing word takes one of the 16 entries (R283): they are found in ascending address. -/
def addFail (l : List (Nat × Nat × Nat × Nat)) (e : Nat × Nat × Nat × Nat) : List (Nat × Nat × Nat × Nat) :=
  if l.length < 16 then l ++ [e] else l

/-- One word that is not good: corrected and written back, or counted and listed (R279, R281, R283). -/
def State.skimWord (s : State) (k : SkimOp) (a : Nat) : SkimOp × State :=
  let S := s.mem.syndrome a
  let w := s.mem.readWord a
  let s := s.eccEvent a w.2
  match w.2 with
  | .good => (k, s)
  | .fixedData _ => ({ k with fixed := k.fixed + 1, back := k.back + 1 }, s.poke a (natLe 8 w.1))
  | .fixedCheck => ({ k with fixed := k.fixed + 1, back := k.back + 1 }, s.poke a (natLe 8 w.1))
  | .bad => ({ k with bad := k.bad + 1, fails := addFail k.fails (a, S, 1, 0) }, s)
  | .poisoned => ({ k with bad := k.bad + 1, fails := addFail k.fails (a, S, 3, 0) }, s)
  | .addrFault b => ({ k with addr := k.addr + 1, fails := addFail k.fails (a, S, 2, b) }, s)

/-- Bytes of a chunk. -/
def skimChunk : Nat := 16777216

/-- The 256-byte blocks of a chunk that a skim reads. -/
def State.skimBlocks (s : State) (k : SkimOp) (a n : Nat) : List Nat :=
  ((List.range (n / 256)).map fun i => a + 256 * i).filter (s.skims k.noSram)

/-- Does a request of the skim to a controller of the chunk get a fenced or timeout reply: no route leads there, or a crossing on the
way has timed out (R346, R349, R352)? -/
def State.skimFenced (s : State) (k : SkimOp) (a n : Nat) : Bool :=
  ((s.skimBlocks k a n).foldl (fun l b => addTo l (s.ownerUnit b)) []).any fun x => !s.answers iodUnit iodUnit x

/-- Reads every populated word of a chunk and writes corrected words back; the rest of the chunk is counted as skipped
(R281). Each row of 2 KiB that it reads is activated once (R274). -/
def State.skimRange (s : State) (k : SkimOp) (a n : Nat) : SkimOp × State :=
  let blocks := s.skimBlocks k a n
  let odd := sortNat ((s.mem.synd.filter fun e => decide (a ≤ 8 * e.1) && decide (8 * e.1 < a + n) && s.skims k.noSram (8 * e.1)).map fun e => 8 * e.1)
  let k := { k with read := k.read + 32 * blocks.length, skipped := k.skipped + (n - 256 * blocks.length) }
  let s := (blocks.filter fun b => b % 2048 = 0).foldl (fun s b => s.activate b 256) s
  odd.foldl (fun acc x => acc.2.skimWord acc.1 x) (k, s)

/-- SKIM_CHUNK_DONE: a chunk of a skim completes; the next one begins, or the summary follows (R281). One that a fenced
reply met ends there (R346); a suspended skim and one that writes its summary have no chunk. -/
def skimChunkOp (ring tag : Nat) (s : State) : State :=
  match s.findTag ring tag with
  | none => s
  | some o =>
    match o.body with
    | .skim k =>
      if o.state = .suspended ∨ k.ending.isSome then s else
      if o.endWith = some stFenced then s.endOp o stFenced else
      let n := min skimChunk (k.length - k.pos)
      if s.skimFenced k (k.base + k.pos) n then s.endOp o stFenced else
      let (k, s) := s.skimRange k (k.base + k.pos) n
      let k := { k with pos := k.pos + n, chunks := k.chunks + 1, noSram := s.running }
      let s := s.setRegs fun r => { r with skimChunks := k.chunks }
      let o := { o with body := .skim k }
      (s.setOp o).chunkBoundary o (decide (k.length ≤ k.pos))
    | _ => s

/-- The host accepted the summary of a skim: its final record follows. -/
def State.skimEnds (s : State) (o : Op) (k : SkimOp) : State := s.finishOp o (k.ending.getD stOk) k.chunks 0

/-- A SKIM of a range, accepted (R281). -/
def State.skimStart (s : State) (o : Op) (base len summary : Nat) : State :=
  let k : SkimOp := { base := base, length := len, summary := summary, pos := 0, chunks := 0, read := 0, fixed := 0, bad := 0,
                      addr := 0, back := 0, skipped := 0, fails := [], ending := none, noSram := s.running }
  let s := s.setRegs fun r => { r with skimActive := true, skimChunks := 0 }
  { s with ops := s.ops ++ [{ o with body := .skim k }] }

end Sys2Proof.Machine
end

