-- ==== Sys2Proof/Machine/Shards.lean ====
section
/-! DEFINITION. The fleet's lists: trained tensors, the fleet tile list and its owners, message sizes, the receive area, and
where a residual lies (13 R316, R317, R323). -/

namespace Sys2Proof.Machine

/-- The trained tensors of a pattern in ascending index: those with a gradient region that are not frozen. -/
def Pattern.trainedAll (p : Pattern) : List Nat :=
  (sortNat ((p.regions.filter fun r => r.kind = 4).map (·.tensor))).filter fun t => !(p.tensorNum t).frozen

/-- The trained tensors of the loaded pattern with their descriptors. -/
def State.trainedDescs (s : State) : List (Nat × Desc) :=
  match s.heat.pattern with
  | none => []
  | some p => p.trainedAll.filterMap fun t => (s.shapeOf t).map fun d => (t, d)

/-- T: the tiles of the fleet tile list. -/
def tileTotal (l : List (Nat × Desc)) : Nat := sumNat (l.map fun e => tileCount e.2.n)

/-- The tile at a position of the fleet tile list: tensor, its descriptor, L (R316). -/
def tileAtPos : List (Nat × Desc) → Nat → Option (Nat × Desc × Nat)
  | [], _ => none
  | e :: rest, t => if t < tileCount e.2.n then some (e.1, e.2, t) else tileAtPos rest (t - tileCount e.2.n)

/-- The position of a tile of a tensor in the fleet tile list. -/
def posOfTile : List (Nat × Desc) → Nat → Nat → Option Nat
  | [], _, _ => none
  | e :: rest, tensor, L =>
    if e.1 = tensor then (if L < tileCount e.2.n then some L else none) else
    (posOfTile rest tensor L).map (· + tileCount e.2.n)

/-- The owner of tile t (R316). -/
def Member.owner (m : Member) (total t : Nat) : Nat := nth m.present (t * m.present.length / max total 1)

/-- OWN_MAX (R316). -/
def Member.ownMax (m : Member) (total : Nat) : Nat := ceilDiv total (max m.present.length 1)

/-- The ordinal of tile t among those of its owner: the owner's first tile is the first t' with the same owner. -/
def Member.ordinal (m : Member) (total t : Nat) : Nat :=
  let n := max m.present.length 1
  t - ceilDiv (t * m.present.length / max total 1 * total) n

/-- MSG: bytes of a tile message's slot (R317). -/
def msgBytes (wire : Nat) : Nat := roundUp (64 + 304 + 512 * blockBytes wire) 64

/-- Offset of a sender's Up slot: its index among the present ranks and the owned ordinal (R317). -/
def Member.upSlot (m : Member) (total sender ordinal : Nat) : Nat :=
  262144 + (m.present.idxOf sender * m.ownMax total + ordinal) * msgBytes m.wire

/-- Offset of the Down slot of tile t (R317). -/
def Member.downSlot (m : Member) (total t : Nat) : Nat :=
  262144 + m.present.length * m.ownMax total * msgBytes m.wire + t * msgBytes m.wire

/-- Bytes of the receive area (R317). -/
def Member.rxNeed (m : Member) (total : Nat) : Nat := m.downSlot total total

/-- Trained elements of the loaded pattern. -/
def State.trainedElems (s : State) : Nat := sumNat (s.trainedDescs.map fun e => volume e.2.n)

/-- Bytes of the residual area: two halves of one binary32 per trained element (R323). -/
def State.resNeed (s : State) : Nat := 8 * s.trainedElems

/-- The elements of a tile in the order that its residuals lie in: block by block, which is canonical order within the
tile. -/
def tileOrder (n : List Nat) (L : Nat) : List (List Nat) := (tileElems n L).flatMap (·.2)

/-- Elements in the tiles of a tensor before tile L. -/
def elemsBefore (n : List Nat) (L : Nat) : Nat :=
  sumNat ((List.range L).map fun k => let c := tileShape n k
    c.1 * c.2)

/-- Residual index of the first element of a tile of a tensor, in fleet tile list order (R323). -/
def residualIndex : List (Nat × Desc) → Nat → Nat → Nat
  | [], _, _ => 0
  | e :: rest, tensor, L => if e.1 = tensor then elemsBefore e.2.n L else volume e.2.n + residualIndex rest tensor L

/-- Device physical address of a residual in a half. -/
def State.residualAt (s : State) (m : Member) (half index : Nat) : Nat := m.resBase + 4 * s.trainedElems * half + 4 * index

end Sys2Proof.Machine
end

