-- ==== Sys2Proof/Machine/Context.lean ====
section
/-! DEFINITION. Contexts: SAVE_CONTEXT and RESTORE_CONTEXT from their acceptance to CONTEXT_TRANSFER_DONE (12 R306, 13 R323;
the order of sections and the layouts that the spec leaves open: log 31), and the pour-time overrides of firmware (02 R34, 03 R61, 08 R205). -/

namespace Sys2Proof.Machine

/-! ## Sections -/

/-- A section: its kind, tensor or layer, format, extents and content bytes, the CRC-64 that closes it apart. -/
structure Section where
  kind : Nat
  idx  : Nat
  fmt  : Nat
  n    : List Nat
  size : Nat
  deriving DecidableEq, Repr, Inhabited

/-- The site of context transfers. -/
def ctxSite : Site := { core := none, unit := iodUnit, ev := iodUnit }

/-- The copies of a tensor that the pattern places, or its bound one. -/
def State.copiesOf (s : State) (p : Pattern) (t : Nat) : List Tensor :=
  let placed := (p.regions.filter fun r => decide (r.kind = 1) && decide (r.tensor = t)).filterMap fun r => (s.shapeOf t).map fun d =>
    let a := p.regionAt r
    ({ idx := t, d := d.placed a.1 (p.dataSize d), direct := a.2, tiled := d.fmt == fmtB32, cap := capOf p (p.layerOf t) d.fmt,
       layer := p.layerOf t, room := some (if a.2 then (a.1, r.size) else r.span) } : Tensor)
  if !placed.isEmpty then placed else ((s.tensor t ctxSite).map fun x => [x]).getD []

/-- Bytes of the blocks of a tile. -/
def State.tileSizes (s : State) (d : Desc) (L : Nat) : List (Nat × Nat) :=
  let present := presentBlocks d.n L
  if d.fmt = fmtMapped then
    let fmts := s.mappedFmts d L present
    present.map fun B => (B, blockBytes (look 0 fmts B))
  else present.map fun B => (B, blockBytes d.fmt)

/-- Bytes of a forward copy: scale records, data, runner; a vector copy is one binary32 per element (R306). -/
def State.copyBytes (s : State) (p : Pattern) (t : Nat) (d : Desc) : Nat :=
  if (p.tensorNum t).vecCopy then 4 * volume d.n else
  let tiles := tileCount d.n
  304 * tiles + sumNat ((List.range tiles).map fun L => sumNat ((s.tileSizes d L).map (·.2))) + 4 * capOf p (p.layerOf t) d.fmt * tiles

/-- Bytes of a layer's monitor state: fifteen 64-bit totals in the order of R130, then ZERO_GRAD_RUN. -/
def layerStateBytes : Nat := 128

/-- The sections of a context of the loaded pattern (R306, R323). -/
def State.sections (s : State) : List Section :=
  match s.heat.pattern with
  | none => []
  | some p =>
    let tensors := s.trainedDescs.flatMap fun e =>
      let (t, d) := e
      let m := match p.updOf (p.layerOf t) with
        | some x => momentsOf x.1
        | none => 0
      let vol := 4 * volume d.n
      let one (k size : Nat) : Section := { kind := k, idx := t, fmt := d.fmt, n := d.n, size := size }
      [one 1 vol] ++ (if 1 ≤ m then [one 2 vol] else []) ++ (if 2 ≤ m then [one 3 vol] else []) ++
      (if isScaled d.fmt || (p.tensorNum t).vecCopy then [one 4 (s.copyBytes p t d)] else [])
    let trackers := (trackedTensors p s.shapeOf).map fun e =>
      ({ kind := 5, idx := e.1, fmt := e.2.2.fmt, n := e.2.2.n, size := 64 + 2 * tauCount (p.tensorNum e.1).trackMode e.2.2.n } : Section)
    let layers := (List.range p.nLayers).map fun l => ({ kind := 6, idx := l, fmt := 0, n := noPad, size := layerStateBytes } : Section)
    let res := if s.fleet.member.isSome then s.trainedDescs.map fun e =>
        ({ kind := 8, idx := e.1, fmt := e.2.fmt, n := e.2.n, size := 4 * volume e.2.n } : Section)
      else []
    let chans := (sortNat s.heat.chanSet).map fun i =>
      let k := ((p.chanTable i).getD []).length
      ({ kind := 7, idx := i, fmt := 0, n := [k, 0, 0, 0, 0], size := 8 * k } : Section)
    let exps := (sortNat s.heat.expSet).map fun l => ({ kind := 7, idx := l, fmt := 1, n := noPad, size := 8 } : Section)
    tensors ++ trackers ++ layers ++ chans ++ exps ++ res

/-- Offsets of sections from the start of the image: each on a 64-byte boundary behind the table of contents, content and
CRC-64; the length of the image comes with them. -/
def sectionOffsets (l : List Section) : List Nat × Nat :=
  l.foldl (fun acc e => (acc.1 ++ [acc.2], roundUp (acc.2 + e.size + 8) 64)) ([], roundUp (256 + 32 * l.length) 64)

/-- Size of the context image of the loaded pattern (QUERY code 0x03, R307). -/
def State.contextSize (s : State) : Nat := (sectionOffsets s.sections).2

/-! ## Pour-time overrides (R34, R55, R61, R205) -/

/-- A pattern with other entries in a channel table. -/
def Pattern.withChans (p : Pattern) (i : Nat) (t : List (Nat × Nat)) : Pattern :=
  match p.chanDir[i]? with
  | some e => { p with chans := p.chans.take e.1 ++ t ++ p.chans.drop (e.1 + t.length) }
  | none => p

/-- May firmware write a channel table: whole, every scale a positive normal binary32, every zero point at most 254, and those of
the tensors bound now within the bound of R55 (R61)? -/
def State.chanWriteOk (s : State) (p : Pattern) (i : Nat) (t : List (Nat × Nat)) : Bool :=
  (match p.chanDir[i]? with
    | some e => decide (t.length = 2 ^ e.2)
    | none => false) &&
  t.all (fun e => scaleOk e.1 && decide (e.2 ≤ 254)) && (p.withChans i t).zerosOk (s.heat.shapes ++ s.heat.bindings)

/-- A channel table takes effect; a refused write leaves the previous one in force (R61). -/
def State.setChans (s : State) (e : Nat × List (Nat × Nat)) : State :=
  match s.heat.pattern with
  | none => s
  | some p =>
    if !s.chanWriteOk p e.1 e.2 then s else
    { s with heat := { s.heat with pattern := some (p.withChans e.1 e.2), chanSet := addTo s.heat.chanSet e.1 } }

/-- The scale exponent of a layer's update table takes effect; it is 0 to 63 (R205). -/
def State.setExp (s : State) (e : Nat × Nat) : State :=
  match s.heat.pattern with
  | none => s
  | some p =>
    match p.updDir[e.1]? with
    | none => s
    | some x =>
      if x.1 = 0xFFFFFFFF ∨ 63 < e.2 then s else
      { s with heat := { s.heat with
          pattern := some { p with updTabs := setAt p.updTabs x.1 fun t => (t.1, e.2) }, expSet := addTo s.heat.expSet e.1 } }

/-! ## Reading the state -/

/-- Bytes read for a context, with a flag for each that lies in a word which cannot be corrected (R279). -/
abbrev Held := List Byte × List Bool

/-- Bytes that no bad word feeds. -/
def sound (b : List Byte) : Held := (b, List.replicate b.length false)

/-- Puts two stretches together. -/
def Held.join (a b : Held) : Held := (a.1 ++ b.1, a.2 ++ b.2)

/-- Which bytes of a stretch lie in words that cannot be corrected. -/
def State.badAt (s : State) (direct : Bool) (a n : Nat) : List Bool :=
  if s.mem.synd.isEmpty then List.replicate n false else
  if direct then (List.range n).map fun i => !(s.mem.readWord (a + i)).2.usable else s.badBytes ctxSite.unit a n

/-- Reads a stretch for a context. -/
def State.readHeld (s : State) (direct : Bool) (a n : Nat) (t : Stream) : Held × State :=
  let (r, s') := s.readAt direct ctxSite a n t
  ((r.bytes, s.badAt direct a n), s')

/-- Where the blocks of a tile lie: address and length of each. -/
def Tensor.blockSpots (t : Tensor) (L : Nat) (blocks : List (Nat × List Byte)) (ofs : Nat) : List (Nat × Nat) :=
  if t.d.fmt = fmtMapped then [(t.d.base + 64 * ofs, sumNat (blocks.map fun b => b.2.length))] else
  blocks.map fun b => ((t.d.blockAddr (rowCoord t.d.n L (b.1 / 4))).toNat + blockBytes t.d.fmt * (b.1 % 4), b.2.length)

/-- A two's complement number in 2 bytes. -/
def int16 (x : Int) : List Byte := natLe 2 (ofSigned 16 x)

/-- The forward copy of a scaled tensor: records, data, runner (R306). -/
def State.saveCopy (s : State) (x : Tensor) : Held × State :=
  let tiles := tileCount x.d.n
  let (recs, s) := s.readHeld x.direct x.d.scaleBase (304 * tiles) (scaleStream x.idx 0 tiles)
  let (data, s) := (List.range tiles).foldl (fun (acc : Held × State) L =>
    let present := presentBlocks x.d.n L
    let fmts := if x.d.fmt = fmtMapped then acc.2.mappedFmts x.d L present else []
    let ofs := (TileHdr.dec (slice recs.1 (304 * L) 304)).dataOfs
    let (bs, _, s) := acc.2.readBlocks x ctxSite L present fmts ofs
    (acc.1.join ((bs.map (·.2)).flatten, (x.blockSpots L bs ofs).flatMap fun e => acc.2.badAt x.direct e.1 e.2), s)) (([], []), s)
  let (run, s) := if x.cap = 0 then (([], []), s)
    else s.readHeld x.direct x.d.runnerBase (4 * x.cap * tiles) (runnerStream x.idx 0 (x.cap * tiles))
  ((recs.join data).join run, s)

/-- The bytes of a moment or master array of a trained tensor (log 25). -/
def State.saveMaster (s : State) (p : Pattern) (e : Section) : Held × State :=
  match p.regionOf 7 e.idx ctxSite with
  | none => (sound (zeros e.size), s)
  | some r => s.readHeld false (r.base + (e.kind - 1) * 4 * volume e.n) e.size (byAddress 0x1)

/-- The residuals of a trained tensor in canonical index order (R323). -/
def State.saveResiduals (s : State) (m : Member) (e : Section) : Held × State :=
  let l := s.trainedDescs
  (List.range (volume e.n)).foldl (fun (acc : Held × State) k =>
    let i := canonCoord e.n k
    let L := tileIndex e.n i
    let (r, s) := acc.2.readMem (s.residualAt m m.half (residualIndex l e.idx L + (tileOrder e.n L).idxOf i)) 4
    (acc.1.join (r.bytes, List.replicate 4 !r.ok), s)) (([], []), s)

/-- The content of a section. -/
def State.saveSection (s : State) (p : Pattern) (e : Section) : Held × State :=
  match e.kind with
  | 4 =>
    if (p.tensorNum e.idx).vecCopy then
      (sound ((List.range (volume e.n)).map fun k => natLe 4 (nth p.vecs ((p.tensorNum e.idx).vecFirst + k))).flatten, s)
    else (match s.copiesOf p e.idx with
      | x :: _ => s.saveCopy x
      | [] => (sound (zeros e.size), s))
  | 5 =>
    let mode := (p.tensorNum e.idx).trackMode
    (sound (natLe 1 mode ++ zeros 63 ++ ((List.range (tauCount mode e.n)).map fun k => int16 (look 0 s.heat.est (e.idx, k))).flatten), s)
  | 6 =>
    let c := countsOf s.heat.totals e.idx
    (sound (((List.range 15).map fun k => natLe 8 (nth c.c k)).flatten ++ natLe 8 (look 0 s.heat.zeroRun e.idx)), s)
  | 7 =>
    (sound (if e.fmt = 0 then (((p.chanTable e.idx).getD []).map fun x => natLe 4 x.1 ++ natLe 4 x.2).flatten
      else natLe 8 (match p.updOf e.idx with
        | some x => x.2.2
        | none => 0)), s)
  | 8 => (match s.fleet.member with
    | some m => s.saveResiduals m e
    | none => (sound (zeros e.size), s))
  | _ => s.saveMaster p e

/-- An entry of the table of contents (R306). -/
def tocEntry (e : Section) (ofs : Nat) : List Byte :=
  natLe 2 e.kind ++ natLe 2 e.idx ++ natLe 4 e.fmt ++ ((List.range 5).map fun k => natLe 4 (nth e.n k)).flatten ++ natLe 4 (ofs / 64)

/-- The header of an image (R306). -/
def State.contextHeader (s : State) (entries layers len : Nat) : List Byte :=
  let h := ascii "TIHOYCTX" ++ natLe 2 1 ++ natLe 1 s.fuses.order ++ zeros 1 ++ natLe 4 1 ++ natLe 8 s.heat.heatNum ++
    natLe 8 s.heat.updates ++ natLe 8 s.heat.cursor ++ ((List.range 4).map fun i => natLe 8 (nth s.heat.seeds i)).flatten ++
    natLe 4 entries ++ natLe 4 layers ++ natLe 8 len ++ zeros 160
  h ++ natLe 8 (crc64 h).toNat

/-- The context image of the loaded pattern. -/
def State.contextImage (s : State) (p : Pattern) : Held × State :=
  let l := s.sections
  let (ofs, len) := sectionOffsets l
  let toc := ((l.zip ofs).map fun e => tocEntry e.1 e.2).flatten
  let head := s.contextHeader l.length p.nLayers len ++ toc
  (l.zip ofs).foldl (fun (acc : Held × State) e =>
    let (b, s) := acc.2.saveSection p e.1
    (((acc.1.join (sound (zeros (e.2 - acc.1.1.length)))).join b).join (sound (natLe 8 (crc64 b.1).toNat)), s)) (sound head, s)
    |> fun r => ((slice r.1.1 0 len, r.1.2), r.2)

/-! ## Writing the state back -/

/-- A section as the table of contents names it, with its offset. -/
def tocRead (b : List Byte) : Section × Nat :=
  ({ kind := u b 0 1, idx := u b 2 2, fmt := u b 4 1, n := (List.range 5).map fun k => u b (8 + 4 * k) 4, size := 0 }, 64 * u b 28 4)

/-- Restores a forward copy into every copy that the pattern places. -/
def State.restoreCopy (s : State) (x : Tensor) (b : List Byte) : State :=
  let tiles := tileCount x.d.n
  let sizes (L : Nat) : List (Nat × Nat) := s.tileSizes x.d L
  let dataLen := sumNat ((List.range tiles).map fun L => sumNat ((sizes L).map (·.2)))
  ((List.range tiles).foldl (fun (acc : Nat × State) L =>
    let blocks := ((sizes L).foldl (fun (a : List (Nat × List Byte) × Nat) e => (a.1 ++ [(e.1, slice b a.2 e.2)], a.2 + e.2)) ([], acc.1)).1
    let run := slice b (304 * tiles + dataLen + 4 * x.cap * L) (4 * x.cap)
    let t : TileBytes := { scale := slice b (304 * L) 304, blocks := blocks, runner := run }
    (acc.1 + sumNat ((sizes L).map (·.2)), (acc.2.writeStreams x ctxSite L t).2)) (304 * tiles, s)).2

/-- Restores the residuals of a tensor into the active half (R323). -/
def State.restoreResiduals (s : State) (m : Member) (e : Section) (b : List Byte) : State :=
  let l := s.trainedDescs
  (List.range (volume e.n)).foldl (fun s k =>
    let i := canonCoord e.n k
    let L := tileIndex e.n i
    (s.writeMem (s.residualAt m m.half (residualIndex l e.idx L + (tileOrder e.n L).idxOf i)) (slice b (4 * k) 4)).2) s

/-- Restores tracker estimates where TRACK_MODE and tile extents agree with the loaded pattern's tensor (R235, R306). -/
def State.restoreEst (s : State) (p : Pattern) (e : Section) (b : List Byte) : State :=
  match (trackedTensors p s.shapeOf).find? fun x => x.1 = e.idx with
  | none => s
  | some x =>
    let mode := u b 0 1
    if mode ≠ (p.tensorNum e.idx).trackMode ∨ !sameTiles e.n x.2.2.n then s else
    { s with heat := { s.heat with est := (List.range (tauCount mode e.n)).foldl (fun l k =>
        put l (e.idx, k) (signedOf 16 (u b (64 + 2 * k) 2))) s.heat.est } }

/-- Writes one section back. -/
def State.restoreSection (s : State) (p : Pattern) (e : Section) (b : List Byte) : State :=
  match e.kind with
  | 4 =>
    if (p.tensorNum e.idx).vecCopy then
      let first := (p.tensorNum e.idx).vecFirst
      { s with heat := { s.heat with pattern := s.heat.pattern.map fun q => { q with
          vecs := (List.range (volume e.n)).foldl (fun l k => setAt l (first + k) fun _ => u b (4 * k) 4) q.vecs } } }
    else (s.copiesOf p e.idx).foldl (fun s x => s.restoreCopy x b) s
  | 5 => s.restoreEst p e b
  | 6 =>
    let c : LayerCounts := { c := (List.range 15).map (fun k => u b (8 * k) 8) ++ [0, 0] }
    State.storeTotals { s with heat := { s.heat with totals := put s.heat.totals e.idx c, zeroRun := put s.heat.zeroRun e.idx (u b 120 8) } } e.idx
  | 7 =>
    if e.fmt = 0 then s.setChans (e.idx, (List.range (b.length / 8)).map fun i => (u b (8 * i) 4, u b (8 * i + 4) 4))
    else s.setExp (e.idx, u b 0 8)
  | 8 => (match s.fleet.member with
    | some m => s.restoreResiduals m e b
    | none => s)
  | _ => (match p.regionOf 7 e.idx ctxSite with
    | some r => (s.writeAt false ctxSite (r.base + (e.kind - 1) * 4 * volume e.n) b (byAddress 0x1)).2
    | none => s)

/-- Content bytes of a section of an image. -/
def State.sectionSize (s : State) (p : Pattern) (e : Section) (b : List Byte) : Nat :=
  match e.kind with
  | 4 => s.copyBytes p e.idx ((s.shapeOf e.idx).getD default)
  | 5 => 64 + 2 * tauCount (u b 0 1) e.n
  | 6 => layerStateBytes
  | 7 => if e.fmt = 0 then 8 * nth e.n 0 else 8
  | _ => 4 * volume e.n

/-- Are the header and the table of contents those of a context of the loaded pattern (R306)? -/
def State.contextOk (s : State) (p : Pattern) (b : List Byte) (avail : Nat) : Bool :=
  let k := u b 72 4
  let toc := (List.range k).map fun i => (tocRead (slice b (256 + 32 * i) 32)).1
  let trained (l : List Section) : List (Nat × Nat × Nat × List Nat) :=
    (l.filter fun e => decide (e.kind ≤ 4)).map fun e => (e.kind, e.idx, e.fmt, e.n)
  let want := trained s.sections
  let have_ := trained toc
  decide (slice b 0 8 = ascii "TIHOYCTX") && decide (u b 8 2 = 1) && decide (u b 12 4 = 1) &&
  decide (u b 248 8 = (crc64 (slice b 0 248)).toNat) && decide (u b 76 4 = p.nLayers) && decide (u b 80 8 ≤ avail) &&
  decide (256 + 32 * k ≤ u b 80 8) && decide (have_.length = want.length) && want.all (fun e => decide (e ∈ have_)) &&
  toc.all fun e => decide (1 ≤ e.kind ∧ e.kind ≤ 8) && (e.kind != 6 || decide (e.idx < p.nLayers)) &&
    (e.kind != 8 || s.trainedDescs.any fun x => decide (x.1 = e.idx) && decide (x.2.n = e.n))

/-- Does a stretch of an image hold a byte of a word that could not be corrected? -/
def spoilt (bad : List Nat) (a n : Nat) : Bool := bad.any fun i => decide (a ≤ i) && decide (i < a + n)

/-- Restores an image that has been read whole: checked, then written section by section; a section whose CRC fails ends the
command and leaves committed state invalid (R306). A word that could not be corrected counts as one that fails its check (log 31).
The tracker words follow their restored entries (R106). -/
def State.restoreImage (s : State) (o : Op) (p : Pattern) (b : List Byte) (bad : List Nat) : State :=
  if !s.contextOk p b b.length || spoilt bad 0 (256 + 32 * u b 72 4) then s.finishOp o stInvalid 0 0 else
  let entries := (List.range (u b 72 4)).map fun i => tocRead (slice b (256 + 32 * i) 32)
  let r := entries.foldl (fun (acc : Bool × State) x =>
    if !acc.1 then acc else
    let body := b.drop x.2
    let n := acc.2.sectionSize p x.1 body
    let content := slice body 0 n
    (decide (u body n 8 = (crc64 content).toNat) && !spoilt bad x.2 (n + 8), acc.2.restoreSection p x.1 content)) (true, s)
  if !r.1 then State.finishOp { r.2 with heat := { r.2.heat with badState := true } } o stInvalid 0 0 else
  let heat := u b 16 8
  let t : State := State.storeTrackers { r.2 with heat := { r.2.heat with
    heatNum := heat, updates := u b 24 8, cursor := u b 32 8, seeds := (List.range 4).map fun i => u b (40 + 8 * i) 8,
    badState := false } }
  t.finishOp o stOk (u b 80 8) heat

/-! ## The commands -/

/-- May a context lie in an area: host memory, or the interleaved window outside plan regions and reserved areas (R306)? -/
def State.areaOk (s : State) (area len : Nat) (host : Bool) : Bool :=
  host || (decide (lpBase ≤ area) && decide (area + len ≤ lpBase + s.interSize - 9 * gib) &&
    s.mem.frames.all fun f => !overlaps area len (65536 * f.2) 65536)

/-- The status with which SAVE_CONTEXT is accepted or refused (R303, R306). -/
def State.saveStatus (s : State) (area len : Nat) (host : Bool) : Nat :=
  if s.heat.pattern.isNone || (s.running && !s.jobSuspended) then stConfig else
  if !s.areaOk area len host || decide (len < s.contextSize) then stInvalid else stOk

/-- The positions of the flags that are set. -/
def trueAt (l : List Bool) : List Nat := if l.all (!·) then [] else (List.range l.length).filter fun i => l.getD i false

/-- SAVE_CONTEXT, accepted: the image is formed from the committed state and goes to its area. -/
def State.saveStart (s : State) (o : Op) (area len : Nat) (host : Bool) : State :=
  match s.heat.pattern with
  | none => s
  | some p =>
    let (b, s) := s.contextImage p
    let c : CtxOp := { save := true, area := area, length := len, host := host, image := b.1, bad := trueAt b.2, done := !host }
    let s := { s with ops := s.ops ++ [{ o with body := .context c }] }
    if host then s.hostWrite area b.1 (.context o.ring o.id) else s

/-- The status with which RESTORE_CONTEXT is accepted or refused. -/
def State.restoreStatus (s : State) (area len : Nat) (host : Bool) : Nat :=
  if s.heat.pattern.isNone || s.running then stConfig else
  if !s.areaOk area len host || decide (len < 256) then stInvalid else stOk

/-- RESTORE_CONTEXT, accepted: its image is read. -/
def State.restoreStart (s : State) (o : Op) (area len : Nat) (host : Bool) : State :=
  let c : CtxOp := { save := false, area := area, length := len, host := host, image := [], bad := [], done := !host }
  let s := { s with ops := s.ops ++ [{ o with body := .context c }] }
  if host then s.hostRead area len (.context o.ring o.id) else s

/-- The host-held lines of the plan regions (R290). -/
def State.planLines (s : State) : List Nat := s.port.hostLines.filter s.inPlan

/-- CONTEXT_TRANSFER_DONE: the image has moved whole and the command completes; a restore first waits for the host's lines of
the plan regions (R290). While its host access is unanswered nothing happens. -/
def contextTransferOp (ring tag : Nat) (s : State) : State :=
  match s.findTag ring tag with
  | none => s
  | some o =>
    match o.body with
    | .context c =>
      if !c.done ∨ !o.waitFor.isEmpty then s else
      if c.save then
        let s := if c.host then s else c.bad.foldl (fun s i => s.poison (c.area + i)) (s.writeMem c.area c.image).2
        s.finishOp o stOk c.image.length 0
      else
        if s.running then s.finishOp o stConfig 0 0 else
        if !s.planLines.isEmpty then s.waitLines o s.planLines else
        let (b, bad, s) := if c.host then (c.image, [], s) else
          let (r, t) := s.readMem c.area c.length
          (r.bytes, trueAt (s.badAt true c.area c.length), t)
        match s.heat.pattern with
        | some p => s.restoreImage o p b bad
        | none => s.finishOp o stConfig 0 0
    | _ => s

end Sys2Proof.Machine
end

