-- ==== Sys2Proof/Machine/Fleet.lean ====
section
/-! DEFINITION. The fleet: joining and leaving, messages, uplinks, reduction, losses and the fleet verdict (13 R312 to R331). -/

namespace Sys2Proof.Machine

/-! ## Membership (R313 to R315, R331) -/

/-- Clears a range of memory: every word reads +0 and is good. -/
def State.clearRange (s : State) (a n : Nat) : State :=
  let s := s.activate a n
  { s with mem := { s.mem with
    cells := s.mem.cells.filter fun c => !(decide (a ≤ c.1) && decide (c.1 < a + n)),
    synd := s.mem.synd.filter fun e => !(decide (a / 8 ≤ e.1) && decide (e.1 < (a + n + 7) / 8)) } }

/-- FLEET_RANK in force (R312). -/
def State.fleetRank (s : State) : Nat := nth s.regs.pourSync.active 2

/-- Sync role in force: 0 NONE, 1 MASTER, 2 FOLLOWER (R38, R404). -/
def State.syncRole (s : State) : Nat := fld (nth s.regs.pourSync.active 0) 1 0

/-- Does a state of the module refuse FLEET_JOIN (R314)? -/
def State.joinRefused (s : State) : Bool :=
  s.heat.pattern.isNone || s.running || decide (s.syncRole = 0) ||
    (decide (s.syncRole = 1) && !bitOf (nth s.regs.pourSync.active 0) 2)

/-- Are the fields of FLEET_JOIN in range, and FLEET_RANK below FLEET_SIZE (R314)? -/
def State.joinFieldsOk (s : State) (a : JoinArgs) : Bool :=
  decide (1 ≤ a.size ∧ a.size ≤ 4096) && (a.wire == 0x04 || a.wire == 0x24) && decide (1 ≤ a.deadline ∧ a.deadline ≤ 1048575) &&
    decide (s.fleetRank < a.size)

/-- A peer-table entry: FLAGS and RX_ADDR (R315). -/
def peerEntry (b : List Byte) (r : Nat) : Nat × Nat := (u b (32 * r) 1, u b (32 * r + 8) 8)

/-- The membership that a peer table describes. -/
def memberOf (a : JoinArgs) (rank : Nat) (b : List Byte) : Member :=
  let present := (List.range a.size).filter fun r => bitOf (peerEntry b r).1 0
  { jobId := a.jobId, size := a.size, wire := a.wire, deadline := a.deadline, rank := rank, present := present,
    rxAddr := present.map fun r => (r, (peerEntry b r).2), rxBase := a.rxBase, rxLen := a.rxLen, resBase := a.resBase,
    resLen := a.resLen, half := 0, fseq := 0 }

/-- Does a membership continue one that FLEET_LEAVE ended, without the ranks whose loss ended the operation with ST_PEER_LOST: same
job, size, wire format, rank and areas, fewer ranks present, none of them one that this member lost, and the others unchanged
(R331)? -/
def Member.continues (m old : Member) (lost : List Nat) : Bool :=
  decide (m.jobId = old.jobId) && decide (m.size = old.size) && decide (m.wire = old.wire) && decide (m.rank = old.rank) &&
    decide (m.resBase = old.resBase) && decide (m.resLen = old.resLen) && decide (m.present.length < old.present.length) &&
    m.present.all (fun r => decide (r ∈ old.present) && decide (r ∉ lost)) && m.rxAddr.all fun e => decide (e ∈ old.rxAddr)

/-- The peer table has arrived: the module joins, with its residual area filled with +0 unless it goes on with the residuals
of the membership it left (R314, R331, log 32), or is refused. -/
def State.joinTable (s : State) (c : Rc) (a : JoinArgs) (sqHead : Nat) (b : List Byte) : State :=
  let m := memberOf a s.fleetRank b
  let total := tileTotal s.trainedDescs
  let flagsOk := (List.range a.size).all fun r => decide ((peerEntry b r).1 < 2)
  if s.joinRefused then s.complete c 0x40 sqHead stConfig 0 0 else
  if !flagsOk || decide (s.fleetRank ∉ m.present) then s.complete c 0x40 sqHead stInvalid 0 0 else
  if a.rxLen < m.rxNeed total ∨ a.resLen < s.resNeed then s.complete c 0x40 sqHead stInvalid (m.rxNeed total) s.resNeed else
  if !s.areaOk a.rxBase a.rxLen false || !s.areaOk a.resBase a.resLen false then s.complete c 0x40 sqHead stInvalid 0 0 else
  let (m, s) := match s.fleet.left, s.fleet.peerLost with
    | some old, some lost =>
      if m.continues old lost then ({ m with half := old.half }, s) else (m, s.clearRange a.resBase a.resLen)
    | _, _ => (m, s.clearRange a.resBase a.resLen)
  let s := { s with fleet := { s.fleet with member := some m, exch := exch0, left := none } }
  s.complete c 0x40 sqHead stOk m.present.length 0

/-- The status with which FLEET_JOIN is accepted or refused before its peer table is read (R314). -/
def State.joinStatus (s : State) (a : JoinArgs) : Nat :=
  if s.joinRefused then stConfig else if !s.joinFieldsOk a then stInvalid else stOk

/-- FLEET_JOIN, accepted: its peer table is read, and its ring waits. -/
def State.joinStart (s : State) (c : Rc) (a : JoinArgs) (sqHead : Nat) : State :=
  (s.setRing c.ring fun q => { q with busy := true }).hostRead a.peers (32 * a.size) (.peerTable c a sqHead)

/-- The status of FLEET_LEAVE. -/
def State.leaveStatus (s : State) : Nat := if s.running then stConfig else stOk

/-- FLEET_LEAVE, accepted. -/
def State.leave (s : State) : State :=
  let left := match s.fleet.member with
    | some m => some m
    | none => s.fleet.left
  { s with fleet := { s.fleet with member := none, exch := exch0, left := left } }

/-! ## Losses (R327) -/

/-- Changes the exchange. -/
def State.setExch (s : State) (f : Exchange → Exchange) : State := { s with fleet := { s.fleet with exch := f s.fleet.exch } }

/-- The positions of tiles still missing from a rank: its contributions to owned tiles, and its own Down tiles. -/
def State.missingFrom (s : State) (m : Member) (rank : Nat) : List Nat :=
  let total := tileTotal s.trainedDescs
  (List.range total).filter fun t =>
    let o := m.owner total t
    (decide (o = m.rank) && decide (rank ≠ m.rank) && !s.fleet.exch.leaves.any fun e => decide (e.1 = t) && decide (e.2.1 = rank)) ||
      (decide (o = rank) && decide (rank ≠ m.rank) && decide (t ∉ s.fleet.exch.downs))

/-- DATA of EV_PEER_LOST (R327). -/
def peerLostData (rank reason missing heat : Nat) : Nat :=
  rank % 2 ^ 12 + reason % 8 * 2 ^ 12 + missing % 2 ^ 32 * 2 ^ 16 + heat % 2 ^ 64 * 2 ^ 48

/-- A partner is lost for the attempt: reason 0 MISSING, 1 WRITE_FAILED, 2 MISMATCH. PEER_LOST is set and EV_PEER_LOST raised
once per rank. A rank to which a write failed gets nothing more, whatever it was lost for before. -/
def State.losePeer (s : State) (m : Member) (rank reason heat : Nat) : State :=
  let s := if reason = 1 then s.setExch fun x => { x with failed := addTo x.failed rank } else s
  if s.fleet.exch.lost.any (fun e => e.1 = rank) then s else
  let n := (s.missingFrom m rank).length
  let s := s.setExch fun x => { x with lost := x.lost ++ [(rank, reason, heat)] }
  let s := if s.wordOpen then s.cause iodUnit 14 else s
  s.raise evPeerLost noUnit 0 (peerLostData rank reason n heat)

/-- Sends bytes to a partner's receive area, past the snooper of that direction. Without a link the write fails (R330); a partner to
which a write failed gets nothing more (R327). -/
def State.sendPeer (s : State) (m : Member) (rank ofs tensor : Nat) (b : List Byte) : State :=
  if rank ∈ s.fleet.exch.failed then s else
  if !s.linkLive then s.losePeer m rank 1 0 else
  let a := look 0 m.rxAddr rank + ofs
  (s.emit (.peerWrite a b)).snoop 126 0x6 tensor (addrBlocks a b)

/-! ## Messages (R317, R318) -/

/-- A message header (R318). -/
structure MsgHdr where
  kind    : Nat
  src     : Nat
  dst     : Nat
  fseq    : Nat
  job     : Nat
  heat    : Nat
  updates : Nat
  tensor  : Nat
  l       : Nat
  status  : Nat
  first   : Nat
  deriving DecidableEq, Repr, Inhabited

/-- The 64 bytes of a header, HCRC last. -/
def MsgHdr.enc (h : MsgHdr) : List Byte :=
  let b := natLe 60 (h.kind % 256 + h.src % 4096 * 2 ^ 8 + h.dst % 4096 * 2 ^ 20 + h.fseq % 2 ^ 32 * 2 ^ 32 + h.job % 2 ^ 64 * 2 ^ 64 +
    h.heat % 2 ^ 64 * 2 ^ 128 + h.updates % 2 ^ 64 * 2 ^ 192 + h.tensor % 4096 * 2 ^ 256 + h.l % 2 ^ 32 * 2 ^ 272 +
    h.status % 2 ^ 32 * 2 ^ 304 + h.first % 2 ^ 64 * 2 ^ 336)
  b ++ natLe 4 (crc32c b).toNat

/-- Reads a header. -/
def MsgHdr.dec (b : List Byte) : MsgHdr :=
  let v := u b 0 64
  { kind := fld v 7 0, src := fld v 19 8, dst := fld v 31 20, fseq := fld v 63 32, job := fld v 127 64, heat := fld v 191 128,
    updates := fld v 255 192, tensor := fld v 267 256, l := fld v 303 272, status := fld v 335 304, first := fld v 399 336 }

/-- The header of a message of this attempt. -/
def State.header (s : State) (m : Member) (kind dst tensor l status first : Nat) : MsgHdr :=
  { kind := kind, src := m.rank, dst := dst, fseq := m.fseq, job := m.jobId, heat := s.fleet.exch.heatNum,
    updates := s.fleet.exch.updates, tensor := tensor, l := l, status := status, first := first }

/-- Sends a message: its payload, and its header once every write of the payload has completed (R319). -/
def State.sendMsg (s : State) (m : Member) (ofs : Nat) (h : MsgHdr) (payload : List Byte) : State :=
  let s := if payload.isEmpty then s else s.sendPeer m h.dst (ofs + 64) h.tensor payload
  s.sendPeer m h.dst ofs h.tensor h.enc

/-! ## Tiles on the wire (R320 to R322) -/

/-- The values of a tile's elements by block. -/
def blockVals (n : List Nat) (L : Nat) (vals : List F32) : List (Nat × List F32) :=
  ((tileElems n L).foldl (fun (acc : List (Nat × List F32) × List F32) e =>
    (acc.1 ++ [(e.1, acc.2.take e.2.length)], acc.2.drop e.2.length)) ([], vals)).1

/-- Which values of a tile count as non-finite elements: those that are, or the lanes of a tile whose retry exponent exceeds 128
(R99, R121, log 148). -/
def wireBad (wire : Nat) (n : List Nat) (L : Nat) (vals : List F32) : List Bool :=
  let blocks := (blockVals n L vals).map fun e => (e.1, e.2.map fv)
  let mx := tileMaxOf ((blockVals n L vals).map fun e => ({ b := e.1, fmt := wire, z := 0, vals := e.2.map fv, rnds := [] } : BlkIn))
  if vals.all (fun x => isFin32 x) && decide (128 < retryExp [wire] mx) then vals.map fun x => hugeLane wire blocks (fv x)
  else vals.map fun x => !isFin32 x

/-- Converts a tile's values to the wire format from their own maximum: offsets, RNE, no extraction (R320). -/
def wireTile (wire : Nat) (n : List Nat) (L : Nat) (vals : List F32) : TileBytes :=
  let ins : List BlkIn := (blockVals n L vals).map fun e =>
    { b := e.1, fmt := wire, z := 0, vals := e.2.map fv, rnds := e.2.map fun _ => .rne }
  let mx := tileMaxOf ins
  let o := convTile (clampET (retryExp [wire] mx)) (fun _ => 0) 0 true ins
  tileStreams wire L { valid := true, tileMax := mx, nonfinite := (wireBad wire n L vals).any (· == true) } o

/-- A wire tile as its reader holds it. -/
def wireTileOf (wire : Nat) (b : TileBytes) : Tile :=
  { hdr := { TileHdr.dec b.scale with fmt := wire }, ofs := (List.range 512).map (offsetOf b.scale), blocks := b.blocks, fmts := [],
    runner := [] }

/-- The stored values of a wire tile, in the order of the tile's elements. -/
def wireVals (wire : Nat) (n : List Nat) (L : Nat) (b : TileBytes) : List F32 :=
  (tileOrder n L).map fun i => rne32 (operandAt n [(L, .scaled (wireTileOf wire b))] i 0).v

/-- The bytes of a tile in a message: its scale record, then its data blocks (R317). -/
def wireBytes (b : TileBytes) : List Byte := b.scale ++ (b.blocks.map (·.2)).flatten

/-- Takes the tile of a message apart. -/
def wireParse (wire : Nat) (n : List Nat) (L : Nat) (b : List Byte) : TileBytes :=
  let present := presentBlocks n L
  let bb := blockBytes wire
  { scale := slice b 0 304, blocks := ((List.range present.length).zip present).map fun e => (e.2, slice b (304 + bb * e.1) bb),
    runner := [] }

/-- Steps 2 to 6 of R78 on a wire tile, whose RUNNER_CNT must be 0 (R319): no element of it may hold an escape code. -/
def wireOk (wire : Nat) (n : List Nat) (L : Nat) (b : TileBytes) : Bool :=
  streamsOk b.scale wire 0 L (presentBlocks n L) (b.blocks.map (·.2)).flatten &&
    runnerOk (wireTileOf wire b) [] L (blockLanes n L) (presentBlocks n L)

/-- The site of the fleet reduction engine: the IOD. -/
def fleetSite : Site := { core := none, unit := iodUnit, ev := iodUnit }

/-- Reads the final pairs of a gradient tile in element order (R320). -/
def State.readPairs (s : State) (tensor : Nat) (n : List Nat) (L : Nat) : List Pair × Fate × State :=
  match s.pairHome tensor fleetSite with
  | none => ([], .fault, s)
  | some (b, direct) =>
    (tileOrder n L).foldl (fun (acc : List Pair × Fate × State) i =>
      let (r, s) := acc.2.2.readAt direct fleetSite (b + 131072 * L + 8 * ((nth i 1 % 128) * 128 + nth i 0 % 128)) 8 (byAddress 0x1)
      (acc.1 ++ [⟨f32At r.bytes 0, f32At r.bytes 4⟩], acc.2.1.worse r.fate, s)) ([], .good, s)

/-- Writes the final pairs (value, +0) of a gradient tile (R322). -/
def State.writePairs (s : State) (tensor : Nat) (n : List Nat) (L : Nat) (vals : List F32) : State :=
  match s.pairHome tensor fleetSite with
  | none => s
  | some (b, direct) =>
    ((tileOrder n L).zip vals).foldl (fun s e =>
      (s.writeAt direct fleetSite (b + 131072 * L + 8 * ((nth e.1 1 % 128) * 128 + nth e.1 0 % 128)) (natLe 4 e.2.toNat ++ zeros 4)
        (byAddress 0x1)).2) s

/-- The residuals of a tile in a half. -/
def State.readRes32 (s : State) (m : Member) (half tensor L count : Nat) : List F32 × State :=
  let (r, s) := s.readMem (s.residualAt m half (residualIndex s.trainedDescs tensor L)) (4 * count)
  ((List.range count).map fun k => f32At r.bytes (4 * k), s)

/-- Writes the residuals of a tile in a half. -/
def State.writeRes32 (s : State) (m : Member) (half tensor L : Nat) (l : List F32) : State :=
  (s.writeMem (s.residualAt m half (residualIndex s.trainedDescs tensor L)) (l.map fun x => natLe 4 x.toNat).flatten).2

/-- Counts and notes non-finite elements that reach a conversion of the exchange (R99, R121, R320). -/
def State.wireNonfinite (s : State) (layer wire L : Nat) (n : List Nat) (vals : List F32) : State :=
  let bad := ((tileOrder n L).zip (wireBad wire n L vals)).filter fun e => e.2
  match bad with
  | [] => s
  | e :: _ =>
    let B := 4 * (nth e.1 1 % 128) + nth e.1 0 % 128 / 32
    ((s.count layer cNonfinite bad.length).noteNonfinite layer L B).cause iodUnit 0

/-- The monitor layer of a tensor of the loaded pattern. -/
def State.layerOfTensor (s : State) (t : Nat) : Nat :=
  match s.heat.pattern with
  | some p => p.layerOf t
  | none => 0

/-! ## The uplink (R320) -/

/-- One tile of an uplink: its contribution goes to its owner, the rounding error into the inactive residual half. -/
def State.uplinkTile (s : State) (m : Member) (tensor : Nat) (d : Desc) (L : Nat) : State :=
  let l := s.trainedDescs
  let total := tileTotal l
  let count := (tileOrder d.n L).length
  let (g, f, s) := s.readPairs tensor d.n L
  let (e, s) := s.readRes32 m m.half tensor L count
  let s := if f = .good then s else s.cause iodUnit 10
  let a := if f = .good then (g.zip e).map fun x => fadd (fadd x.1.hi x.2) x.1.lo else List.replicate count zero32
  let s := s.wireNonfinite (s.layerOfTensor tensor) m.wire L d.n a
  let b := wireTile m.wire d.n L a
  let q := wireVals m.wire d.n L b
  let s := s.writeRes32 m (1 - m.half) tensor L ((a.zip q).map fun x => if isFin32 x.1 then fsub x.1 x.2 else zero32)
  let t := (posOfTile l tensor L).getD 0
  let own := m.owner total t
  if own = m.rank then s.setExch fun x => { x with leaves := x.leaves ++ [(t, own, some (q.map (·.toNat)))] }
  else s.sendMsg m (m.upSlot total m.rank (m.ordinal total t)) (s.header m 1 own tensor L 0 0) (wireBytes b)

/-- Is the local root of every gradient tile of a tensor written (R196, R320)? -/
def State.rootsWritten (s : State) (tensor : Nat) (d : Desc) : Bool :=
  (List.range (tileCount d.n)).all fun L => decide ((8192 + tensor, L) ∈ s.heat.written)

/-- FLEET_UPLINK: a trained tensor whose local root is written goes up, tile by tile, once per attempt. -/
def fleetUplinkOp (tensor : Nat) (s : State) : State :=
  match s.fleet.member, s.trainedDescs.find? fun e => e.1 = tensor with
  | some m, some (_, d) =>
    if !s.fleet.exch.on || !s.wordOpen || decide (tensor ∈ s.fleet.exch.uplinked) || !s.rootsWritten tensor d then s else
    let s := s.setExch fun x => { x with uplinked := x.uplinked ++ [tensor] }
    (List.range (tileCount d.n)).foldl (fun s L => s.uplinkTile m tensor d L) s
  | _, _ => s

/-! ## Reduction (R321, R322) -/

/-- The leaves of a tile over all ranks, in rank order: absent ranks and failed tiles are +0. -/
def Exchange.leafPairs (x : Exchange) (m : Member) (t k : Nat) : List Pair :=
  (List.range m.size).map fun r =>
    match x.leaves.find? fun e => decide (e.1 = t) && decide (e.2.1 = r) with
    | some (_, _, some vs) => ⟨BitVec.ofNat 32 (nth vs k), zero32⟩
    | _ => pair0

/-- Have the leaves of every present rank arrived for a tile? -/
def Exchange.leavesIn (x : Exchange) (m : Member) (t : Nat) : Bool :=
  m.present.all fun r => x.leaves.any fun e => decide (e.1 = t) && decide (e.2.1 = r)

/-- FLEET_REDUCE_TILE: the owner of tile t sums its leaves by the canonical tree over rank in pair mode, writes the final pair,
adds its downlink error to its residual and sends the tile down. -/
def fleetReduceOp (t : Nat) (s : State) : State :=
  match s.fleet.member, tileAtPos s.trainedDescs t with
  | some m, some (tensor, d, L) =>
    let total := tileTotal s.trainedDescs
    let x := s.fleet.exch
    if !x.on || !s.wordOpen || decide (m.owner total t ≠ m.rank) || decide (t ∈ x.reduced) || !x.leavesIn m t then s else
    let count := (tileOrder d.n L).length
    let sums := (List.range count).map fun k => treeRoot pairAdd pair0 (x.leafPairs m t k)
    let hi := sums.map (·.hi)
    let s := s.wireNonfinite (s.layerOfTensor tensor) m.wire L d.n hi
    let b := wireTile m.wire d.n L hi
    let q := wireVals m.wire d.n L b
    let s := s.writePairs tensor d.n L q
    let (e, s) := s.readRes32 m (1 - m.half) tensor L count
    let e2 := (e.zip (sums.zip q)).map fun y => fadd y.1 (fadd (fsub y.2.1.hi y.2.2) y.2.1.lo)
    let s := s.writeRes32 m (1 - m.half) tensor L e2
    let s := s.setExch fun x => { x with reduced := x.reduced ++ [t] }
    (m.present.filter fun r => r ≠ m.rank).foldl (fun s r =>
      s.sendMsg m (m.downSlot total t) (s.header m 2 r tensor L 0 0) (wireBytes b)) s
  | _, _ => s

/-! ## Accepting messages (R318, R319, R322) -/

/-- Does a header pass the tests that R318 answers by ignoring and counting the message? -/
def headerPasses (m : Member) (b : List Byte) : Bool :=
  let h := MsgHdr.dec b
  decide (1 ≤ h.kind ∧ h.kind ≤ 3) && decide (h.src ∈ m.present) && decide (h.dst = m.rank) && decide (h.job = m.jobId) &&
    decide (u b 60 4 = (crc32c (slice b 0 60)).toNat)

/-- The slot in which a message of a header belongs (R317); none for a tile that the list does not hold. -/
def State.slotOf (s : State) (m : Member) (h : MsgHdr) : Option Nat :=
  let l := s.trainedDescs
  let total := tileTotal l
  match h.kind with
  | 1 => (posOfTile l h.tensor h.l).map fun t => m.upSlot total h.src (m.ordinal total t)
  | 2 => (posOfTile l h.tensor h.l).map fun t => m.downSlot total t
  | _ => some (64 * h.src)

/-- A tile of a message fails its checks: EV_PAIR_DESYNC and DESYNC (R319). -/
def State.wireDesync (s : State) (layer L : Nat) : State := ((s.count layer cDesync 1).noteDesync layer L).cause iodUnit 9

/-- An up tile is accepted by its owner. -/
def State.acceptUp (s : State) (m : Member) (h : MsgHdr) (d : Desc) (t : Nat) (b : List Byte) : State :=
  if m.owner (tileTotal s.trainedDescs) t ≠ m.rank ∨ h.src = m.rank then s else
  if s.fleet.exch.leaves.any (fun e => decide (e.1 = t) && decide (e.2.1 = h.src)) then s else
  let w := wireParse m.wire d.n h.l b
  let ok := wireOk m.wire d.n h.l w
  let s := if ok then s else s.wireDesync (s.layerOfTensor h.tensor) h.l
  s.setExch fun x => { x with
    leaves := x.leaves ++ [(t, h.src, if ok then some ((wireVals m.wire d.n h.l w).map (·.toNat)) else none)] }

/-- A down tile is accepted: the final pair goes into the gradient region (R322). -/
def State.acceptDown (s : State) (m : Member) (h : MsgHdr) (d : Desc) (t : Nat) (b : List Byte) : State :=
  if m.owner (tileTotal s.trainedDescs) t ≠ h.src ∨ h.src = m.rank ∨ t ∈ s.fleet.exch.downs then s else
  let w := wireParse m.wire d.n h.l b
  let ok := wireOk m.wire d.n h.l w
  let s := if ok then s else s.wireDesync (s.layerOfTensor h.tensor) h.l
  let vals := if ok then wireVals m.wire d.n h.l w else List.replicate (tileOrder d.n h.l).length zero32
  (s.writePairs h.tensor d.n h.l vals).setExch fun x => { x with downs := x.downs ++ [t] }

/-- A message whose header passed and that belongs to this attempt. -/
def State.acceptMsg (s : State) (m : Member) (h : MsgHdr) (b : List Byte) : State :=
  match h.kind with
  | 3 =>
    if h.src = m.rank ∨ s.fleet.exch.statuses.any (fun e => e.1 = h.src) then s else
    s.setExch fun x => { x with statuses := x.statuses ++ [(h.src, h.status, h.first)] }
  | k =>
    match s.trainedDescs.find? (fun e => e.1 = h.tensor), posOfTile s.trainedDescs h.tensor h.l with
    | some (_, d), some t => if k = 1 then s.acceptUp m h d t (b.drop 64) else s.acceptDown m h d t (b.drop 64)
    | _, _ => s

/-- FLEET_MESSAGE_ACCEPT: a partner's write lands in the receive area, and the engine checks the header that it completes. -/
def fleetAcceptOp (offset : Nat) (message : List Byte) (s : State) : State :=
  match s.fleet.member with
  | none => s
  | some m =>
    if !s.linkLive || decide (m.rxLen < offset + message.length) then s else
    let s := (s.writeMem (m.rxBase + offset) message).2
    let s := s.snoop 125 0x6 (MsgHdr.dec message).tensor (addrBlocks (m.rxBase + offset) message)
    let h := MsgHdr.dec message
    if !headerPasses m message then { s with fleet := { s.fleet with ignored := s.fleet.ignored + 1 } } else
    if !s.fleet.exch.on || s.fleet.exch.ended || decide (s.slotOf m h ≠ some offset) then s else
    if h.fseq < m.fseq then s else
    if h.fseq ≠ m.fseq ∨ h.heat ≠ s.fleet.exch.heatNum ∨ h.updates ≠ s.fleet.exch.updates then s.losePeer m h.src 2 h.heat else
    s.acceptMsg m h message

/-! ## The fleet verdict (R324 to R327) -/

/-- Is the exchange done (R324)? Uplinks complete when they are sent, and so do downlinks; a write that completes with an error has
completed as well, and its rank is lost (R327; log 41). -/
def State.exchangeDone (s : State) (m : Member) : Bool :=
  let l := s.trainedDescs
  let total := tileTotal l
  let x := s.fleet.exch
  l.all (fun e => decide (e.1 ∈ x.uplinked)) && (List.range total).all fun t =>
    if m.owner total t = m.rank then decide (t ∈ x.reduced) else decide (t ∈ x.downs)

/-- The number of the lowest set bit. -/
def lowestBit (w : Nat) : Nat := ((List.range 32).find? fun i => w.testBit i).getD 0

/-- The FLEET_FIRST layout (R326). -/
def fleetFirst (rank layer L cause : Nat) (located : Bool) : Nat :=
  2 ^ 63 + rank % 4096 * 2 ^ 51 + (if located then layer % 1024 * 2 ^ 41 + L % 2 ^ 32 * 2 ^ 9 + 16 else 0) + cause % 16 * 2 ^ 5

/-- This member's local offender (R318, R326): 0 for a word without a cause. -/
def State.localFirst (s : State) (m : Member) (w : Nat) : Nat :=
  if w = 0 then 0 else
  let l := [s.heat.firstInv, s.heat.firstNon, s.heat.firstDes].filterMap fun f => f.map fun x => (x.layer, x.tile / 2 ^ 21)
  let low (a b : Nat × Nat) : Nat × Nat := if b.1 < a.1 ∨ (b.1 = a.1 ∧ b.2 < a.2) then b else a
  match l with
  | [] => fleetFirst m.rank 0 0 (lowestBit w) false
  | x :: xs =>
    let y := xs.foldl low x
    fleetFirst m.rank y.1 y.2 (lowestBit w) true

/-- Is the heat in VERDICT? -/
def State.inVerdict (s : State) : Bool :=
  match s.heat.job with
  | some j => j.phase == .verdict
  | none => false

/-- Freezes the local status word and sends it to every other present rank (R324, R339). -/
def State.freezeWord (s : State) (m : Member) : State :=
  let s := s.raiseNumerics
  let w := s.statusOr
  let first := s.localFirst m w
  let s := s.setExch fun x => { x with frozen := some w, first := first }
  (m.present.filter fun r => r ≠ m.rank).foldl (fun s r => s.sendMsg m (64 * m.rank) (s.header m 3 r 0 0 w first) []) s

/-- FLEET_STATUS_FREEZE. -/
def fleetFreezeOp (s : State) : State :=
  match s.fleet.member with
  | some m => if s.fleet.exch.on && s.inVerdict && s.fleet.exch.frozen.isNone && s.exchangeDone m then s.freezeWord m else s
  | none => s

/-- FLEET_DEADLINE_EXPIRY: FLEET_DEADLINE slots after VERDICT began, PEER_LOST is set for every rank whose message is missing,
and the word is frozen (R324). -/
def fleetDeadlineOp (s : State) : State :=
  match s.fleet.member with
  | some m =>
    if !(s.fleet.exch.on && s.inVerdict && s.fleet.exch.frozen.isNone) || decide (s.fleet.exch.slots < m.deadline) then s else
    let s := (m.present.filter fun r => decide (r ≠ m.rank) && !(s.missingFrom m r).isEmpty).foldl (fun s r => s.losePeer m r 0 0) s
    s.freezeWord m
  | none => s

/-- The combined word of the fleet: the frozen word, every accepted status, PEER_LOST for a loss, and REMOTE for causes that
this member's own word lacks (R326, R327). -/
def Exchange.combine (x : Exchange) : Nat :=
  let own := x.frozen.getD 0
  let others := x.statuses.foldl (fun acc e => acc ||| e.2.1) 0
  let all := own ||| others ||| (if x.lost.isEmpty then 0 else 2 ^ 14)
  let ownBits := own ||| (if x.lost.isEmpty then 0 else 2 ^ 14)
  if others &&& (2 ^ 32 - 1 - ownBits) &&& (2 ^ 32 - 1 - 2 ^ 15) = 0 then all else all ||| 2 ^ 15

/-- FLEET_FIRST of the heat record (R326): the lowest lost rank where a loss set PEER_LOST and nothing else arose, and otherwise
the offender of the lowest rank whose word holds a cause. -/
def Exchange.fleetFirst (x : Exchange) (rank : Nat) : Nat :=
  let words := (rank, x.frozen.getD 0, x.first) :: x.statuses
  let bad := words.filter fun e => e.2.1 ≠ 0
  match (if x.combine % 2 ^ 15 = 2 ^ 14 then x.lost else []), bad with
  | e :: rest, _ => Sys2Proof.Machine.fleetFirst (rest.foldl (fun a b => min a b.1) e.1) 0 0 14 false
  | [], e :: rest => (rest.foldl (fun a b => if b.1 < a.1 then b else a) e).2.2
  | [], [] => 0

/-- FLEET_VERDICT_END: the word is frozen here and every partner's status has been accepted, or this slot is VERDICT's slot
FLEET_DEADLINE + 64 and the missing ones are lost; the combined word is fixed (R325). -/
def fleetVerdictOp (s : State) : State :=
  match s.fleet.member with
  | some m =>
    let x := s.fleet.exch
    if !(x.on && s.inVerdict && x.frozen.isSome) || x.ended then s else
    let lacks := m.present.filter fun r => decide (r ≠ m.rank) && !x.statuses.any fun e => e.1 = r
    if !lacks.isEmpty && decide (x.slots + 1 < m.deadline + 64) then s else
    let s := lacks.foldl (fun s r => s.losePeer m r 0 0) s
    let w := s.fleet.exch.combine
    let s := s.setExch fun x => { x with ended := true, fleetFst := if w = 0 then 0 else x.fleetFirst m.rank }
    { s with heat := { s.heat with fixed := some w } }
  | none => s

/-- FLEET_WRITE_FAILED: a write to a partner was not completed: the partner is lost (R327). -/
def fleetWriteFailedOp (rank : Nat) (s : State) : State :=
  match s.fleet.member with
  | some m => if s.fleet.exch.on && !s.fleet.exch.ended && decide (rank ∈ m.present) && decide (rank ≠ m.rank) then s.losePeer m rank 1 0 else s
  | none => s

/-- A member begins an attempt: it has passed ADMIT (R318). -/
def State.beginExchange (s : State) : State :=
  match s.fleet.member with
  | some m =>
    { s with fleet := { s.fleet with
      member := some { m with fseq := m.fseq + 1 },
      exch := { exch0 with on := true, heatNum := s.heat.heatNum, updates := s.heat.updates } } }
  | none => s

/-- Does the combined word hold a MISMATCH loss (R329)? -/
def State.mismatched (s : State) : Bool := s.fleet.exch.lost.any fun e => e.2.1 = 2

/-- A committed heat's inactive residual half becomes active (R323). -/
def State.flipHalf (s : State) : State :=
  { s with fleet := { s.fleet with member := s.fleet.member.map fun m => { m with half := 1 - m.half } } }

end Sys2Proof.Machine
end

