-- ==== Sys2Proof/Machine/Admit.lean ====
section
/-! DEFINITION. The heat boundary: refusal or admission of a heat, suspension of the operation and of a partial heat, the
restart of a suspended one, and the commits that the boundary applies (02 R30 to R37, 08 R186, R187, R192, R193, R197,
09 R229, 12 R304, R308). -/

namespace Sys2Proof.Machine

/-- Changes the RUN_HEATS operation. -/
def State.setJob (s : State) (f : Job → Job) : State := { s with heat := { s.heat with job := s.heat.job.map f } }

/-! ## The heat-list entry (R186, R187) -/

/-- LEN[p] of an entry. -/
def entryLen (e : List Byte) (p : Nat) : Nat := u e (16 + 4 * p) 4 % 2 ^ 17

/-- Does a heat fit a template (R187)? -/
def Pattern.fits (p : Pattern) (t : Template) (e : List Byte) : Bool :=
  (List.range 32).all fun k =>
    let c := nth t.cls k
    let n := entryLen e k
    if c = 0xFF then decide (n = 0) else decide (0 < n) && decide (n ≤ (nth p.classes c).1)

/-- The template of a heat: the one its entry names, or under AUTO the lowest-numbered one that it fits; none refuses the
heat. -/
def Pattern.templateFor (p : Pattern) (e : List Byte) : Option Nat :=
  let b := u e 0 1
  let ok (i : Nat) : Bool := decide (i < p.templates.length) && p.fits (nth p.templates i) e
  if (List.range 32).any fun k => decide (65536 < entryLen e k) then none else
  if bitOf b 4 then (List.range p.templates.length).find? ok else if ok (b % 16) then some (b % 16) else none

/-- Tokens of a heat that are not padding, and padding tokens (R188). -/
def Pattern.tokenCounts (p : Pattern) (t : Template) (e : List Byte) : Nat × Nat :=
  (List.range 32).foldl (fun acc k =>
    let c := nth t.cls k
    if c = 0xFF then acc else (acc.1 + entryLen e k, acc.2 + ((nth p.classes c).1 - entryLen e k))) (0, 0)

/-- Micro-batches of a heat: the non-empty positions (R186). -/
def microBatches (e : List Byte) : Nat := ((List.range 32).filter fun k => decide (0 < entryLen e k)).length

/-! ## ADMIT (R31, R37, R192, R193, R197, R227) -/

/-- The status word's copies at the tick that opens ADMIT: carried causes with CARRIED, and STASH_EXHAUSTED while a riser
region has no fall-back. -/
def Heat.openStatus (h : Heat) : List (Nat × Nat) :=
  let w := (if h.carried = 0 then 0 else h.carried ||| 2 ^ 13) ||| (if h.noStash then 2 ^ 12 else 0)
  if w = 0 then [] else [(iodUnit, w)]

/-- What an attempt begins with: nothing of an earlier attempt counts. -/
def Heat.opened (h : Heat) : Heat :=
  { h with status := h.openStatus, carried := 0, tokens := [], obs := [], counts := [], minTile := [], firstInv := none,
           firstNon := none, firstDes := none, written := [], invalid := [], cores := [], seqs := [], passSums := [],
           rowRecs := [], rowScale := [], rowBuf := [], links := [], fixed := none, gradSeen := [], budget := 0, rereads := 0, refetched := false,
           leafData := [], leafMiss := [], waitOps := [], nodes := [], invProd := [], abandons := 0, sent := [] }

/-- The tick opens ADMIT: the heat of the entry is refused, or begins. Fences that had to wait for the next pour are due at
this heat's. -/
def State.openAdmit (s : State) : State :=
  match s.heat.job, s.heat.pattern with
  | some j, some p =>
    (match p.templateFor j.entry with
    | none => (s.setJob fun j => { j with endDetail := some j.h }).endJob stLength
    | some t =>
      let f := s.fences
      let s := { s with
        fences := { f with due := f.due ++ f.later, later := [], dueFrames := f.laterFrames.foldl addTo f.dueFrames, laterFrames := [] },
        heat := s.heat.opened }
      let s := s.storeTrackers.setJob fun j => { j with
        phase := .admitting, left := 1, slotInHeat := 0, template := t, partialAt := none, skipOps := s.heat.noStash, heatSlots := 0,
        stretchAc := 0, heatAt := s.heat.heatNum, pourStep := 0 }
      s.beginExchange)
  | _, _ => s

/-! ## Commits (R359 to R361) -/

/-- Applies a block's staged copy unless it was accepted less than 64 ac before this tick. -/
def State.commitDue (s : State) (b : CommitBlock) : State := if (s.regs.rws b).late then s else s.commitApply b

/-- After a tick the copies that came late wait for the next one. -/
def State.clearLate (s : State) : State :=
  s.setRegs fun r => { r with pourSync := { r.pourSync with late := false }, defaults := { r.defaults with late := false },
                              limits := { r.limits with late := false } }

/-! ## Suspension of a partial heat (R229) -/

/-- Pieces of at most 64 KiB of the regions whose contents a partial heat needs: internal tensors, riser and gradients. -/
def State.partialPieces (s : State) (p : Pattern) : List (Nat × Nat) :=
  (p.regions.filter fun r => decide (r.kind = 1) || decide (r.kind = 2) || decide (r.kind = 4)).flatMap fun r =>
    if r.inStore then (List.range (ceilDiv r.size 65536)).map fun i => ((p.regionAt r).1 + 65536 * i, min 65536 (r.size - 65536 * i))
    else (s.regionFrames r).map fun f => (65536 * f.2, 65536)

/-- The suspension region in pieces of at most 64 KiB: address and length of each. -/
def State.suspensionRoom (s : State) (p : Pattern) : List (Nat × Nat) :=
  (p.regions.filter fun r => r.kind = 8).flatMap fun r =>
    if r.inStore then (List.range (ceilDiv r.size 65536)).map fun i => ((p.regionAt r).1 + 65536 * i, min 65536 (r.size - 65536 * i))
    else (s.regionFrames r).map fun f => (65536 * f.2, 65536)

/-- A list of numbers as words: their count, then each. -/
def wordList (l : List Nat) : List Byte := natLe 8 l.length ++ (l.map (natLe 8)).flatten

/-- The words that go into the suspension region behind the regions: the status-word copies, the token counters, the alternate flags,
the OBS values and the heat's monitor counts (R229; their layout is the model's, log 152). -/
def Saved.words (v : Saved) : List Byte :=
  wordList (v.status.flatMap fun e => [e.1, e.2]) ++ wordList (v.tokens.flatMap fun e => [e.1.1, e.1.2, e.2]) ++
    wordList (v.alts.flatMap fun e => [e.1, e.2]) ++ wordList (v.obs.flatMap fun e => [e.1.1, e.1.2, e.2]) ++
    wordList (v.counts.flatMap fun e => e.1 :: e.2.c)

/-- Writes bytes piece by piece. -/
def State.putWords (s : State) : List (Nat × Nat) → List Byte → State
  | [], _ => s
  | r :: rs, b => if b.isEmpty then s else (s.writeMem r.1 (b.take r.2)).2.putWords rs (b.drop r.2)

/-- Copies the pieces of a partial heat into the suspension region, one piece each, with its words behind them, or copies the pieces
back. A piece for which the region has no room stays where it lies: nothing writes there while the operation is suspended (log
152). -/
def State.movePartial (s : State) (v : Saved) (back : Bool) : State :=
  match s.heat.pattern with
  | none => s
  | some p =>
    let ps := s.partialPieces p
    let room := s.suspensionRoom p
    let s := (ps.zip room).foldl (fun s e =>
      let n := min e.1.2 e.2.2
      if back then s.copyRange e.2.1 e.1.1 n else s.copyRange e.1.1 e.2.1 n) s
    if back then s else s.putWords (room.drop ps.length) v.words

/-- What a partial heat needs beside its regions. -/
def Heat.savePartial (h : Heat) : Saved :=
  { status := h.status, tokens := h.tokens, alts := h.alts, obs := h.obs, counts := h.counts, invalid := h.invalid, written := h.written,
    nodes := h.nodes }

/-- Puts it back. -/
def Heat.loadPartial (h : Heat) (v : Saved) : Heat :=
  { h with status := v.status, tokens := v.tokens, alts := v.alts, obs := v.obs, counts := v.counts, invalid := v.invalid,
           written := v.written, nodes := v.nodes }

/-- Writes the interim record of a suspension of RUN_HEATS (R308). -/
def State.suspendedRecord (s : State) : State :=
  match s.heat.job with
  | some j => if j.silentEnd then s else s.postSuspended j.rc 0x03 j.sqHead
  | none => s

/-- An urgent suspension takes effect at the tick that closes a slot with a suspension point: `next` is the phase of the slot
that RESUME continues with. -/
def State.suspendPartial (s : State) (next : Phase) : State :=
  let s := s.movePartial s.heat.savePartial false
  let s := { s with heat := { s.heat with saved := some s.heat.savePartial } }
  (s.setJob fun j => { j with phase := .suspended, partialAt := some next, suspend := false, urgent := false }).suspendedRecord

/-- A suspension takes effect at the heat boundary. -/
def State.suspendWhole (s : State) : State :=
  (s.setJob fun j => { j with phase := .suspended, partialAt := none, suspend := false, urgent := false }).suspendedRecord

/-- The partial heat continues at the slot that this tick opens. -/
def State.resumePartial (s : State) (v : Saved) : State :=
  let s := s.movePartial v true
  let s := State.storeTrackers { s with heat := { s.heat.loadPartial v with saved := none } }
  s.setJob fun j => { j with phase := j.partialAt.getD .verdict, partialAt := none }

/-! ## The boundary (R33, R37, R304) -/

/-- The operation ends, suspends, waits for its next entry, or admits its next heat. -/
def State.admitNext (s : State) : State :=
  match s.heat.job with
  | none => s
  | some j =>
    match j.endStatus with
    | some st => s.endJob st
    | none =>
      if j.suspend then s.suspendWhole else
      if j.args.heats ≤ j.h then s.endJob stOk else
      if j.entry.isEmpty then s.setJob fun j => { j with phase := .start } else s.openAdmit

/-- The heat boundary: held commits apply, and the heat's pour sync is over. -/
def State.heatBoundary (s : State) : State :=
  let s := s.commitDue .pourSync
  State.admitNext { s with heat := { s.heat with sync := s.heat.sync.fresh }, pins := { s.pins with syncOut := false } }

/-- A tick finds the operation before its next ADMIT: it waits for the seed block, the entry and the host's lines; a saved
partial heat continues (R229, R290, R304). -/
def State.startTick (s : State) : State :=
  match s.heat.job with
  | none => s
  | some j =>
    match j.endStatus, s.heat.saved with
    | some st, none => s.endJob st
    | _, saved =>
      if saved.isNone && j.suspend then s.suspendWhole else
      if !s.planLines.isEmpty then s else
      match saved with
      | some v => s.resumePartial v
      | none => if !j.seedsReady || (j.entry.isEmpty && decide (j.h < j.args.heats)) then s else (s.commitDue .pourSync).admitNext

end Sys2Proof.Machine
end

