-- ==== Sys2Proof/Machine/Sync.lean ====
section
/-! DEFINITION. Pour sync: edges and levels of POUR_SYNC_IN, the wait of a follower and of a master, the limit, and the
master's pulse (02 R38 to R45, 16 R404, R405). -/

namespace Sys2Proof.Machine

/-! ## Fields in force (R404) -/

/-- SYNC_GATE. -/
def State.syncGate (s : State) : Bool := bitOf (nth s.regs.pourSync.active 0) 2
/-- SYNC_LATE_POLICY: WAIT? -/
def State.syncWaits (s : State) : Bool := bitOf (nth s.regs.pourSync.active 0) 3
/-- SYNC_ADVANCE, at most half the slot length (R39, R405). -/
def State.syncAdvance (s : State) : Nat := min (fld (nth s.regs.pourSync.active 0) 16 4) (s.heat.slotLen / 2)
/-- POUR_WAIT_MAX. -/
def State.pourWaitMax (s : State) : Nat := fld (nth s.regs.pourSync.active 1) 19 0
/-- POUR_LEAD_MAX. -/
def State.pourLeadMax (s : State) : Nat := fld (nth s.regs.pourSync.active 1) 39 20

/-- Changes the pour sync. -/
def State.setSync (s : State) (f : Sync → Sync) : State := { s with heat := { s.heat with sync := f s.heat.sync } }

/-- Drives POUR_SYNC_OUT. -/
def State.driveSync (s : State) (b : Bool) : State := { s with pins := { s.pins with syncOut := b } }

/-- Is a heat in progress (R44)? None is before the operation's first ADMIT, while it waits for an entry, or while it is suspended; a
partial heat is again once RESUME has been accepted. -/
def State.heatInProgress (s : State) : Bool :=
  match s.heat.job with
  | some j => j.phase != .suspended && (j.phase != .start || s.heat.saved.isSome)
  | none => false

/-! ## Edges (R40, R41, R43, R44) -/

/-- One sync takes effect at a follower: discarded, latched, or counted as one too many. -/
def State.syncEffect (s : State) : State :=
  let y := s.heat.sync
  if y.discard || decide (0 < y.window) || !s.heatInProgress then
    (s.setSync fun y => { y with discard := false, window := 0 }).setRegs fun r => { r with syncDiscard := satAdd 32 r.syncDiscard 1 }
  else if !y.latched then s.setSync fun y => { y with latched := true, lead := 0 }
  else (s.setRegs fun r => { r with syncExtra := satAdd 32 r.syncExtra 1 }).raise evOverrun iodUnit 0 0

/-- Applies a number of syncs. -/
def State.syncEffects (s : State) : Nat → State
  | 0 => s
  | k + 1 => s.syncEffect.syncEffects k

/-- The syncs that take effect at a tick, and the discard window of a TAKE boundary, which counts slots. -/
def State.tickEdges (s : State) : State :=
  let y := s.heat.sync
  let due := (y.arriving.filter fun k => decide (k = 0)).length
  let s := s.setSync fun y => { y with arriving := (y.arriving.filter fun k => decide (0 < k)).map (· - 1),
                                       lead := if y.latched then y.lead + 1 else y.lead }
  let s := if s.syncRole = 2 then s.syncEffects due else s
  s.setSync fun y => { y with window := y.window - 1 }

/-- POUR_SYNC_IN_EDGE: the pin changes; a rising edge more than 64 ac before the next tick takes effect at it, a later one at
the tick after it. The level counts as high at a tick from 64 ac before it on (R40). -/
def syncInEdgeOp (level : Bool) (acBefore : Nat) (s : State) : State :=
  if level = s.pins.syncIn then s else
  let s := { s with pins := { s.pins with syncIn := level } }
  s.setSync fun y => { y with levelAt := if 64 ≤ acBefore then level else y.levelAt,
                              arriving := if level then y.arriving ++ [if 64 < acBefore then 0 else 1] else y.arriving }

/-! ## The wait (R41 to R43) -/

/-- The limit of the wait is reached without a sync or input: EV_SYNC_LATE once, and under TAKE the boundary of a follower or
the pulse of a gated master. -/
def State.limitReached (s : State) : State :=
  let s := (s.setSync fun y => { y with lateSeen := true }).raise evSyncLate iodUnit 0 0
  if s.syncWaits then s else
  if s.syncRole = 2 then
    let w := s.pourWaitMax
    s.heatBoundary.setSync fun y => { y with window := w }
  else s.setSync fun y => { y with pulseDue := true }

/-- Does the module wait in WAIT_SYNC? -/
def State.waitsSync (s : State) : Bool :=
  match s.heat.job with
  | some j => j.phase == .waitSync
  | none => false

/-- Has the wait of a follower or of a gated master reached its limit? -/
def State.limitDue (s : State) : Bool :=
  let y := s.heat.sync
  s.waitsSync && (s.syncRole == 2 || (s.syncRole == 1 && s.syncGate)) && !y.pulseDue && !y.pulsing && !y.lateSeen &&
    decide (s.pourWaitMax ≤ y.waited)

/-- SYNC_WAIT_EXPIRY. -/
def syncExpiryOp (s : State) : State := if s.limitDue then s.limitReached else s

/-- The pulse of a master: 64 ac high, its rising edge SYNC_ADVANCE before the tick that closes this slot (R39, R42). -/
def masterPulseOp (s : State) : State :=
  if !s.heat.sync.pulseDue then s else
  (s.setSync fun y => { y with pulseDue := false, pulsing := true }).emit (.syncPulse s.syncAdvance)

/-- A follower at a tick with its work done: the boundary, or its done level. -/
def State.followerTick (s : State) : State :=
  let y := s.heat.sync
  if y.latched then s.heatBoundary else
  if y.forced then s.heatBoundary.setSync fun y => { y with discard := true } else s.driveSync true

/-- A master at a tick with its work done: the boundary that closes the slot of its pulse, or the start of that slot. -/
def State.masterTick (s : State) : State :=
  let y := s.heat.sync
  if y.pulsing then s.heatBoundary else
  if !s.syncGate || y.levelAt || y.forced then s.setSync fun y => { y with pulseDue := true } else s

/-- A tick with the work done, in the role in force. -/
def State.doneTick (s : State) : State :=
  match s.syncRole with
  | 1 => s.masterTick
  | 2 => s.followerTick
  | _ => s.heatBoundary

/-- Work done: the tick that closes POUR. A latched sync that led by more than POUR_LEAD_MAX raises EV_HEAT_OVERRUN (R41). -/
def State.workDone (s : State) : State :=
  let s := s.setJob fun j => { j with phase := .waitSync }
  let s := s.setSync fun y => { y with waited := 0 }
  let y := s.heat.sync
  let s := if s.syncRole = 2 && y.latched && decide (s.pourLeadMax < y.lead) then s.raise evOverrun iodUnit 0 0 else s
  s.doneTick

/-- A later tick of WAIT_SYNC. -/
def State.waitTick (s : State) : State := (s.setSync fun y => { y with waited := y.waited + 1 }).doneTick

/-- After a tick the level of the pin counts for the next one. -/
def State.sampleLevel (s : State) : State := s.setSync fun y => { y with levelAt := s.pins.syncIn }

end Sys2Proof.Machine
end

