-- ==== Sys2Proof/Machine/Pour.lean ====
section
/-! DEFINITION. The verdict and what becomes of a heat, the pour step by step, and the heat record (02 R32, R34 to R36, 05
R107, R124 to R130, 08 R197 to R201, 12 R304, R305, 14 R335, R347, R348). -/

namespace Sys2Proof.Machine

/-! ## The verdict (R198 to R200, R329, R337) -/

/-- Is the heat in the VERDICT of a lone module, its word not fixed? -/
def State.fixDue (s : State) : Bool := s.inVerdict && s.heat.fixed.isNone && !s.fleet.exch.on

/-- The IOD applies the severities of the numerics events and fixes the combined word. -/
def State.fixWord (s : State) : State :=
  let s := s.raiseNumerics
  { s with heat := { s.heat with fixed := some s.statusOr } }

/-- VERDICT_FIX: at ac offset slot length - 512 of the VERDICT slot. -/
def verdictFixOp (s : State) : State := if s.fixDue then s.fixWord else s

/-- What becomes of a heat with a combined word, and the status that ends the operation after its pour. -/
def Job.dispose (j : Job) (w : Nat) (mismatch : Bool) : Job :=
  let fin (st : Nat) (j : Job) : Job := { j with endStatus := some (j.endStatus.getD st) }
  if w = 0 then { j with disposal := .commit } else
  if j.noReplay then { j with disposal := .replay } else
  if otherCauses w ≠ 0 then
    let j := { j with disposal := .replay, nonNumRun := j.nonNumRun + 1 }
    if bitOf w 12 then fin stStash j else
    if mismatch then fin stPeerLost j else
    if j.args.replayLimit ≤ j.nonNumRun then fin (if bitOf w 14 then stPeerLost else stVetoed) j else j
  else
    let j := { j with numVetoes := j.numVetoes + 1, nonNumRun := 0 }
    if j.numVetoes ≤ j.args.numReplays then { j with disposal := .replay } else
    if j.args.afterHalt then fin stVetoed { j with disposal := .replay } else { j with disposal := .skip }

/-- The tick that closes VERDICT: the outcome is final and POUR opens; the next heat's entry is read (R32, R304). -/
def State.openPour (s : State) (w : Nat) : State :=
  let n := match s.heat.pattern with
    | some p => p.pourSlots
    | none => 0
  let m := s.mismatched
  let s := s.setJob fun j => { j.dispose w m with phase := .pour, left := n, pourStep := 0, nextEntry := none, skipOps := false }
  let s := { s with heat := { s.heat with seqs := [] } }
  match s.heat.job with
  | some j =>
    if j.disposal ≠ .replay ∧ j.h + 1 < j.args.heats ∧ j.endStatus.isNone then
      s.hostRead (j.args.heatList + 144 * (j.h + 1)) 144 (.heatEntry (j.h + 1))
    else s
  | none => s

/-! ## Steps 1 to 5 (R34, R35) -/

/-- POUR: the pour of the opened phase starts, at step 1 for a committed heat and at step 4 for a vetoed one. -/
def pourOp (s : State) : State :=
  match s.heat.job with
  | some j =>
    if j.phase ≠ .pour ∨ j.pourStep ≠ 0 then s else
    let s := { s with heat := { s.heat with passSums := [] } }
    s.setJob fun j => { j with pourStep := if j.disposal = .commit then 1 else 4 }
  | none => s

/-- Step 3: each tracker entry folds its observed maximum into its estimate (R107). -/
def State.foldTrackers (s : State) : State :=
  match s.heat.pattern with
  | none => s
  | some p =>
    State.storeTrackers { s with heat := { s.heat with est := s.heat.obs.foldl (fun l e =>
        let n := p.tensorNum e.1.1
        put l e.1 (foldEst (look 0 l e.1) e.2 n.rise n.fall)) s.heat.est } }

/-- Completes every fence under way: all fences of a pour's step 4 complete before step 5 (R335). -/
def State.completeFences (s : State) : State :=
  (s.fences.fencing.map (·.unit)).foldl (fun s x => (s.clockStop x).powerGate x) s

/-- The status that step 4 ends the operation with (R232, R347, R348). -/
def State.step4Status (s : State) : Option Nat :=
  if s.heat.badGeom then some stGeometry else if s.heat.badFence || s.ladleLost then some stFenced else none

/-- What firmware has written for this pour takes effect: channel tables and layers' scale exponents (R34, R61, R205). -/
def State.applyWrites (s : State) : State :=
  let s := s.heat.chanNew.foldl State.setChans s
  let s := s.heat.expNew.foldl State.setExp s
  { s with heat := { s.heat with chanNew := [], expNew := [] } }

/-- Step 4: firmware's writes, due fences and frames, the placement that they ask for, the riser check, and on a commit the residual
halves (R34, R191, R231, R323, R335, R347). -/
def State.pourApply (s : State) (commit : Bool) : State :=
  let s := s.applyWrites
  let due := s.fences.due
  let frames := s.fences.dueFrames
  let s := (s.clearDue.applyFences due).completeFences
  let s := s.retireFrames frames
  let s := s.replacePattern.riserCheck
  let s := match s.step4Status with
    | some st => s.setJob fun j => { j with endStatus := some (j.endStatus.getD st) }
    | none => s
  if commit then s.flipHalf else s

/-- Step 5: the heat number and the cursors move on, and the update count on a commit (R36, R205). -/
def State.pourAdvance (s : State) (j : Job) : State :=
  if j.disposal = .replay then s else
  { s with heat := { s.heat with heatNum := (s.heat.heatNum + 1) % 2 ^ 64, cursor := (s.heat.cursor + microBatches j.entry) % 2 ^ 64,
                                 updates := s.heat.updates + (if j.disposal = .commit then 1 else 0) } }

/-! ## Step 6 (R126 to R130) -/

/-- The run length of a layer after this heat, whether it was a zero-gradient heat, and whether it raises EV_UNDERFLOW_RUN
(R126). -/
def State.zeroGrad (s : State) (p : Pattern) (commit : Bool) (layer : Nat) : Nat × Bool × Bool :=
  let old := look 0 s.heat.zeroRun layer
  if (p.trained layer).isEmpty then (0, false, false) else
  if !commit then (old, false, false) else
  if layer ∈ s.heat.gradSeen then (0, false, false) else
  let run := min (old + 1) 65535
  (run, true, decide (run = (p.layerNum layer).uflowMax) && decide (run ≠ old))

/-- The layer entry of the heat record (R130). -/
def layerEntry (c : LayerCounts) (run : Nat) (zero alarm : Bool) : List Byte :=
  ((List.range 14).map fun k => natLe 4 (nth c.c k)).flatten ++ natLe 2 (nth c.c cPeak) ++ natLe 2 run ++
    natLe 4 ((if zero then 1 else 0) + (if alarm then 2 else 0))

/-- OUTCOME (R129). -/
def Disposal.code : Disposal → Nat
  | .commit => 1
  | .replay => 2
  | .skip => 3

/-- The 128-byte header of the heat record (R129). -/
def State.recordHeader (s : State) (p : Pattern) (j : Job) : List Byte :=
  let tokens := p.tokenCounts (nth p.templates j.template) j.entry
  natLe 8 j.heatAt ++ natLe 1 j.disposal.code ++ natLe 1 (j.template % 16 + min j.attempt 15 * 16) ++ natLe 2 (p.nLayers - 1) ++
    natLe 4 (if j.disposal = .commit then 0 else s.heat.fixed.getD 0) ++ natLe 4 (min j.heatSlots (2 ^ 32 - 1)) ++
    natLe 4 (min (j.stretchAc / 1024) (2 ^ 32 - 1)) ++ natLe 4 tokens.1 ++ natLe 4 tokens.2 ++
    natLe 8 (First.enc s.heat.firstInv) ++ natLe 8 (First.enc s.heat.firstNon) ++ natLe 8 (First.enc s.heat.firstDes) ++
    natLe 8 s.fleet.exch.fleetFst ++ natLe 4 s.heat.budget ++ natLe 4 s.heat.rereads ++ zeros 56

/-- Totals of a layer (R127): sums, and the maximum of the peaks, held at 64 bits. -/
def addTotals (a b : LayerCounts) : LayerCounts :=
  { c := (List.range 17).map fun k => if k = cPeak then max (nth a.c k) (nth b.c k) else satAdd 64 (nth a.c k) (nth b.c k) }

/-- Step 6: run lengths, totals, the record, and EV_UNDERFLOW_RUN. The record is dropped while the link is down (R311). -/
def State.pourRecord (s : State) (p : Pattern) (j : Job) : State :=
  let layers := List.range p.nLayers
  let runs := layers.map fun l => (l, s.zeroGrad p (j.disposal == .commit) l)
  let entries := (runs.map fun e => layerEntry (countsOf s.heat.counts e.1) e.2.1 e.2.2.1 e.2.2.2).flatten
  let bytes := s.recordHeader p j ++ entries
  let s := { s with heat := { s.heat with
    zeroRun := runs.foldl (fun l e => put l e.1 e.2.1) s.heat.zeroRun,
    totals := s.heat.counts.foldl (fun l e => put l e.1 (addTotals (countsOf l e.1) e.2)) s.heat.totals } }
  let s := layers.foldl State.storeTotals s
  let s := if s.linkLive then
      s.hostWrite (j.args.recArea + j.attemptOp % max j.args.recCount 1 * (128 + 64 * p.nLayers)) bytes .heatRecord
    else s
  (runs.filter fun e => e.2.2.2).foldl (fun s e => s.raise evUnderflowRun noUnit e.1 e.2.1) s

/-! ## The steps in turn -/

/-- Does one step and moves on. -/
def State.pourStep (s : State) (p : Pattern) (j : Job) : State :=
  let go (n : Nat) (s : State) : State := s.setJob fun j => { j with pourStep := n }
  match j.pourStep with
  | 1 => go 2 s
  | 2 => go 3 s
  | 3 => go 4 s.foldTrackers
  | 4 => go 5 (s.pourApply (j.disposal == .commit))
  | 5 => go 6 (s.pourAdvance j)
  | 6 => go 7 (s.pourRecord p j)
  | _ => s

/-- POUR_STEP_DONE: the step under way has completed in every die. -/
def pourStepOp (s : State) : State :=
  match s.heat.job, s.heat.pattern with
  | some j, some p => if j.phase = .pour then s.pourStep p j else s
  | _, _ => s

/-- The tick that closes POUR: the attempt is over; a heat that was disposed of makes way for the next (R304). -/
def Job.closePour (j : Job) : Job :=
  let j := { j with attemptOp := j.attemptOp + 1 }
  if j.disposal = .replay then { j with attempt := j.attempt + 1 } else
  { j with h := j.h + 1, disposed := j.disposed + 1, attempt := 0, numVetoes := 0, nonNumRun := 0, entry := j.nextEntry.getD [],
           nextEntry := none }

end Sys2Proof.Machine
end

