-- ==== Sys2Proof/Machine/Slots.lean ====
section
/-! DEFINITION. SLOT_TICK: what closes with a slot and what opens with the next, phase by phase (02 R26 to R49, 09 R221 to R229,
12 R298, 14 R333, R341, 16 R361). -/

namespace Sys2Proof.Machine

/-! ## Ops that wait for the host (R298) -/

/-- The body of an op that waits. -/
def State.opBody (s : State) (i : Instr) : State :=
  match i with
  | .fMm c h a => s.product c h true a.pair a
  | .bMmIg c h a => s.product c h false a.pair a
  | .bMmWg c h a => s.product c h false true a
  | .drain c h e b f n => s.drain c h e b f n
  | .convert c h t f n => s.convertOp c h t f n
  | .stashPut c h a => s.moveTiles c h a 1 2
  | .stashGet c h a => s.moveTiles c h a 2 1
  | .spill c h a r => if r then s.moveTiles c h a 3 1 else s.moveTiles c h a 1 3
  | .linkSend c h l t f n => s.linkSend c h l t f n
  | .linkReduce c h e => s.linkReduce c h e
  | .nodeAdd c h e => s.nodeAdd c h e
  | .update x h a => s.updateBody x h a
  | .tokenSignal c h die t atDone => s.signalToken c h die t atDone
  | _ => s

/-- The host answered a read through a HOST leaf: the ops that wait run with its data, and so do those that waited for them. -/
def State.rerunOps (s : State) : State := (s.resume fun i => some fun s => s.opBody i).runReduces.runSends

/-- The unit and the destinations of an op. -/
def State.opTarget (s : State) (i : Instr) : Nat × List Invalid :=
  let pat := s.heat.pattern
  let ev (c : Nat) : Nat := (s.siteOf c).ev
  let out (c first tiles : Nat) (b : Option Bank) : Nat × List Invalid :=
    (ev c, match pat, (s.core c).cfg with
      | some p, some k => s.drainDests p (nth p.drains k) (s.siteOf c) b first tiles
      | _, _ => [])
  let banks (c : Nat) (f : Bool) (a : ProductArgs) : Nat × List Invalid :=
    let q : Product := match pat with
      | some p => nth p.products a.odx
      | none => default
    (ev c, (bankRuns f a.mask q.q0 q.q).map fun r => Invalid.bank c r.1 a.bank)
  let node (c e : Nat) : Nat × List Invalid := (ev c, match s.planEntry e with
    | some x => x.dests
    | none => [])
  match i with
  | .fMm c _ a => banks c true a
  | .bMmIg c _ a => banks c false a
  | .bMmWg c _ a => banks c false a
  | .drain c _ e b f n => out c f n ((s.core c).bankOf e b)
  | .convert c _ _ f n => out c f n none
  | .stashPut c _ a => (ev c, tileDests a.tensor a.first a.tiles)
  | .stashGet c _ a => (ev c, tileDests a.tensor a.first a.tiles)
  | .spill c _ a _ => (ev c, tileDests a.tensor a.first a.tiles)
  | .linkSend c _ _ t f n => (ev c, tileDests t f n)
  | .linkReduce c _ e => node c e
  | .nodeAdd c _ e => node c e
  | .update x _ _ => (s.progUnit (.unit x), [])
  | _ => (iodUnit, [])

/-- An op that still waits is abandoned (R28); a product's banks then hold nothing usable. A TOKEN_SIGNAL that waits for an
abandoned op is not sent. -/
def State.abandonOp (s : State) (i : Instr) : State :=
  match i with
  | .tokenSignal _ _ _ _ _ => s
  | _ =>
    let t := s.opTarget i
    t.2.foldl State.spoilBank (s.opAbandoned t.1 t.2)

/-- Is it an access that an op of the slot makes through a HOST leaf? -/
def Purpose.ofSlot : Purpose → Bool
  | .leaf | .leafWrite _ => true
  | _ => false

/-- Abandons every op that still waits at the closing tick, with the reads behind it, and the ops whose writes through a HOST leaf have
no answer (R28, R298). -/
def State.abandonOps (s : State) : State :=
  let s := s.heat.waitOps.foldl State.abandonOp { s with heat := { s.heat with waitOps := [] } }
  let s := s.port.hostAcc.foldl (fun s a => match a.purpose with
    | .leafWrite ev => s.opAbandoned ev []
    | _ => s) s
  { s with port := { s.port with hostAcc := s.port.hostAcc.filter fun a => !a.purpose.ofSlot } }

/-! ## The close of a slot -/

/-- Is it a phase in which core programs run? -/
def Phase.runs (p : Phase) : Bool := p == .admitting || p == .ramp || p == .steady || p == .flush || p == .reduce

/-- The phase of the operation; none without one. -/
def State.phase (s : State) : Option Phase := s.heat.job.map (·.phase)

/-- Cores that still hold a tile to recompute after what their budget covers (R120). -/
def State.missesBudget (s : State) : Bool :=
  (s.heat.cores.filter fun x => !x.retry.isEmpty).any fun x =>
    !(((x.retry.foldl (fun s _ => s.recomputeNext x.core) s).core x.core).retry.isEmpty)

/-- What a sequencer carries over the closing tick: the TICK op counts in a span, every window has ended, and an op that still waited
has been abandoned (R27, R28, R227, R228). -/
def Seq.closed (q : Seq) : Seq :=
  { q with span := q.span - 1, spoiled := false, waits := [], dests := [], prev := if q.prev = .waiting then .abandoned else q.prev }

/-- The end of the slot for the cores: recomputes, missed budgets, token waits, and the sequencers (R27, R28, R118 to R120, R227,
R228). -/
def State.closeCores (s : State) : State :=
  let miss := s.missesBudget
  let s := (s.heat.cores.map (·.core)).foldl State.closeCore s
  let s := if miss then { s with heat := { s.heat with budget := satAdd 32 s.heat.budget 1 } } else s
  let s := s.heat.seqs.foldl (fun s q => match q.prog with
    | .core c => q.waits.foldl (fun s _ => s.waitEnds c) s
    | .unit _ => s) s
  { s with heat := { s.heat with seqs := s.heat.seqs.map Seq.closed } }

/-- What was due in the slot and has not been commanded is done at its closing tick (log 4): the word of a lone module, the
fleet's freeze and end, the pulse of a master, and the limit of the last wait. -/
def State.closeDue (s : State) : State :=
  let s := if s.fixDue then s.fixWord else s
  let s := fleetVerdictOp (fleetFreezeOp s)
  masterPulseOp (syncExpiryOp s)

/-- Counts of the slot that closes: those of the heat record and of a fleet's VERDICT (R129, R324). -/
def State.countSlot (s : State) : State :=
  let k := s.power.stretch
  let s := match s.phase with
    | some p => if p.runs || p == Phase.verdict then s.setJob fun j => { j with heatSlots := j.heatSlots + 1, stretchAc := j.stretchAc + k } else s
    | none => s
  if s.inVerdict then s.setExch fun x => { x with slots := x.slots + 1 } else s

/-- Commits whose point is a tick: defaults and limits always, and the pour sync block while no operation exists (R359, R361).
-/
def State.tickCommits (s : State) : State :=
  let s := (s.commitDue .defaults).commitDue .limits
  if s.running then s else s.commitDue .pourSync

/-- Does a record wait for the close of VERDICT or POUR: that of a numerics event (R339)? -/
def State.holdsRecord (s : State) (e : EventRec) : Bool :=
  decide (1 ≤ e.code ∧ e.code ≤ 8) && (s.phase == some .verdict || s.phase == some .pour)

/-- The opening of the next slot: the timebase, the stretch that is fixed now, severities in force, and what lives for one slot
(R26, R46, R291, R333, R341). -/
def State.openSlot (s : State) : State :=
  let s := s.closeEvents fun e => !s.holdsRecord e
  { s with
    boot := { s.boot with timebase := s.boot.timebase + s.heat.slotLen + s.power.stretch },
    power := { s.power with stretch := s.power.nextStretch },
    events := { s.events with sevForce := s.events.sevSet },
    port := { s.port with msixWindow := [] },
    heat := { s.heat with leafData := [], links := [] } }

/-! ## Phase by phase (R30) -/

/-- The phases after one and their slots; a phase without slots is passed over. -/
def Template.after (t : Template) : Phase → List (Phase × Nat)
  | .admitting => [(.ramp, t.ramp), (.steady, t.steady), (.flush, t.flush), (.reduce, t.reduce)]
  | .ramp => [(.steady, t.steady), (.flush, t.flush), (.reduce, t.reduce)]
  | .steady => [(.flush, t.flush), (.reduce, t.reduce)]
  | .flush => [(.reduce, t.reduce)]
  | _ => []

/-- The phase and slots that follow. -/
def Template.next (t : Template) (p : Phase) : Phase × Nat :=
  ((t.after p).find? fun e => decide (0 < e.2)).getD (.verdict, 1)

/-- A tick in ADMIT to REDUCE: the next slot of the phase, or the next phase; with STASH_EXHAUSTED at ADMIT, VERDICT at once
(R192). -/
def Job.nextSlot (j : Job) (t : Template) : Job :=
  let j := { j with slotInHeat := j.slotInHeat + 1 }
  if j.skipOps then { j with phase := .verdict, left := 1 } else
  if 1 < j.left then { j with left := j.left - 1 } else { j with phase := (t.next j.phase).1, left := (t.next j.phase).2 }

/-- A tick in the heat before VERDICT: an urgent suspension after a slot with a suspension point, or the next slot. -/
def State.runTick (s : State) (j : Job) : State :=
  let t : Template := match s.heat.pattern with
    | some p => nth p.templates j.template
    | none => default
  let n := j.nextSlot t
  let hit := j.partialAt.isSome && j.suspend && j.urgent
  let s := s.setJob fun _ => { n with partialAt := none }
  if hit then s.suspendPartial n.phase else s

/-- The steps of a pour that no POUR and POUR_STEP_DONE has done are done at the tick that closes its last slot, whose number the pattern
fixes (R30; DESIGN CHOICE, log 98). -/
def State.finishPour (s : State) : State := (List.range 7).foldl (fun s _ => pourStepOp s) (pourOp s)

/-- A tick in POUR: the phase closes once its slots have passed, with its steps done. -/
def State.pourTick (s : State) (j : Job) : State :=
  let s := s.setJob fun j => { j with left := j.left - 1, slotInHeat := j.slotInHeat + 1 }
  if j.left ≤ 1 then (s.finishPour.setJob Job.closePour).workDone else s

/-- A tick in VERDICT: POUR opens once the combined word is fixed. -/
def State.verdictTick (s : State) : State :=
  let s := s.setJob fun j => { j with slotInHeat := j.slotInHeat + 1 }
  match s.heat.fixed with
  | some w => if s.fleet.exch.on && !s.fleet.exch.ended then s else s.openPour w
  | none => s

/-- The tick for the RUN_HEATS operation. A CANCEL before the commit point discards the heat here (R308). -/
def State.jobTick (s : State) : State :=
  match s.heat.job with
  | none => s
  | some j =>
    if j.cancel then s.endJob stCancelled else
    match j.phase with
    | .start => s.startTick
    | .verdict => s.verdictTick
    | .pour => s.pourTick j
    | .waitSync => (s.setJob fun j => { j with slotInHeat := j.slotInHeat + 1 }).waitTick
    | .suspended => s
    | _ => s.runTick j

/-- The records that waited for the close of a phase are written when it closes (R339). -/
def State.closeHeld (s : State) (before : Option Phase) : State :=
  if s.phase = before then s else s.closeEvents fun e => decide (1 ≤ e.code ∧ e.code ≤ 8)

/-- SLOT_TICK. The deadline of a fleet's VERDICT counts the slot that closes (R324). -/
def slotTickOp (s : State) : State :=
  if !s.alive then s else
  let ph := s.phase
  let s := match ph with
    | some p => if p.runs then s.closeCores else s
    | none => s
  let s := (fleetDeadlineOp s.abandonOps.closeDue.countSlot).openSlot.tickCommits
  (s.tickEdges.jobTick.closeHeld ph).clearLate.sampleLevel

end Sys2Proof.Machine
end

