-- ==== Sys2Proof/Machine/Commands.lean ====
section
/-! DEFINITION. The ring commands, once dispatched: their checks in order, their effects and their records (12 R295 to R308, 14
R333, R337, R343, 15 R387, R389, 13 R314). -/

namespace Sys2Proof.Machine

/-! ## BIND_TENSORS (R239, R301) -/

/-- Tensor indices that a pattern reads as operands of products and drains. -/
def Pattern.readTensors (p : Pattern) : List Nat :=
  (p.products.flatMap fun q => [q.a, q.b]) ++ p.drains.flatMap fun d => [d.res, d.res2]

/-- Tensor indices that a pattern writes: by products and drains, by ops that move tiles, and by its update units. -/
def Pattern.writtenTensors (p : Pattern) : List Nat :=
  (p.products.map (·.out)) ++ p.drains.map (·.out) ++ p.movedTensors ++ p.trainedAll

/-- Does a pattern use an index as an external tensor: it names it, and its plan holds neither a working copy nor, for a
tensor that is only written, the gradient region? -/
def Pattern.external (p : Pattern) (t : Nat) : Bool :=
  let has (k : Nat) : Bool := p.regions.any fun r => decide (r.kind = k) && decide (r.tensor = t)
  decide (t < 4096) && !has 1 && (decide (t ∈ p.readTensors) || (decide (t ∈ p.writtenTensors) && !has 4))

/-- External tensors of the loaded pattern without a binding. -/
def State.unbound (s : State) : Bool :=
  match s.heat.pattern with
  | some p => (p.readTensors ++ p.writtenTensors).any fun t => p.external t && !s.heat.bindings.any fun e => decide (e.1 = t)
  | none => false

/-- A bind-list entry: tensor, host window, write right, IOVA, device virtual base, size, descriptor. -/
structure BindEntry where
  tensor : Nat
  window : Bool
  write  : Bool
  iova   : Nat
  va     : Nat
  size   : Nat
  desc   : List Byte
  deriving DecidableEq, Repr, Inhabited

/-- Reads an entry; none where a header byte that R301 does not name is not 0. -/
def bindEntry (b : List Byte) : Option BindEntry :=
  if !zeroBytes b 3 5 || decide (4 ≤ u b 2 1) then none else
  some { tensor := u b 0 2, window := bitOf (u b 2 1) 0, write := bitOf (u b 2 1) 1, iova := u b 8 8, va := u b 16 8, size := u b 24 8,
         desc := slice b 32 128 }

/-- Is a descriptor the one that the pattern expects: format, role and extents (R301)? For a tensor whose shape the image does not
hold the answer is free (log 6). -/
def State.expected (s : State) (e : BindEntry) : Bool :=
  match s.heat.shapes.find? fun x => x.1 = e.tensor with
  | some x =>
    let a := descOf x.2
    let d := descOf e.desc
    decide (a.fmt = d.fmt) && decide (a.role = d.role) && decide (a.n = d.n)
  | none => Config.expectsShape ((s.heat.pattern.map (·.hash)).getD []) e.tensor e.desc

/-- Is a host window well placed: whole 64 KiB frames that meet no plan region and no reserved area? A window has a device virtual base,
and the reserved areas device physical ones: the numbers are compared (DEDUCED, log 153). -/
def BindEntry.windowOk (e : BindEntry) (p : Pattern) (reserved : List (Nat × Nat)) : Bool :=
  !e.window || (decide (e.iova % 65536 = 0) && decide (e.va % 65536 = 0) && decide (e.size % 65536 = 0) && decide (0 < e.size) &&
    decide (e.va + e.size ≤ 2 ^ 48) && !p.regions.any fun r => !r.inStore && overlaps e.va e.size r.span.1 r.span.2) &&
    !(e.window && reserved.any fun r => overlaps e.va e.size r.1 r.2)

/-- Do two host windows of a list, or one and an earlier window that stays, overlap? -/
def windowsClash (old : List HostWindow) (es : List BindEntry) : Bool :=
  let stay := old.filter fun w => !es.any fun e => decide (e.tensor = w.tensor)
  let ws := es.filter (·.window)
  (ws.any fun e => stay.any fun w => overlaps e.va e.size w.va w.size) ||
    ((List.range ws.length).zip ws).any fun x => ((List.range ws.length).zip ws).any fun y =>
      decide (x.1 < y.1) && overlaps x.2.va x.2.size y.2.va y.2.size

/-- The status of a list: accepted whole, or refused whole. -/
def State.bindStatus (s : State) (l : List (Option BindEntry)) : Nat :=
  match s.heat.pattern with
  | none => stInvalid
  | some p =>
    let es := l.filterMap id
    if es.length ≠ l.length ∨ es.any (fun e => !p.external e.tensor || !s.expected e || !e.windowOk p s.reservedRanges) ∨
        windowsClash s.mem.windows es then stInvalid else
    ((es.map fun e => descStatus s.heat.pattern e.desc (decide (e.tensor ∈ p.writtenTensors))).find? fun st => decide (st ≠ stOk)).getD stOk

/-- Maps or unmaps a host window (R260). -/
def State.mapWindow (s : State) (w : HostWindow) (on : Bool) : State :=
  (List.range (w.size / 65536)).foldl (fun s i =>
    s.mapFrame (w.va + 65536 * i) (if on then leafEntry true w.write true (w.iova + 65536 * i) else 0)) s

/-- One accepted entry replaces an earlier binding of its index. -/
def State.bindOne (s : State) (e : BindEntry) : State :=
  let old := s.mem.windows.filter fun w => w.tensor = e.tensor
  let s := old.foldl (fun s w => s.mapWindow w false) s
  let s := { s with
    mem := { s.mem with windows := s.mem.windows.filter fun w => w.tensor ≠ e.tensor },
    heat := { s.heat with bindings := put s.heat.bindings e.tensor e.desc } }
  if !e.window then s else
  let w : HostWindow := { va := e.va, iova := e.iova, size := e.size, write := e.write, tensor := e.tensor }
  State.mapWindow { s with mem := { s.mem with windows := s.mem.windows ++ [w] } } w true

/-- The bind list has arrived. -/
def State.bindTable (s : State) (c : Rc) (entries sqHead : Nat) (b : List Byte) : State :=
  let l := (List.range entries).map fun i => bindEntry (slice b (160 * i) 160)
  let st := if s.running then stConfig else s.bindStatus l
  if st ≠ stOk then s.complete c 0x02 sqHead st 0 0 else
  ((l.filterMap id).foldl State.bindOne s).complete c 0x02 sqHead stOk entries 0

/-! ## QUERY (R307; layouts: log 15) -/

/-- The code of a phase in the answer to QUERY 0x04. -/
def Phase.code : Phase → Nat
  | .start => 0
  | .admitting => 1
  | .ramp => 2
  | .steady => 3
  | .flush => 4
  | .reduce => 5
  | .verdict => 6
  | .pour => 7
  | .waitSync => 8
  | .suspended => 9

/-- 16 bytes on the operation with a TAG: ring, opcode, state, cause of its end, heat index, phase, attempt. -/
def opAnswer (ring opc state cause heat phase attempt : Nat) : List Byte :=
  natLe 1 ring ++ natLe 1 opc ++ natLe 1 state ++ natLe 1 cause ++ natLe 4 heat ++ natLe 1 phase ++ natLe 1 attempt ++ zeros 6

/-- QUEUED, RUNNING, SUSPEND_PENDING, SUSPENDED as 0 to 3; ENDED is 4. -/
def OpState.code : OpState → Nat
  | .queued => 0
  | .running => 1
  | .suspendPending => 2
  | .suspended => 3

/-- The state of the RUN_HEATS operation as QUERY reports it. -/
def Job.stateCode (j : Job) : Nat := if j.phase = .suspended then 3 else if j.suspend then 2 else 1

/-- The answer to QUERY 0x04: an outstanding operation, else one whose descriptor is fetched and not dispatched, else the latest that
ended, with cause 1 for the loss of the link (R307, R311). -/
def State.queryOp (s : State) (tag : Nat) : List Byte :=
  match s.heat.job.filter (fun j => decide (j.tag = tag)), s.ops.find? fun o => decide (o.tag = tag),
    (s.port.sq.flatMap (·.fetched)).find? fun f => decide (f.rc.tag = tag) with
  | some j, _, _ => opAnswer j.ring 0x03 j.stateCode 0 j.h j.phase.code (min j.attempt 15)
  | none, some o, _ => opAnswer o.ring o.opc o.state.code 0 0 0 0
  | none, none, some f => opAnswer f.rc.ring f.opc 0 0 0 0 0
  | none, none, none =>
    match s.ended.reverse.find? fun e => decide (e.tag = tag) with
    | some e => opAnswer e.ring e.opc 4 (if e.link then 1 else 0) 0 0 0
    | none => opAnswer 0 0 4 0 0 0 0

/-- The cumulative totals of R127 in layer order. -/
def State.queryTotals (s : State) : List Byte :=
  match s.heat.pattern with
  | some p => (List.range p.nLayers).flatMap fun l => (List.range 15).flatMap fun k => natLe 8 (nth (countsOf s.heat.totals l).c k)
  | none => []

/-- The record that a query code names. -/
def State.queryRecord (s : State) (code tag : Nat) : List Byte :=
  match code with
  | 0x01 => s.readRegs 0 40
  | 0x02 => s.geometry ++ s.fingerprint ++ s.readRegs 0x6080 128 ++ s.readRegs 0x6100 16 ++
      natLe 8 (match s.heat.pattern with
        | some p => p.variant
        | none => 2 ^ 64 - 1)
  | 0x03 => natLe 8 s.contextSize
  | 0x04 => s.queryOp tag
  | 0x05 => s.queryTotals
  | 0x06 => s.readRegs 0xA040 56 ++ natLe 8 s.power.stretch
  | _ => []

/-- QUERY: the record goes to host memory, at most the output length of it; the command completes when the host has it. -/
def State.query (s : State) (c : Rc) (sqHead code tag out len : Nat) : State :=
  let b := (s.queryRecord code tag).take len
  if b.isEmpty then s.complete c 0x22 sqHead stOk 0 0 else
  (s.setRing c.ring fun q => { q with busy := true }).hostWrite out b (.queryOut c b.length sqHead)

/-! ## SUSPEND, RESUME, CANCEL (R308, R37, R43) -/

/-- The outstanding operations with a ring and TAG: how many, RUN_HEATS among them. -/
def State.targets (s : State) (ring tag : Nat) : Nat :=
  (s.ops.filter fun o => decide (o.ring = ring) && decide (o.tag = tag)).length + (match s.heat.job with
    | some j => if j.ring = ring ∧ j.tag = tag then 1 else 0
    | none => 0)

/-- Is the target the RUN_HEATS operation? -/
def State.targetsJob (s : State) (ring tag : Nat) : Bool :=
  match s.heat.job with
  | some j => decide (j.ring = ring) && decide (j.tag = tag)
  | none => false

/-- Has an operation no chunk under way: it waits for its turn, its descriptors or its list? -/
def Op.idle (o : Op) : Bool :=
  o.state == .queued || match o.body with
  | .copy c => c.src.isEmpty || c.dst.isEmpty
  | .fill f => f.dst.isEmpty
  | _ => false

/-- Is the heat of the operation past its commit point, as CANCEL judges it? -/
def State.pastCommit (s : State) (j : Job) : Bool :=
  j.phase == .pour || j.phase == .waitSync || (j.phase == .verdict && s.heat.fixed.isSome)

/-- A CANCEL or SUSPEND that arrives in WAIT_SYNC ends the wait (R43). -/
def State.forceSync (s : State) : State := if s.waitsSync then s.setSync fun y => { y with forced := true } else s

/-- The three control commands. -/
inductive Control where
  | suspend (urgent : Bool)
  | resume
  | cancel
  deriving DecidableEq, Repr

/-- The status of a control command on the RUN_HEATS operation. -/
def Job.controlStatus (j : Job) : Control → Nat
  | .suspend _ => if j.phase = .suspended then stConfig else stOk
  | .resume => if j.phase = .suspended ∨ j.suspend then stOk else stConfig
  | .cancel => stOk

/-- Back-invalidates what the host holds of the plan regions (R290). -/
def State.invalidatePlan (s : State) : State := s.planLines.foldl State.backInvalidate s

/-- The effect of a control command on the RUN_HEATS operation, accepted. A SUSPEND of an operation that a CANCEL ends suspends nothing,
and still ends a wait for pour sync (R43, R308). A CANCEL past the commit point keeps the status of an end already due (DESIGN CHOICE,
log 154). -/
def State.controlJob (s : State) (j : Job) (k : Control) : State :=
  match k with
  | .suspend urgent =>
    if j.cancel then s else
    if j.endStatus = some stCancelled then s.forceSync else
    (s.setJob fun j => { j with suspend := true, urgent := j.urgent || urgent }).forceSync
  | .resume =>
    if j.phase = .suspended then (s.setJob fun j => { j with phase := .start }).invalidatePlan
    else s.setJob fun j => { j with suspend := false, urgent := false }
  | .cancel =>
    if j.phase = .suspended then s.endJob stCancelled else
    let s := s.setJob fun j => { j with suspend := false, urgent := false }
    if s.pastCommit j then (s.setJob fun j => { j with endStatus := some (j.endStatus.getD stCancelled) }).forceSync
    else s.setJob fun j => { j with cancel := true }

/-- The status of a control command on another operation. -/
def Op.controlStatus (o : Op) : Control → Nat
  | .resume => if o.state = .suspended ∨ o.state = .suspendPending then stOk else stConfig
  | _ => stOk

/-- The effect of a control command on another operation, accepted; one that has no chunk under way has reached its boundary.
-/
def State.controlOp (s : State) (o : Op) (k : Control) : State :=
  match k with
  | .suspend _ =>
    if o.state = .suspended ∨ o.state = .suspendPending ∨ o.cancel then s else
    if o.idle then (s.setOp { o with state := .suspended }).postSuspended o.rc o.opc o.sqHead
    else s.setOp { o with state := .suspendPending }
  | .resume =>
    if o.state = .suspendPending then s.setOp { o with state := .running } else
    (match o.body with
    | .copy c => (s.setOp { o with state := .running }).askList o c
    | .skim x => s.setOp { o with state := .running, body := .skim { x with noSram := s.running } }
    | _ => s.setOp { o with state := .running })
  | .cancel =>
    if o.state = .suspended || o.idle then s.endOp o stCancelled else
    s.setOp { o with cancel := true, state := if o.state = .suspendPending then .running else o.state }

/-- A control command: its own record first, then the effect. -/
def State.control (s : State) (c : Rc) (opc sqHead ring tag : Nat) (k : Control) : State :=
  let fin (s : State) (st : Nat) : State := s.complete c opc sqHead st 0 0
  if s.targets ring tag ≠ 1 then fin s stInvalid else
  if s.targetsJob ring tag then
    (match s.heat.job with
    | some j => let st := j.controlStatus k
      if st ≠ stOk then fin s st else (fin s stOk).controlJob j k
    | none => s)
  else
    match s.findTag ring tag with
    | some o =>
      if !isSuspendable o.opc then fin s stInvalid else
      let st := o.controlStatus k
      if st ≠ stOk then fin s st else (fin s stOk).controlOp o k
    | none => s

/-! ## FENCE_UNIT, SET_SEVERITY, ACK_EVENT -/

/-- The fence that FENCE_UNIT asks for: at once, or while a RUN_HEATS operation exists at step 4 of the next pour (R303,
R335). -/
def State.fenceCommand (s : State) (code : Nat) : State :=
  if !s.running then s.fenceStart code 0 else
  if s.pastVerdict then { s with fences := { s.fences with later := s.fences.later ++ [(code, 0)] } }
  else { s with fences := { s.fences with due := s.fences.due ++ [(code, 0)] } }

/-- The severity last set for a code (R303). -/
def State.sevLast (s : State) (code : Nat) : Nat := look 1 s.events.sevSet code

/-- SET_SEVERITY: the value counts from the next tick (R333). -/
def State.setSeverityTo (s : State) (code sev : Nat) : State :=
  { s with events := { s.events with sevSet := put s.events.sevSet code sev } }

/-- ACK_EVENT: clears the outstanding state of a record, and the halt that it alone keeps (R343). -/
def State.ackEvent (s : State) (seq : Nat) : State :=
  { s with events := { s.events with outstanding := s.events.outstanding.filter fun e => e.seq ≠ seq,
                                     halts := s.events.halts.filter fun q => q ≠ seq } }

/-! ## RUN_HEATS (R232, R236, R300, R303 to R305, R348) -/

/-- The status with which RUN_HEATS is accepted or refused, the placement applied (R236). -/
def State.heatsStatus (s : State) : Nat :=
  if s.running || s.heat.pattern.isNone || s.heat.badState then stConfig else
  match s.replacePattern.step4Status with
  | some st => st
  | none => if s.unbound then stInvalid else stOk

/-- RUN_HEATS, accepted: the operation begins, its seed block and first entry are read, and what the host holds of the plan
regions is invalidated. -/
def State.heatsStart (s : State) (c : Rc) (a : RunArgs) (sqHead : Nat) : State :=
  let a := policyOf a
  let j : Job := {
    ring := c.ring, tag := c.tag, sqHead := sqHead, irq := c.irq, vector := c.vector, args := a, phase := .start, left := 0,
    slotInHeat := 0, h := 0, disposed := 0, entry := [], nextEntry := none, seedsReady := decide (a.seeds = 0), template := 0,
    attemptOp := 0, attempt := 0, numVetoes := 0, nonNumRun := 0, disposal := .commit, pourStep := 0, suspend := false, urgent := false,
    cancel := false, endStatus := none, endDetail := none, silentEnd := false, noReplay := false, partialAt := none, skipOps := false,
    heatSlots := 0, stretchAc := 0, heatAt := 0 }
  let s := s.replacePattern
  let s := { s with heat := { s.heat with job := some j } }
  let s := if a.seeds = 0 then s else s.hostRead a.seeds 32 .seedBlock
  (s.hostRead a.heatList 144 (.heatEntry 0)).invalidatePlan

/-! ## Dispatch -/

/-- A new long operation; its number is above those of all outstanding ones. -/
def State.newOp (s : State) (c : Rc) (opc sqHead : Nat) (body : OpBody) : Op :=
  { ring := c.ring, tag := c.tag, id := (s.ops.map (·.id)).foldl max 0 + 1, opc := opc, sqHead := sqHead, irq := c.irq, vector := c.vector, state := .running, cancel := false,
    silent := false, waitFor := [], endWith := none, body := body }

/-- Begins a long operation. -/
def State.addOp (s : State) (o : Op) : State := { s with ops := s.ops ++ [o] }

/-- A copy command, accepted for its descriptors to be read (R303). -/
def State.copyStart (s : State) (c : Rc) (opc sqHead src dst : Nat) (perm : List Nat) (list entries : Nat) (inHost : Bool) : State :=
  let b : CopyOp := { opc := opc, srcIova := src, dstIova := dst, perm := perm, list := list, entries := entries, inHost := inHost, src := [],
                      dst := [], units := [], haveLst := false, pos := 0, moved := 0, bad := 0, ladle := 40, leafs := [] }
  let o := s.newOp c opc sqHead (.copy b)
  ((s.addOp o).hostRead src 128 (.copySrc o.ring o.id)).hostRead dst 128 (.copyDst o.ring o.id)

/-- A fill, accepted for its descriptor to be read. -/
def State.fillStart (s : State) (c : Rc) (sqHead : Nat) (a : FillArgs) : State :=
  let b : FillOp := { args := a, dst := [], pos := 0, written := 0, ladle := 40 }
  let o := s.newOp c 0x13 sqHead (.fill b)
  (s.addOp o).hostRead a.dst 128 (.copyDst o.ring o.id)

/-- The action code and object of an audited command (R387, R417). -/
def State.auditObject (s : State) : Instr → Option (Nat × List Byte)
  | .setSeverity _ code sev => some (0x13, natLe 1 code ++ natLe 1 (s.sevLast code) ++ natLe 1 sev)
  | .fenceUnit _ code => some (0x14, natLe 2 code ++ [0])
  | .runHeats c _ => some (0x41, natLe 4 c.tag ++ zeros 4 ++ natLe 8 s.heat.heatNum)
  | .saveContext c _ _ _ => some (0x42, natLe 4 c.tag ++ zeros 4 ++ natLe 8 s.heat.heatNum)
  | .restoreContext c _ _ _ => some (0x43, natLe 4 c.tag ++ zeros 4 ++ natLe 8 s.heat.heatNum)
  | .fleetJoin c _ => some (0x44, natLe 4 c.tag ++ zeros 4 ++ natLe 8 s.heat.heatNum)
  | .fleetLeave c => some (0x45, natLe 4 c.tag ++ zeros 4 ++ natLe 8 s.heat.heatNum)
  | _ => none

/-- Commands that an S4 halt refuses (R337). -/
def haltedRefuses (opc : Nat) : Bool := decide (opc ∈ [0x03, 0x10, 0x11, 0x12, 0x13, 0x20])

/-- The status of a command in its chapter's own checks. -/
def State.ownStatus (s : State) : Instr → Nat
  | .loadPattern _ _ len _ => if s.running then stConfig else if 2048 ≤ len ∧ len ≤ 8 * gib then stOk else stCorrupt
  | .bindTensors _ _ _ => if s.running then stConfig else stOk
  | .runHeats _ _ => s.heatsStatus
  | .saveContext _ area len host => s.saveStatus area len host
  | .restoreContext _ area len host => s.restoreStatus area len host
  | .skim _ base len _ => if base % 4096 ≠ 0 ∨ len % 4096 ≠ 0 ∨ !s.touchesMemory base len then stInvalid else stOk
  | .fenceUnit _ code => if s.fencedNow code then stFenced else stOk
  | .ackEvent _ seq => if s.events.outstanding.any (fun e => decide (e.seq = seq)) then stOk else stInvalid
  | .fleetJoin _ a => s.joinStatus a
  | .fleetLeave _ => s.leaveStatus
  | _ => stOk

/-- The status with which a command under a sufficient role is accepted or refused: payload ranges, the halt, its own checks
(R300, R302, R337). -/
def State.acceptStatus (s : State) (opc : Nat) (i : Instr) : Nat :=
  if !payloadOk i then stInvalid else if s.halted && haltedRefuses opc then stConfig else s.ownStatus i

/-- The effect of an accepted command with its final record, if it is a short one. -/
def State.runCmd (s : State) (i : Instr) (sqHead : Nat) : State :=
  match i with
  | .nop c => s.complete c 0x00 sqHead stOk 0 0
  | .loadPattern c image len reset =>
    let o := s.newOp c 0x01 sqHead (.load image len reset (s.ring c.ring).role)
    (s.addOp o).hostRead image len (.image o.ring o.id)
  | .bindTensors c list n => (s.setRing c.ring fun q => { q with busy := true }).hostRead list (160 * n) (.bindList c n sqHead)
  | .runHeats c a => s.heatsStart c a sqHead
  | .suspend c ring tag => s.control c 0x04 sqHead ring tag (.suspend c.urgent)
  | .resume c ring tag => s.control c 0x05 sqHead ring tag .resume
  | .cancel c ring tag => s.control c 0x06 sqHead ring tag .cancel
  | .saveContext c area len host => s.saveStart (s.newOp c 0x07 sqHead (.load 0 0 false 0)) area len host
  | .restoreContext c area len host => s.restoreStart (s.newOp c 0x08 sqHead (.load 0 0 false 0)) area len host
  | .copy c src dst perm => s.copyStart c 0x10 sqHead src dst perm 0 0 false
  | .gather c src dst perm list n host => s.copyStart c 0x11 sqHead src dst perm list n host
  | .scatter c src dst perm list n host => s.copyStart c 0x12 sqHead src dst perm list n host
  | .fill c a => s.fillStart c sqHead a
  | .skim c base len summary => s.skimStart (s.newOp c 0x20 sqHead (.load 0 0 false 0)) base len summary
  | .fenceUnit c code => (s.fenceCommand code).complete c 0x21 sqHead stOk 0 0
  | .query c code tag out len => s.query c sqHead code tag out len
  | .setSeverity c code sev => (s.setSeverityTo code sev).complete c 0x23 sqHead stOk (s.sevLast code) 0
  | .ackEvent c seq => (s.ackEvent seq).complete c 0x24 sqHead stOk 0 0
  | .fleetJoin c a => s.joinStart c a sqHead
  | .fleetLeave c => s.leave.complete c 0x41 sqHead stOk 0 0
  | _ => s

/-- Counts a command that a role permitted, for the entry that ends the role grant (R387). -/
def State.countCommand (s : State) (ring opc : Nat) : State :=
  if (s.ring ring).role = 0 then s else
  s.setRing ring fun q => { q with counts := put q.counts opc (satAdd 16 (look 0 q.counts opc) 1) }

/-- A command of a ring at its dispatch: role (R295), then its entry and acceptance, or its refusal. The entry of a LOAD_PATTERN
follows with the image's hash; one that is refused at dispatch has none to name. -/
def State.dispatchCmd (s : State) (i : Instr) (c : Rc) (opc sqHead : Nat) : State :=
  let q := s.ring c.ring
  if q.role < roleNeeded s.regs.policy opc then s.complete c opc sqHead stRights 0 0 else
  let st := s.acceptStatus opc i
  match (if opc = 0x01 then some (0x40, zeros 36) else s.auditObject i) with
  | some (action, object) =>
    if !s.audit.flashOk then s.complete c opc sqHead stConfig 0 0 else
    let s := if opc = 0x01 ∧ st = stOk then s else s.auditAppend action q.role st q.key object
    if st = stOk then s.runCmd i sqHead else s.complete c opc sqHead st 0 0
  | none =>
    let s := s.countCommand c.ring opc
    if st = stOk then s.runCmd i sqHead else s.complete c opc sqHead st 0 0

end Sys2Proof.Machine
end

