-- ==== Sys2Proof/Machine/Rings.lean ====
section
/-! DEFINITION. The rings at work: submission, doorbells, fetching and dispatch, interrupts, and the answers to the module's
accesses of host memory (12 R290 to R298, R305). -/

namespace Sys2Proof.Machine

/-! ## Fetching and dispatch (R293, R294, R296, R297) -/

/-- Does an outstanding long operation of a ring hold back a descriptor with WAIT (R294)? -/
def State.ringWaits (s : State) (r : Nat) : Bool :=
  (s.ops.any fun o => decide (o.ring = r)) || (match s.heat.job with
    | some j => decide (j.ring = r)
    | none => false)

/-- Can a ring dispatch a command: no short command of it is under way, no record of it is held, and WAIT is met? -/
def State.canDispatch (s : State) (c : Rc) : Bool :=
  (s.ring c.ring).enable && !(s.ring c.ring).busy && !(s.port.cqHeld.any fun h => decide (h.ring = c.ring)) &&
    !(c.wait && s.ringWaits c.ring)

/-- Does a command that changes the translation tables wait: a copy or fill that uses them is under way (R260; DEDUCED, log 155)? -/
def State.tablesHold (s : State) (opc : Nat) : Bool :=
  decide (opc = 0x01 ∨ opc = 0x02) &&
    s.ops.any fun o => decide (0x10 ≤ o.opc ∧ o.opc ≤ 0x13) && !o.idle && decide (o.state ≠ .suspended)

/-- Begins to fetch the descriptor at a ring's head, one at a time, while nothing fetched waits. -/
def State.fetchNext (s : State) (r : Nat) : State :=
  let q := s.ring r
  if q.enable && !q.fetching && q.fetched.isEmpty && decide (q.head ≠ q.tail) then
    (s.setRing r fun q => { q with fetching := true }).hostRead (q.base + 64 * q.head) 64 (.descriptor r)
  else s

/-- Runs a fetched command: one that R297 refuses completes with ST_DESC_INVALID and changes nothing. -/
def State.runFetched (s : State) (f : Fetched) : State :=
  match f.cmd with
  | some i => s.dispatchCmd i f.rc f.opc f.sqHead
  | none => s.complete f.rc f.opc f.sqHead stInvalid 0 0

/-- DESCRIPTOR_DISPATCH: the oldest fetched command of a ring is dispatched, if it can be, and the next one is fetched. -/
def dispatchOp (r : Nat) (s : State) : State :=
  if !s.fullLink then s else
  match (s.ring r).fetched with
  | [] => s.fetchNext r
  | f :: rest =>
    if !s.canDispatch f.rc || s.tablesHold f.opc then s else
    ((s.setRing r fun q => { q with fetched := rest }).runFetched f).fetchNext r

/-- A ring command as a row of its own: the ring has its descriptor, and dispatches it if it can; otherwise it waits in ring
order. Without a link or on a disabled ring there is no such descriptor (log 11). -/
def State.submit (s : State) (i : Instr) (c : Rc) (opc : Nat) : State :=
  let q := s.ring c.ring
  if !s.fullLink || !q.enable then s else
  let f : Fetched := { cmd := if ringAccepts c.ring opc then some i else none, opc := opc, rc := c, sqHead := q.head }
  if q.fetched.isEmpty && s.canDispatch c && !s.tablesHold opc then s.runFetched f
  else s.setRing c.ring fun q => { q with fetched := q.fetched ++ [f] }

/-- SUBMISSION_DOORBELL: the new tail; a value that is not below the entry count is ignored and counted, on a ring that is off as well
(R293). -/
def submissionDoorbellOp (r value : Nat) (s : State) : State :=
  let q := s.ring r
  if !s.fullLink then s else
  if entriesOf q.log2 ≤ value then s.setRing r fun q => { q with dbErr := satAdd 16 q.dbErr 1 } else
  if !q.enable then s else
  (s.setRing r fun q => { q with tail := value }).fetchNext r

/-- COMPLETION_HEAD_DOORBELL: the host frees records; held ones are written (R296). -/
def completionHeadOp (value : Nat) (s : State) : State :=
  if !s.fullLink || !s.port.cq.enable || decide (entriesOf s.port.cq.log2 ≤ value) then s else
  State.flushCq { s with port := { s.port with cq := s.port.cq.free value } } s.port.cqHeld.length

/-- EVENT_HEAD_DOORBELL. -/
def eventHeadOp (value : Nat) (s : State) : State :=
  if !s.fullLink || !s.port.eq.enable || decide (entriesOf s.port.eq.log2 ≤ value) then s else
  State.flushEq { s with port := { s.port with eq := s.port.eq.free value } } s.port.eqHeld.length

/-- INTERRUPT_SEND: the message of a vector that is due, at most one in its window; a masked vector sets its pending bit
(R291). -/
def interruptOp (v : Nat) (s : State) : State :=
  if !s.linkLive || decide (v ∉ s.port.msixDue) || decide (v ∈ s.port.msixWindow) then s else
  match s.port.msix[v]? with
  | none => s
  | some e =>
    let s := { s with port := { s.port with msixDue := s.port.msixDue.filter (· ≠ v) } }
    if e.mask then { s with port := { s.port with msixPending := addTo s.port.msixPending v } } else
    State.emit { s with port := { s.port with msixWindow := addTo s.port.msixWindow v } } (.msi v e.addr e.data)

/-! ## Answers of the host (R298, R305) -/

/-- A host access of a RUN_HEATS operation failed: before its next ADMIT the operation ends at once, later at the heat
boundary (R305). -/
def State.jobHostFail (s : State) (st : Nat) : State :=
  match s.heat.job with
  | some j =>
    if j.phase = .start ∧ s.heat.saved.isNone then s.endJob st else
    s.setJob fun j => { j with endStatus := some (j.endStatus.getD st) }
  | none => s

/-- Ends an operation. -/
def State.failOp (s : State) (ring id st : Nat) : State :=
  match s.findOp ring id with
  | some o => s.endOp o st
  | none => s

/-- Ends a short command that waited for host memory. -/
def State.failShort (s : State) (c : Rc) (opc sqHead st : Nat) : State :=
  (s.setRing c.ring fun q => { q with busy := false }).complete c opc sqHead st 0 0

/-- The virtual address behind an IOVA of a host window. -/
def State.leafVa (s : State) (iova : Nat) : Nat :=
  match s.mem.windows.find? fun w => decide (w.iova ≤ iova) && decide (iova < w.iova + w.size) with
  | some w => w.va + (iova - w.iova)
  | none => iova

/-- Does an op that waits miss the bytes at an IOVA? -/
def State.opMisses (s : State) (i : Instr) (iova : Nat) : Bool :=
  (State.opBody { s with heat := { s.heat with leafMiss := [] } } i).heat.leafMiss.any fun m => decide (m.1 = iova)

/-- A slot op's read through a HOST leaf was answered with an error: EV_XLATE_FAULT of kind 5, and the ops that needed it are
abandoned. -/
def State.leafError (s : State) (iova : Nat) : State :=
  let hit := s.heat.waitOps.filter fun i => s.opMisses i iova
  let s := { s with heat := { s.heat with waitOps := s.heat.waitOps.filter fun i => decide (i ∉ hit) } }
  hit.foldl (fun s i => (s.raise evXlate (s.opTarget i).1 0 (xlateData (s.leafVa iova) false 5)).abandonOp i) s

/-- A write of a slot op through a HOST leaf was answered with an error: EV_XLATE_FAULT of kind 5, and the op is abandoned. -/
def State.leafWriteError (s : State) (ev iova : Nat) : State :=
  (s.raise evXlate ev 0 (xlateData (s.leafVa iova) true 5)).opAbandoned ev []

/-- A descriptor fetch failed: its descriptor's fields are not known, so the record's TAG and opcode are free (log 7). -/
def State.fetchFail (s : State) (r st : Nat) : State :=
  let q := s.ring r
  let head := (q.head + 1) % entriesOf q.log2
  let s := s.setRing r fun q => { q with fetching := false, head := head }
  let (a, s) := s.draw
  let (b, s) := s.draw
  let c : Rc := { ring := r, tag := (Config.freeWord a).toNat % 2 ^ 32, irq := false, urgent := false, wait := false, vector := 0 }
  (s.complete c ((Config.freeWord b).toNat % 256) head st 0 0).fetchNext r

/-- A host access failed: `st` is ST_DESC_INVALID for an error and ST_TIMEOUT for a timeout. -/
def State.hostFail (s : State) (a : HostAcc) (st : Nat) : State :=
  match a.purpose with
  | .descriptor r => s.fetchFail r st
  | .bindList c _ sqHead => s.failShort c 0x02 sqHead st
  | .peerTable c _ sqHead => s.failShort c 0x40 sqHead st
  | .queryOut c _ sqHead => s.failShort c 0x22 sqHead st
  | .seedBlock => s.jobHostFail st
  | .heatEntry _ => s.jobHostFail st
  | .heatRecord => s.jobHostFail st
  | .image ring id => s.failOp ring id (if st = stInvalid then stCorrupt else st)
  | .copySrc ring id => s.failOp ring id st
  | .copyDst ring id => s.failOp ring id st
  | .gatherList ring id => s.failOp ring id st
  | .context ring id => s.failOp ring id st
  | .skimSummary ring id =>
    (match s.findOp ring id with
    | some o => s.finishOp o st (o.details s).1 0
    | none => s)
  | .chunkLeaf ring id => s.failOp ring id st
  | .chunkWrite ring id => s.failOp ring id st
  | .posted => s
  | .leaf => s.leafError a.iova
  | .leafWrite ev => s.leafWriteError ev a.iova

/-- Bytes that the host sent for a copy: a descriptor, its list, or data of a chunk. -/
def State.copyData (s : State) (o : Op) (c : CopyOp) (p : Purpose) (iova : Nat) (b : List Byte) : State :=
  match p with
  | .copySrc _ _ => s.copyAccept o { c with src := b }
  | .copyDst _ _ => s.copyAccept o { c with dst := b }
  | .gatherList _ _ =>
    s.setOp { o with body := .copy { c with units := (List.range (b.length / 16)).map fun i => u b (16 * i) 16, haveLst := true } }
  | .chunkLeaf _ _ => s.setOp { o with body := .copy { c with leafs := c.leafs ++ [(iova, b)] } }
  | _ => s

/-- Bytes that the host sent for an operation. -/
def State.opData (s : State) (o : Op) (p : Purpose) (iova : Nat) (b : List Byte) : State :=
  match o.body with
  | .load _ len reset role => s.imageRead o len role reset b
  | .copy c => s.copyData o c p iova b
  | .fill f => s.fillAccept o { f with dst := b }
  | .context c => s.setOp { o with body := .context { c with image := b, done := true } }
  | _ => s

/-- The next entry of the heat list arrived. -/
def Job.takeEntry (j : Job) (h : Nat) (b : List Byte) : Job :=
  if j.h = h then { j with entry := b } else { j with nextEntry := some b }

/-- The stream kind of what the host sends for a purpose (R363). -/
def Purpose.kind : Purpose → Nat
  | .image _ _ => 0xC
  | .copySrc _ _ | .copyDst _ _ | .gatherList _ _ | .chunkLeaf _ _ => 0x9
  | _ => 0xD

/-- The host answered a read. -/
def State.hostData (s : State) (a : HostAcc) (b : List Byte) : State :=
  let s := s.snoop 125 a.purpose.kind 0 (addrBlocks a.iova b)
  let free (c : Rc) (s : State) : State := s.setRing c.ring fun q => { q with busy := false }
  let op (ring id : Nat) : State := match s.findOp ring id with
    | some o => s.opData o a.purpose a.iova b
    | none => s
  match a.purpose with
  | .descriptor r =>
    let q := s.ring r
    let head := (q.head + 1) % entriesOf q.log2
    s.setRing r fun q => { q with fetching := false, head := head, fetched := q.fetched ++ [decodeDesc r head b] }
  | .bindList c n sqHead => (free c s).bindTable c n sqHead b
  | .peerTable c x sqHead => (free c s).joinTable c x sqHead b
  | .seedBlock => State.setJob { s with heat := { s.heat with seeds := (List.range 4).map fun i => u b (8 * i) 8 } }
      fun j => { j with seedsReady := true }
  | .heatEntry h => s.setJob fun j => j.takeEntry h b
  | .image ring id => op ring id
  | .copySrc ring id => op ring id
  | .copyDst ring id => op ring id
  | .gatherList ring id => op ring id
  | .context ring id => op ring id
  | .chunkLeaf ring id => op ring id
  | .leaf => State.rerunOps { s with heat := { s.heat with leafData := s.heat.leafData ++ [(a.iova, b)] } }
  | _ => s

/-- The host accepted a write. -/
def State.hostAccepted (s : State) (a : HostAcc) : State :=
  match a.purpose with
  | .queryOut c len sqHead => (s.setRing c.ring fun q => { q with busy := false }).complete c 0x22 sqHead stOk len 0
  | .context ring id =>
    (match s.findOp ring id with
    | some o => (match o.body with
      | .context c => s.setOp { o with body := .context { c with done := true } }
      | _ => s)
    | none => s)
  | .skimSummary ring id =>
    (match s.findOp ring id with
    | some o => (match o.body with
      | .skim k => s.skimEnds o k
      | _ => s)
    | none => s)
  | .chunkWrite ring id =>
    (match s.findOp ring id with
    | some o => s.chunkEnds o
    | none => s)
  | _ => s

/-- The outstanding access with an id, and the state without it. -/
def State.takeAcc (s : State) (id : Nat) : Option (HostAcc × State) :=
  (s.port.hostAcc.find? fun a => decide (a.id = id)).map fun a =>
    (a, { s with port := { s.port with hostAcc := s.port.hostAcc.filter fun x => decide (x.id ≠ id) } })

/-- HOST_ACCESS_RESPONSE: the host answers an access: data for a read, acceptance of a write, or an error. -/
def hostResponseOp (id : Nat) (r : HostResp) (s : State) : State :=
  if !s.linkLive then s else
  match s.takeAcc id with
  | none => s
  | some (a, t) =>
    match r with
    | .error => t.hostFail a stInvalid
    | .data b => if a.write then s else t.hostData a (slice b 0 a.len)
    | .accepted => if a.write then t.hostAccepted a else s

/-- HOST_TIMEOUT_EXPIRY: HOST_TIMEOUT has passed without an answer; a slot op's access is bounded by its slot instead
(R298). -/
def hostTimeoutOp (id : Nat) (s : State) : State :=
  match s.takeAcc id with
  | none => s
  | some (a, t) => if a.purpose.ofSlot then s else t.hostFail a stTimeout

/-- BISNP_RESPONSE: the host gives up a line, with its data if it had changed it; a read that waited for the line is
answered (R290). -/
def bisnpResponseOp (line : Nat) (modified : Option (List Byte)) (s : State) : State :=
  if !s.linkLive || decide (line ∉ s.port.bisnp) then s else
  let s : State := { s with
    port := { s.port with bisnp := s.port.bisnp.filter (· ≠ line), hostLines := s.port.hostLines.filter (· ≠ line) },
    ops := s.ops.map fun o => { o with waitFor := o.waitFor.filter (· ≠ line) } }
  let s := match modified with
    | some b =>
      let b := slice b 0 64
      ((s.snoop 125 0x8 0 (addrBlocks line b)).writeMem line b).2
    | none => s
  s.retryReads

end Sys2Proof.Machine
end

