-- ==== Sys2Proof/Machine/ExecHost.lean ====
section
/-! DEFINITION. The meanings of the ring commands, the doorbells, the interrupts and the answers of the host
(12 R290 to R311, 13 R313 to R315). -/

namespace Sys2Proof.Machine

/-- What a command does, with what is due at its end: a reset or the retiring of frames. The queue is no part of a
command's effect. -/
def effect (f : State → State) (s : State) : Host.Outcome State Fault Refusal :=
  .next { State.settle (f s) with pending := s.pending }

/-- A NOP descriptor on its ring, dispatched in ring order (R299). -/
def execNop (c : Rc) (s : State) : Host.Outcome State Fault Refusal :=
  effect (State.submit · (.nop c) c 0x00) s

/-- A LOAD_PATTERN descriptor on its ring, dispatched in ring order (R234, R235). -/
def execLoadPattern (c : Rc) (image length : Nat) (resetTrackers : Bool) (s : State) :
    Host.Outcome State Fault Refusal :=
  effect (State.submit · (.loadPattern c image length resetTrackers) c 0x01) s

/-- A BIND_TENSORS descriptor on its ring, dispatched in ring order (R301, R303). -/
def execBindTensors (c : Rc) (list entries : Nat) (s : State) : Host.Outcome State Fault Refusal :=
  effect (State.submit · (.bindTensors c list entries) c 0x02) s

/-- A RUN_HEATS descriptor on its ring, dispatched in ring order (R304, R305). -/
def execRunHeats (c : Rc) (a : RunArgs) (s : State) : Host.Outcome State Fault Refusal :=
  effect (State.submit · (.runHeats c a) c 0x03) s

/-- A SUSPEND descriptor on its ring, dispatched in ring order (R229, R308). -/
def execSuspend (c : Rc) (ring tag : Nat) (s : State) : Host.Outcome State Fault Refusal :=
  effect (State.submit · (.suspend c ring tag) c 0x04) s

/-- A RESUME descriptor on its ring, dispatched in ring order (R308). -/
def execResume (c : Rc) (ring tag : Nat) (s : State) : Host.Outcome State Fault Refusal :=
  effect (State.submit · (.resume c ring tag) c 0x05) s

/-- A CANCEL descriptor on its ring, dispatched in ring order (R308). -/
def execCancel (c : Rc) (ring tag : Nat) (s : State) : Host.Outcome State Fault Refusal :=
  effect (State.submit · (.cancel c ring tag) c 0x06) s

/-- A SAVE_CONTEXT descriptor on its ring, dispatched in ring order (R306). -/
def execSaveContext (c : Rc) (area length : Nat) (host : Bool) (s : State) : Host.Outcome State Fault Refusal :=
  effect (State.submit · (.saveContext c area length host) c 0x07) s

/-- A RESTORE_CONTEXT descriptor on its ring, dispatched in ring order (R306). -/
def execRestoreContext (c : Rc) (area length : Nat) (host : Bool) (s : State) : Host.Outcome State Fault Refusal :=
  effect (State.submit · (.restoreContext c area length host) c 0x08) s

/-- A COPY descriptor on its ring, dispatched in ring order (R246 to R257, R303). -/
def execCopy (c : Rc) (src dst : Nat) (perm : List Nat) (s : State) : Host.Outcome State Fault Refusal :=
  effect (State.submit · (.copy c src dst perm) c 0x10) s

/-- A GATHER descriptor on its ring, dispatched in ring order (R246 to R257, R303). -/
def execGather (c : Rc) (src dst : Nat) (perm : List Nat) (list entries : Nat) (listHost : Bool) (s : State) :
    Host.Outcome State Fault Refusal :=
  effect (State.submit · (.gather c src dst perm list entries listHost) c 0x11) s

/-- A SCATTER descriptor on its ring, dispatched in ring order (R246 to R257, R303). -/
def execScatter (c : Rc) (src dst : Nat) (perm : List Nat) (list entries : Nat) (listHost : Bool) (s : State) :
    Host.Outcome State Fault Refusal :=
  effect (State.submit · (.scatter c src dst perm list entries listHost) c 0x12) s

/-- A FILL descriptor on its ring, dispatched in ring order (R146, R303). -/
def execFill (c : Rc) (a : FillArgs) (s : State) : Host.Outcome State Fault Refusal :=
  effect (State.submit · (.fill c a) c 0x13) s

/-- A SKIM descriptor on its ring, dispatched in ring order (R281 to R283, R303). -/
def execSkim (c : Rc) (base length summary : Nat) (s : State) : Host.Outcome State Fault Refusal :=
  effect (State.submit · (.skim c base length summary) c 0x20) s

/-- A FENCE_UNIT descriptor on its ring, dispatched in ring order (R303, R344, R345). -/
def execFenceUnit (c : Rc) (unit : Nat) (s : State) : Host.Outcome State Fault Refusal :=
  effect (State.submit · (.fenceUnit c unit) c 0x21) s

/-- A QUERY descriptor on its ring, dispatched in ring order (R307). -/
def execQuery (c : Rc) (code target out outLen : Nat) (s : State) : Host.Outcome State Fault Refusal :=
  effect (State.submit · (.query c code target out outLen) c 0x22) s

/-- A SET_SEVERITY descriptor on its ring, dispatched in ring order (R303, R333). -/
def execSetSeverity (c : Rc) (code sev : Nat) (s : State) : Host.Outcome State Fault Refusal :=
  effect (State.submit · (.setSeverity c code sev) c 0x23) s

/-- A ACK_EVENT descriptor on its ring, dispatched in ring order (R303, R343). -/
def execAckEvent (c : Rc) (seq : Nat) (s : State) : Host.Outcome State Fault Refusal :=
  effect (State.submit · (.ackEvent c seq) c 0x24) s

/-- A FLEET_JOIN descriptor on its ring, dispatched in ring order (R313 to R315). -/
def execFleetJoin (c : Rc) (a : JoinArgs) (s : State) : Host.Outcome State Fault Refusal :=
  effect (State.submit · (.fleetJoin c a) c 0x40) s

/-- A FLEET_LEAVE descriptor on its ring, dispatched in ring order (R313, R314). -/
def execFleetLeave (c : Rc) (s : State) : Host.Outcome State Fault Refusal :=
  effect (State.submit · (.fleetLeave c) c 0x41) s

/-- A new tail (R293). -/
def execSubmissionDoorbell (ring value : Nat) (s : State) : Host.Outcome State Fault Refusal :=
  effect (submissionDoorbellOp ring value) s

/-- The next descriptor of a ring is dispatched (R294). -/
def execDescriptorDispatch (ring : Nat) (s : State) : Host.Outcome State Fault Refusal :=
  effect (dispatchOp ring) s

/-- The host frees completion records (R296). -/
def execCompletionHeadDoorbell (value : Nat) (s : State) : Host.Outcome State Fault Refusal :=
  effect (completionHeadOp value) s

/-- The host frees event records (R296). -/
def execEventHeadDoorbell (value : Nat) (s : State) : Host.Outcome State Fault Refusal :=
  effect (eventHeadOp value) s

/-- The message of a due vector goes out (R291). -/
def execInterruptSend (vector : Nat) (s : State) : Host.Outcome State Fault Refusal :=
  effect (interruptOp vector) s

/-- A host access stays unanswered for HOST_TIMEOUT (R298). -/
def execHostTimeoutExpiry (id : Nat) (s : State) : Host.Outcome State Fault Refusal :=
  effect (hostTimeoutOp id) s

end Sys2Proof.Machine
end

