-- ==== Sys2Proof/Machine/ExecMgmt.lean ====
section
/-! DEFINITION. The meanings of the mailbox commands, DOE, SMBus and JTAG
(15 R382 to R393, 16 R415, R416, 17 R433). -/

namespace Sys2Proof.Machine

/-- Identity, slots and keys (R386). -/
def execGetIdentity (req : List Byte) (s : State) : Host.Outcome State Fault Refusal :=
  effect (mbxGetIdentity req) s

/-- A fresh authentication nonce (R383). -/
def execAuthNonce (req : List Byte) (s : State) : Host.Outcome State Fault Refusal :=
  effect (mbxAuthNonce req) s

/-- A role for the session and its rings (R383, R416). -/
def execAuth (req : List Byte) (s : State) : Host.Outcome State Fault Refusal :=
  effect (mbxAuth req) s

/-- The refusal period after 8 failures ends (R383). -/
def execAuthLockoutExpiry (s : State) : Host.Outcome State Fault Refusal :=
  effect (mbxLockoutExpiry) s

/-- The session and the roles of masked rings end (R386). -/
def execRelease (req : List Byte) (s : State) : Host.Outcome State Fault Refusal :=
  effect (mbxRelease req) s

/-- A key is enrolled (R382). -/
def execEnrollKey (req : List Byte) (s : State) : Host.Outcome State Fault Refusal :=
  effect (mbxEnrollKey req) s

/-- A key is revoked (R382). -/
def execRevokeKey (req : List Byte) (s : State) : Host.Outcome State Fault Refusal :=
  effect (mbxRevokeKey req) s

/-- A chunk of a firmware image (R370, R371, R416). -/
def execStageFirmware (req : List Byte) (s : State) : Host.Outcome State Fault Refusal :=
  effect (mbxStageFirmware req) s

/-- The SVN fuses follow the ACTIVE slot (R370, R386). -/
def execAdvanceSvn (req : List Byte) (s : State) : Host.Outcome State Fault Refusal :=
  effect (mbxAdvanceSvn req) s

/-- The start-failure counter returns to 0 (R380). -/
def execClearStartFail (req : List Byte) (s : State) : Host.Outcome State Fault Refusal :=
  effect (mbxClearStartFail req) s

/-- The response, then a module reset (R375, R386). -/
def execResetModule (req : List Byte) (s : State) : Host.Outcome State Fault Refusal :=
  effect (mbxResetModule req) s

/-- Audit entries or checkpoints (R386). -/
def execAuditRead (req : List Byte) (s : State) : Host.Outcome State Fault Refusal :=
  effect (mbxAuditRead req) s

/-- A checkpoint at once (R388). -/
def execAuditCheckpoint (req : List Byte) (s : State) : Host.Outcome State Fault Refusal :=
  effect (mbxAuditCheckpoint req) s

/-- A debug-unlock nonce (R392). -/
def execDebugNonce (req : List Byte) (s : State) : Host.Outcome State Fault Refusal :=
  effect (mbxDebugNonce req) s

/-- Debug scopes under a consent and an unlock (R392, R416). -/
def execDebugUnlock (req : List Byte) (s : State) : Host.Outcome State Fault Refusal :=
  effect (mbxDebugUnlock req) s

/-- A range of the certificate chain (R390). -/
def execGetCerts (offset length : Nat) (s : State) : Host.Outcome State Fault Refusal :=
  effect (getCertBytes offset length) s

/-- A signed report over a nonce (R390, R391). -/
def execAttest (nonce : List Byte) (s : State) : Host.Outcome State Fault Refusal :=
  effect (attestReport nonce) s

/-- A block read (R433). -/
def execSmbusBlockRead (command : Nat) (s : State) : Host.Outcome State Fault Refusal :=
  effect (State.smbusRead · command) s

/-- EXTEST or CLAMP takes the pins (R392). -/
def execJtagBoundaryInstruction (clamp : Bool) (s : State) : Host.Outcome State Fault Refusal :=
  effect (State.boundary · clamp) s

/-- A session of private instructions (R393). -/
def execJtagPrivateSession (scope : Nat) (accesses : List JtagAccess) (s : State) :
    Host.Outcome State Fault Refusal :=
  effect (State.jtagSession · scope accesses) s

end Sys2Proof.Machine
end

