-- ==== Sys2Proof/Machine/ExecRegs.lean ====
section
/-! DEFINITION. The meanings of the writes of registers and of host accesses of module memory
(11 R270, 12 R287 to R290, 16 R358 to R414). -/

namespace Sys2Proof.Machine

/-- A write that reaches BAR0: the link is up and the module is not in crucible mode (R379, R394). -/
def State.onBar (s : State) (f : State → State) : State := if s.barLive then f s else s

/-- GO of a block: the shadow is checked and staged; within the last 64 ac it waits a tick more (R359 to R361). -/
def execCommit (block : CommitBlock) (acBefore : Nat) (s : State) : Host.Outcome State Fault Refusal :=
  effect (State.onBar · (State.commitGo · block (decide (acBefore < 64)))) s

/-- ENABLE of a ring is set (R403). -/
def execRingEnable (ring : RingSel) (s : State) : Host.Outcome State Fault Refusal :=
  effect (State.onBar · (State.enableRing · ring)) s

/-- ENABLE of a submission ring is cleared (R403). -/
def execRingDisable (ring : Nat) (s : State) : Host.Outcome State Fault Refusal :=
  effect (State.onBar · (State.disableRing · ring)) s

/-- A word of the severity map is written (R333, R407). -/
def execSeverityMapWrite (w : Nat) (value : Word) (s : State) : Host.Outcome State Fault Refusal :=
  effect (State.onBar · (State.severityWrite · w value.toNat)) s

/-- CLEAR_STICKY of the policy block (R344, R408). -/
def execClearSticky (s : State) : Host.Outcome State Fault Refusal :=
  effect (State.onBar · (State.stickyWrite · 1)) s

/-- CANCEL_CLEAR of the policy block (R408). -/
def execCancelClear (s : State) : Host.Outcome State Fault Refusal :=
  effect (State.onBar · (State.stickyWrite · 2)) s

/-- GO of the split-write test (R284, R412). -/
def execSplitWrite (s : State) : Host.Outcome State Fault Refusal :=
  effect (State.onBar · State.splitGo) s

/-- RUN of a snooper is written (R364, R414). -/
def execSnooperRunWrite (snooper : Nat) (value : Word) (s : State) : Host.Outcome State Fault Refusal :=
  effect (State.onBar · (State.snooperWrite · snooper 0x08 value.toNat)) s

/-- Any other BAR0 write (R394 to R398). -/
def execRegisterWrite (offset size : Nat) (value : Word) (s : State) : Host.Outcome State Fault Refusal :=
  effect (State.regWrite · offset size value.toNat) s

/-- A persistent installer field reaches flash, or not (R389, R396). -/
def execInstallerFieldFlashWrite (ok : Bool) (s : State) : Host.Outcome State Fault Refusal :=
  effect (State.flashDone · ok) s

/-- A host read through an HDM decoder (R289, R290). -/
def execHostMemRead (decoder offset length : Nat) (cached : Bool) (s : State) : Host.Outcome State Fault Refusal :=
  effect (State.hostMemRead · decoder offset length cached) s

/-- A host write through an HDM decoder (R289, R290). -/
def execHostMemWrite (decoder offset : Nat) (data : List Byte) (s : State) : Host.Outcome State Fault Refusal :=
  effect (State.hostMemWrite · decoder offset data) s

/-- A snoop of a host line (R290). -/
def execHostSnoop (line : Nat) (s : State) : Host.Outcome State Fault Refusal :=
  effect (State.hostSnoopAnswer · line) s

/-- The host gives up a line (R290). -/
def execBisnpResponse (line : Nat) (modified : Option (List Byte)) (s : State) : Host.Outcome State Fault Refusal :=
  effect (bisnpResponseOp line modified) s

end Sys2Proof.Machine
end

