-- ==== Sys2Proof/Machine/ExecPower.lean ====
section
/-! DEFINITION. The meanings of power, reset, start and watchdog events
(15 R372 to R379, 14 R357, 17 R420 to R434). -/

namespace Sys2Proof.Machine

/-- PERST# low: the pin, and the loss of the link (R311). -/
def State.perstLow (s : State) : State := State.linkLoss { s with pins := { s.pins with perst := false } }

/-- PERST# high: the LINK stage's deadline may run (R374). -/
def State.perstHigh (s : State) : State := { s with pins := { s.pins with perst := true } }

/-- A module reset with its cause, of a module that has power (R375). -/
def State.resetFor (s : State) (cause : Nat) : State := if s.alive then s.moduleReset cause [] else s

/-- The input reaches 43.0 V and the start begins (R424); above the absolute
maximum R420 says only that the module may be damaged, and the model stops. -/
def execPowerOn (volts10 : Nat) (s : State) : Host.Outcome State Fault Refusal :=
  if inputMax < volts10 then .fault (.inputDamage volts10) else effect (State.powerUp · volts10) s

/-- The input leaves the shut-down thresholds (R420, R425). -/
def execInputShutdown (s : State) : Host.Outcome State Fault Refusal :=
  effect (State.shutDown) s

/-- PERST# is asserted (R311, R374). -/
def execPerstAssert (s : State) : Host.Outcome State Fault Refusal :=
  effect (State.perstLow) s

/-- PERST# is deasserted: the LINK deadline starts (R374). -/
def execPerstDeassert (s : State) : Host.Outcome State Fault Refusal :=
  effect (State.perstHigh) s

/-- The CXL link is lost (R311). -/
def execCxlLinkLoss (s : State) : Host.Outcome State Fault Refusal :=
  effect (State.linkLoss) s

/-- The CXL link trains (R286, R311). -/
def execCxlLinkTrained (speed width : Nat) (s : State) : Host.Outcome State Fault Refusal :=
  effect (State.linkTrained · speed width) s

/-- REFCLK is lost: the CXL link goes down (R311, R434). -/
def execRefclkLoss (s : State) : Host.Outcome State Fault Refusal :=
  effect (State.linkLoss) s

/-- THERM_TRIP# is driven low from outside (R430). -/
def execThermTripInput (s : State) : Host.Outcome State Fault Refusal :=
  effect (State.trip) s

/-- THERM_TRIP# is released after 10 s (R430). -/
def execThermTripRelease (high : Bool) (s : State) : Host.Outcome State Fault Refusal :=
  effect (State.tripRelease · high) s

/-- A telemetry update and the stretch controller (R413, R427 to R431). -/
def execStretchUpdate (t : Telemetry) (s : State) : Host.Outcome State Fault Refusal :=
  effect (State.telemetry · t) s

/-- A module reset (R375, R376). -/
def execModuleReset (cause : Nat) (s : State) : Host.Outcome State Fault Refusal :=
  effect (State.resetFor · cause) s

/-- A start stage ends (R372 to R378). -/
def execStartStageDone (failed : List Nat) (ac : Nat) (s : State) : Host.Outcome State Fault Refusal :=
  effect (State.stageDone · failed ac) s

/-- A start stage passes its deadline (R373, R376). -/
def execStartStageTimeout (cause unit ac : Nat) (s : State) : Host.Outcome State Fault Refusal :=
  effect (State.stageFailed · cause unit ac) s

/-- The management complex does not serve its watchdog (R338, R373). -/
def execManagementWatchdog (s : State) : Host.Outcome State Fault Refusal :=
  effect (State.managementReset) s

/-- A control core does not serve its watchdog (R357). -/
def execControlCoreWatchdog (core pc : Nat) (s : State) : Host.Outcome State Fault Refusal :=
  effect (State.controlWatchdog · core pc) s

/-- A control core has restarted (R357). -/
def execControlCoreRestartDone (core : Nat) (s : State) : Host.Outcome State Fault Refusal :=
  effect (State.restartDone · core) s

/-- A restart failed (R357). -/
def execControlCoreRestartTimeout (core : Nat) (s : State) : Host.Outcome State Fault Refusal :=
  effect (State.restartFailed · core) s

/-- The quiet time after a restart has passed (R357). -/
def execRestartQuietExpiry (core : Nat) (s : State) : Host.Outcome State Fault Refusal :=
  effect (State.quietDone · core) s

end Sys2Proof.Machine
end

