-- ==== Sys2Proof/Machine/ExecHeat.lean ====
section
/-! DEFINITION. The meanings of the slot tick, the slot ops, the verdict, the pour and pour sync
(2 R26 to R49, 4 R80 to R98, 5 R102 to R127, 7 R148 to R178, 9 R221 to R231). -/

namespace Sys2Proof.Machine

/-- The timebase tick (R26 to R37, R46). -/
def execSlotTick (s : State) : Host.Outcome State Fault Refusal :=
  effect (slotTickOp) s

/-- An op that is not complete is abandoned (R28). -/
def execOpAbandon (p : Prog) (dest : DestKind) (first tiles : Nat) (hostError : Option (Nat × Bool)) (s : State) :
    Host.Outcome State Fault Refusal :=
  effect (opAbandonOp p (dest.dest first tiles) hostError) s

/-- Forward product (R80 to R84, R87, R148, R222). -/
def execFMm (core : Nat) (h : OpHead) (a : ProductArgs) (s : State) : Host.Outcome State Fault Refusal :=
  effect (fMmOp core h a) s

/-- Input-gradient product (R80, R85, R87, R92, R151, R222). -/
def execBMmIg (core : Nat) (h : OpHead) (a : ProductArgs) (s : State) : Host.Outcome State Fault Refusal :=
  effect (bMmIgOp core h a) s

/-- Weight-gradient product (R89, R92, R152, R222). -/
def execBMmWg (core : Nat) (h : OpHead) (a : ProductArgs) (s : State) : Host.Outcome State Fault Refusal :=
  effect (bMmWgOp core h a) s

/-- The drain configuration of later ops (R217, R222, R223). -/
def execDrainCfg (core : Nat) (h : OpHead) (cfg : Nat) (s : State) : Host.Outcome State Fault Refusal :=
  effect (drainCfgOp core h cfg) s

/-- A bank passes the drain (R102 to R122, R159 to R168, R222). -/
def execDrain (core : Nat) (h : OpHead) (engine bank first tiles : Nat) (s : State) :
    Host.Outcome State Fault Refusal :=
  effect (drainOp core h engine bank first tiles) s

/-- A stored tensor passes the drain (R159, R222). -/
def execConvert (core : Nat) (h : OpHead) (tensor first tiles : Nat) (s : State) : Host.Outcome State Fault Refusal :=
  effect (convertTilesOp core h tensor first tiles) s

/-- Tiles go into the riser (R190, R222). -/
def execStashPut (core : Nat) (h : OpHead) (a : StashArgs) (s : State) : Host.Outcome State Fault Refusal :=
  effect (stashPutOp core h a) s

/-- Tiles come back from the riser (R190, R222). -/
def execStashGet (core : Nat) (h : OpHead) (a : StashArgs) (s : State) : Host.Outcome State Fault Refusal :=
  effect (stashGetOp core h a) s

/-- Tiles go to or come from the spill region (R191, R222). -/
def execSpill (core : Nat) (h : OpHead) (a : StashArgs) (read : Bool) (s : State) :
    Host.Outcome State Fault Refusal :=
  effect (spillOp core h a read) s

/-- Tiles travel over a link end (R123, R194, R222). -/
def execLinkSend (core : Nat) (h : OpHead) (linkEnd tensor first tiles : Nat) (s : State) :
    Host.Outcome State Fault Refusal :=
  effect (linkSendOp core h linkEnd tensor first tiles) s

/-- Reduce on arrival (R194, R220, R222). -/
def execLinkReduce (core : Nat) (h : OpHead) (entry : Nat) (s : State) : Host.Outcome State Fault Refusal :=
  effect (linkReduceOp core h entry) s

/-- Two siblings into their parent (R195, R220, R222). -/
def execNodeAdd (core : Nat) (h : OpHead) (entry : Nat) (s : State) : Host.Outcome State Fault Refusal :=
  effect (nodeAddOp core h entry) s

/-- A wait on a token counter (R222, R227). -/
def execTokenWait (core : Nat) (h : OpHead) (token count : Nat) (s : State) : Host.Outcome State Fault Refusal :=
  effect (tokenWaitOp core h token count) s

/-- A wait window ends unmet (R227). -/
def execTokenWaitTimeout (core : Nat) (s : State) : Host.Outcome State Fault Refusal :=
  effect (tokenWaitTimeoutOp core) s

/-- An increment of a token counter (R222, R227). -/
def execTokenSignal (core : Nat) (h : OpHead) (die token : Nat) (atDone : Bool) (s : State) :
    Host.Outcome State Fault Refusal :=
  effect (tokenSignalOp core h die token atDone) s

/-- An increment arrives at its die (R227). -/
def execTokenIncrementArrival (die token : Nat) (s : State) : Host.Outcome State Fault Refusal :=
  effect (tokenArrivalOp die token) s

/-- Ops under an alternate flag (R222, R228). -/
def execRecomputeAlt (core : Nat) (h : OpHead) (flag mask count : Nat) (s : State) :
    Host.Outcome State Fault Refusal :=
  effect (recomputeAltOp core h flag mask count) s

/-- A point where an urgent suspension may take effect (R222, R229). -/
def execSuspendPoint (core : Nat) (h : OpHead) (point : Nat) (s : State) : Host.Outcome State Fault Refusal :=
  effect (suspendPointOp core h point) s

/-- An update unit runs a program over parameters (R202 to R206, R222). -/
def execUpdate (u : Nat) (h : OpHead) (a : UpdateArgs) (s : State) : Host.Outcome State Fault Refusal :=
  effect (updateOp u h a) s

/-- A loop body begins (R226). -/
def execLoop (p : Prog) (h : OpHead) (outer : Bool) (count : Nat) (increment : Int) (s : State) :
    Host.Outcome State Fault Refusal :=
  effect (loopOp p h outer count increment) s

/-- A loop body ends (R226). -/
def execEndloop (p : Prog) (s : State) : Host.Outcome State Fault Refusal :=
  effect (endloopOp p) s

/-- A marked tile is converted again (R118 to R121). -/
def execTileRecompute (core : Nat) (s : State) : Host.Outcome State Fault Refusal :=
  effect (tileRecomputeOp core) s

/-- The combined status word is fixed (R197, R198). -/
def execVerdictFix (s : State) : Host.Outcome State Fault Refusal :=
  effect (verdictFixOp) s

/-- The POUR phase begins (R34, R35). -/
def execPour (s : State) : Host.Outcome State Fault Refusal :=
  effect (pourOp) s

/-- A pour step ends (R34, R35). -/
def execPourStepDone (s : State) : Host.Outcome State Fault Refusal :=
  effect (pourStepOp) s

/-- POUR_SYNC_IN changes its level (R40, R41, R44). -/
def execPourSyncInEdge (level : Bool) (acBefore : Nat) (s : State) : Host.Outcome State Fault Refusal :=
  effect (syncInEdgeOp level acBefore) s

/-- The master drives its pulse (R39, R42). -/
def execMasterSyncPulse (s : State) : Host.Outcome State Fault Refusal :=
  effect (masterPulseOp) s

/-- POUR_WAIT_MAX slots pass (R43). -/
def execSyncWaitExpiry (s : State) : Host.Outcome State Fault Refusal :=
  effect (syncExpiryOp) s

end Sys2Proof.Machine
end

