-- ==== Sys2Proof/Machine/ExecFleet.lean ====
section
/-! DEFINITION. The meanings of fences and crossings, links, copies in progress, the fleet and the remaining events
(13 R316 to R331, 14 R345 to R358, 12 R288). -/

namespace Sys2Proof.Machine

/-- TRIP_TEMPERATURE_REACHED: a die that is not fenced causes a trip (R430). -/
def State.dieTrip (s : State) (unit : Nat) : State := if s.fencedNow unit then s else s.trip

/-- The answer to any other SMBus command: NACK (R433). -/
def State.smbusOther (s : State) : State := if s.power.powered then s.emit .smbusNack else s

/-- The clocks of a unit being fenced stop (R345). -/
def execFenceClockStop (unit : Nat) (s : State) : Host.Outcome State Fault Refusal :=
  effect (State.clockStop · unit) s

/-- A unit being fenced is gated (R345). -/
def execFencePowerGate (unit : Nat) (s : State) : Host.Outcome State Fault Refusal :=
  effect (State.powerGate · unit) s

/-- A crossing is not acknowledged (R352). -/
def execCdcHandshakeTimeout (source far : Nat) (r : Requester) (s : State) : Host.Outcome State Fault Refusal :=
  effect (State.cdcTimeoutOp · source far r) s

/-- A remote register read passes its bound (R418). -/
def execRemoteRegisterReadTimeout (offset : Nat) (s : State) : Host.Outcome State Fault Refusal :=
  effect (State.remoteTimeout · offset) s

/-- A flit fails its CRC (R358). -/
def execLinkCrcFail (linkEnd : Nat) (s : State) : Host.Outcome State Fault Refusal :=
  effect (State.crcFail · linkEnd) s

/-- A link has retrained, or not (R355, R358). -/
def execLinkRetrainDone (link : Nat) (ok : Bool) (s : State) : Host.Outcome State Fault Refusal :=
  effect (State.retrainDone · link ok) s

/-- A channel PHY has retrained (R356). -/
def execChannelPhyRetrainDone (channel : Nat) (s : State) : Host.Outcome State Fault Refusal :=
  effect (State.phyDone · channel) s

/-- A chunk of a copy or fill ends (R248, R256). -/
def execCopyChunkDone (ring tag : Nat) (s : State) : Host.Outcome State Fault Refusal :=
  effect (copyChunkOp ring tag) s

/-- A chunk of a skim ends (R281 to R283). -/
def execSkimChunkDone (ring tag : Nat) (s : State) : Host.Outcome State Fault Refusal :=
  effect (skimChunkOp ring tag) s

/-- A local root goes out to the owners of its tiles (R320, R323). -/
def execFleetUplink (tensor : Nat) (s : State) : Host.Outcome State Fault Refusal :=
  effect (fleetUplinkOp tensor) s

/-- A message in the receive area (R317 to R319). -/
def execFleetMessageAccept (offset : Nat) (message : List Byte) (s : State) : Host.Outcome State Fault Refusal :=
  effect (fleetAcceptOp offset message) s

/-- An owner sums a tile over the ranks (R321, R322). -/
def execFleetReduceTile (t : Nat) (s : State) : Host.Outcome State Fault Refusal :=
  effect (fleetReduceOp t) s

/-- A write to a partner fails (R327). -/
def execFleetWriteFailed (rank : Nat) (s : State) : Host.Outcome State Fault Refusal :=
  effect (fleetWriteFailedOp rank) s

/-- A member freezes its status word (R324). -/
def execFleetStatusFreeze (s : State) : Host.Outcome State Fault Refusal :=
  effect (fleetFreezeOp) s

/-- FLEET_DEADLINE has passed (R324). -/
def execFleetDeadlineExpiry (s : State) : Host.Outcome State Fault Refusal :=
  effect (fleetDeadlineOp) s

/-- VERDICT ends for the fleet (R325, R326). -/
def execFleetVerdictEnd (s : State) : Host.Outcome State Fault Refusal :=
  effect (fleetVerdictOp) s

/-- The host answers an access (R298). -/
def execHostAccessResponse (id : Nat) (r : HostResp) (s : State) : Host.Outcome State Fault Refusal :=
  effect (hostResponseOp id r) s

/-- A context image has been moved (R306). -/
def execContextTransferDone (ring tag : Nat) (s : State) : Host.Outcome State Fault Refusal :=
  effect (contextTransferOp ring tag) s

/-- A die stands at its trip temperature (R430); a fenced unit takes no part. -/
def execTripTemperatureReached (unit : Nat) (s : State) : Host.Outcome State Fault Refusal :=
  effect (State.dieTrip · unit) s

/-- A refresh window ends (R271, R274). -/
def execRefreshWindowEnd (bonded : Bool) (unit bank : Nat) (s : State) : Host.Outcome State Fault Refusal :=
  effect (State.refreshEnd · bonded unit bank) s

/-- Flash accepts writes again (R389). -/
def execFlashWritesAcceptedAgain (s : State) : Host.Outcome State Fault Refusal :=
  effect (flashAgain) s

/-- A DOE discovery request (R285). -/
def execDoeDiscovery (s : State) : Host.Outcome State Fault Refusal :=
  effect (State.doeDiscover) s

/-- A DOE CDAT read (R285, R379). -/
def execCdatTableAccess (s : State) : Host.Outcome State Fault Refusal :=
  effect (State.cdat) s

/-- An HDM decoder is programmed (R288). -/
def execHdmDecoderProgram (decoder base : Nat) (s : State) : Host.Outcome State Fault Refusal :=
  effect (State.hdmProgram · decoder base) s

/-- Any other SMBus command (R433). -/
def execSmbusOtherCommand (s : State) : Host.Outcome State Fault Refusal :=
  effect (State.smbusOther) s

end Sys2Proof.Machine
end

