-- ==== Sys2Proof/Machine/Dispatch.lean ====
section
/-! DEFINITION. The dispatch of every command to its meaning. -/

namespace Sys2Proof.Machine

/-- The effect of a command on everything but the queue. -/
def exec (i : Instr) (s : State) : Host.Outcome State Fault Refusal :=
  match i with
  | .nop c => Sys2Proof.Machine.execNop c s
  | .loadPattern c image length resetTrackers => Sys2Proof.Machine.execLoadPattern c image length resetTrackers s
  | .bindTensors c list entries => Sys2Proof.Machine.execBindTensors c list entries s
  | .runHeats c a => Sys2Proof.Machine.execRunHeats c a s
  | .suspend c ring tag => Sys2Proof.Machine.execSuspend c ring tag s
  | .resume c ring tag => Sys2Proof.Machine.execResume c ring tag s
  | .cancel c ring tag => Sys2Proof.Machine.execCancel c ring tag s
  | .saveContext c area length host => Sys2Proof.Machine.execSaveContext c area length host s
  | .restoreContext c area length host => Sys2Proof.Machine.execRestoreContext c area length host s
  | .copy c src dst perm => Sys2Proof.Machine.execCopy c src dst perm s
  | .gather c src dst perm list entries listHost => Sys2Proof.Machine.execGather c src dst perm list entries listHost s
  | .scatter c src dst perm list entries listHost => Sys2Proof.Machine.execScatter c src dst perm list entries listHost s
  | .fill c a => Sys2Proof.Machine.execFill c a s
  | .skim c base length summary => Sys2Proof.Machine.execSkim c base length summary s
  | .fenceUnit c unit => Sys2Proof.Machine.execFenceUnit c unit s
  | .query c code target out outLen => Sys2Proof.Machine.execQuery c code target out outLen s
  | .setSeverity c code sev => Sys2Proof.Machine.execSetSeverity c code sev s
  | .ackEvent c seq => Sys2Proof.Machine.execAckEvent c seq s
  | .fleetJoin c a => Sys2Proof.Machine.execFleetJoin c a s
  | .fleetLeave c => Sys2Proof.Machine.execFleetLeave c s
  | .submissionDoorbell ring value => Sys2Proof.Machine.execSubmissionDoorbell ring value s
  | .descriptorDispatch ring => Sys2Proof.Machine.execDescriptorDispatch ring s
  | .completionHeadDoorbell value => Sys2Proof.Machine.execCompletionHeadDoorbell value s
  | .eventHeadDoorbell value => Sys2Proof.Machine.execEventHeadDoorbell value s
  | .interruptSend vector => Sys2Proof.Machine.execInterruptSend vector s
  | .hostTimeoutExpiry id => Sys2Proof.Machine.execHostTimeoutExpiry id s
  | .getIdentity req => Sys2Proof.Machine.execGetIdentity req s
  | .authNonce req => Sys2Proof.Machine.execAuthNonce req s
  | .auth req => Sys2Proof.Machine.execAuth req s
  | .authLockoutExpiry => Sys2Proof.Machine.execAuthLockoutExpiry s
  | .release req => Sys2Proof.Machine.execRelease req s
  | .enrollKey req => Sys2Proof.Machine.execEnrollKey req s
  | .revokeKey req => Sys2Proof.Machine.execRevokeKey req s
  | .stageFirmware req => Sys2Proof.Machine.execStageFirmware req s
  | .advanceSvn req => Sys2Proof.Machine.execAdvanceSvn req s
  | .clearStartFail req => Sys2Proof.Machine.execClearStartFail req s
  | .resetModule req => Sys2Proof.Machine.execResetModule req s
  | .auditRead req => Sys2Proof.Machine.execAuditRead req s
  | .auditCheckpoint req => Sys2Proof.Machine.execAuditCheckpoint req s
  | .debugNonce req => Sys2Proof.Machine.execDebugNonce req s
  | .debugUnlock req => Sys2Proof.Machine.execDebugUnlock req s
  | .getCerts offset length => Sys2Proof.Machine.execGetCerts offset length s
  | .attest nonce => Sys2Proof.Machine.execAttest nonce s
  | .smbusBlockRead command => Sys2Proof.Machine.execSmbusBlockRead command s
  | .jtagBoundaryInstruction clamp => Sys2Proof.Machine.execJtagBoundaryInstruction clamp s
  | .jtagPrivateSession scope accesses => Sys2Proof.Machine.execJtagPrivateSession scope accesses s
  | .commit block acBefore => Sys2Proof.Machine.execCommit block acBefore s
  | .ringEnable ring => Sys2Proof.Machine.execRingEnable ring s
  | .ringDisable ring => Sys2Proof.Machine.execRingDisable ring s
  | .severityMapWrite w value => Sys2Proof.Machine.execSeverityMapWrite w value s
  | .clearSticky => Sys2Proof.Machine.execClearSticky s
  | .cancelClear => Sys2Proof.Machine.execCancelClear s
  | .splitWrite => Sys2Proof.Machine.execSplitWrite s
  | .snooperRunWrite snooper value => Sys2Proof.Machine.execSnooperRunWrite snooper value s
  | .registerWrite offset size value => Sys2Proof.Machine.execRegisterWrite offset size value s
  | .installerFieldFlashWrite ok => Sys2Proof.Machine.execInstallerFieldFlashWrite ok s
  | .hostMemRead decoder offset length cached => Sys2Proof.Machine.execHostMemRead decoder offset length cached s
  | .hostMemWrite decoder offset data => Sys2Proof.Machine.execHostMemWrite decoder offset data s
  | .hostSnoop line => Sys2Proof.Machine.execHostSnoop line s
  | .bisnpResponse line modified => Sys2Proof.Machine.execBisnpResponse line modified s
  | .powerOn volts10 => Sys2Proof.Machine.execPowerOn volts10 s
  | .inputShutdown => Sys2Proof.Machine.execInputShutdown s
  | .perstAssert => Sys2Proof.Machine.execPerstAssert s
  | .perstDeassert => Sys2Proof.Machine.execPerstDeassert s
  | .cxlLinkLoss => Sys2Proof.Machine.execCxlLinkLoss s
  | .cxlLinkTrained speed width => Sys2Proof.Machine.execCxlLinkTrained speed width s
  | .refclkLoss => Sys2Proof.Machine.execRefclkLoss s
  | .thermTripInput => Sys2Proof.Machine.execThermTripInput s
  | .thermTripRelease high => Sys2Proof.Machine.execThermTripRelease high s
  | .stretchUpdate t => Sys2Proof.Machine.execStretchUpdate t s
  | .moduleReset cause => Sys2Proof.Machine.execModuleReset cause s
  | .startStageDone failed ac => Sys2Proof.Machine.execStartStageDone failed ac s
  | .startStageTimeout cause unit ac => Sys2Proof.Machine.execStartStageTimeout cause unit ac s
  | .managementWatchdog => Sys2Proof.Machine.execManagementWatchdog s
  | .controlCoreWatchdog core pc => Sys2Proof.Machine.execControlCoreWatchdog core pc s
  | .controlCoreRestartDone core => Sys2Proof.Machine.execControlCoreRestartDone core s
  | .controlCoreRestartTimeout core => Sys2Proof.Machine.execControlCoreRestartTimeout core s
  | .restartQuietExpiry core => Sys2Proof.Machine.execRestartQuietExpiry core s
  | .slotTick => Sys2Proof.Machine.execSlotTick s
  | .opAbandon p dest first tiles hostError => Sys2Proof.Machine.execOpAbandon p dest first tiles hostError s
  | .fMm core h a => Sys2Proof.Machine.execFMm core h a s
  | .bMmIg core h a => Sys2Proof.Machine.execBMmIg core h a s
  | .bMmWg core h a => Sys2Proof.Machine.execBMmWg core h a s
  | .drainCfg core h cfg => Sys2Proof.Machine.execDrainCfg core h cfg s
  | .drain core h engine bank first tiles => Sys2Proof.Machine.execDrain core h engine bank first tiles s
  | .convert core h tensor first tiles => Sys2Proof.Machine.execConvert core h tensor first tiles s
  | .stashPut core h a => Sys2Proof.Machine.execStashPut core h a s
  | .stashGet core h a => Sys2Proof.Machine.execStashGet core h a s
  | .spill core h a read => Sys2Proof.Machine.execSpill core h a read s
  | .linkSend core h linkEnd tensor first tiles => Sys2Proof.Machine.execLinkSend core h linkEnd tensor first tiles s
  | .linkReduce core h entry => Sys2Proof.Machine.execLinkReduce core h entry s
  | .nodeAdd core h entry => Sys2Proof.Machine.execNodeAdd core h entry s
  | .tokenWait core h token count => Sys2Proof.Machine.execTokenWait core h token count s
  | .tokenWaitTimeout core => Sys2Proof.Machine.execTokenWaitTimeout core s
  | .tokenSignal core h die token atDone => Sys2Proof.Machine.execTokenSignal core h die token atDone s
  | .tokenIncrementArrival die token => Sys2Proof.Machine.execTokenIncrementArrival die token s
  | .recomputeAlt core h flag mask count => Sys2Proof.Machine.execRecomputeAlt core h flag mask count s
  | .suspendPoint core h point => Sys2Proof.Machine.execSuspendPoint core h point s
  | .update u h a => Sys2Proof.Machine.execUpdate u h a s
  | .loop p h outer count increment => Sys2Proof.Machine.execLoop p h outer count increment s
  | .endloop p => Sys2Proof.Machine.execEndloop p s
  | .tileRecompute core => Sys2Proof.Machine.execTileRecompute core s
  | .verdictFix => Sys2Proof.Machine.execVerdictFix s
  | .pour => Sys2Proof.Machine.execPour s
  | .pourStepDone => Sys2Proof.Machine.execPourStepDone s
  | .pourSyncInEdge level acBefore => Sys2Proof.Machine.execPourSyncInEdge level acBefore s
  | .masterSyncPulse => Sys2Proof.Machine.execMasterSyncPulse s
  | .syncWaitExpiry => Sys2Proof.Machine.execSyncWaitExpiry s
  | .fenceClockStop unit => Sys2Proof.Machine.execFenceClockStop unit s
  | .fencePowerGate unit => Sys2Proof.Machine.execFencePowerGate unit s
  | .cdcHandshakeTimeout source far r => Sys2Proof.Machine.execCdcHandshakeTimeout source far r s
  | .remoteRegisterReadTimeout offset => Sys2Proof.Machine.execRemoteRegisterReadTimeout offset s
  | .linkCrcFail linkEnd => Sys2Proof.Machine.execLinkCrcFail linkEnd s
  | .linkRetrainDone link ok => Sys2Proof.Machine.execLinkRetrainDone link ok s
  | .channelPhyRetrainDone channel => Sys2Proof.Machine.execChannelPhyRetrainDone channel s
  | .copyChunkDone ring tag => Sys2Proof.Machine.execCopyChunkDone ring tag s
  | .skimChunkDone ring tag => Sys2Proof.Machine.execSkimChunkDone ring tag s
  | .fleetUplink tensor => Sys2Proof.Machine.execFleetUplink tensor s
  | .fleetMessageAccept offset message => Sys2Proof.Machine.execFleetMessageAccept offset message s
  | .fleetReduceTile t => Sys2Proof.Machine.execFleetReduceTile t s
  | .fleetWriteFailed rank => Sys2Proof.Machine.execFleetWriteFailed rank s
  | .fleetStatusFreeze => Sys2Proof.Machine.execFleetStatusFreeze s
  | .fleetDeadlineExpiry => Sys2Proof.Machine.execFleetDeadlineExpiry s
  | .fleetVerdictEnd => Sys2Proof.Machine.execFleetVerdictEnd s
  | .hostAccessResponse id r => Sys2Proof.Machine.execHostAccessResponse id r s
  | .contextTransferDone ring tag => Sys2Proof.Machine.execContextTransferDone ring tag s
  | .tripTemperatureReached unit => Sys2Proof.Machine.execTripTemperatureReached unit s
  | .refreshWindowEnd bonded unit bank => Sys2Proof.Machine.execRefreshWindowEnd bonded unit bank s
  | .flashWritesAcceptedAgain => Sys2Proof.Machine.execFlashWritesAcceptedAgain s
  | .doeDiscovery => Sys2Proof.Machine.execDoeDiscovery s
  | .cdatTableAccess => Sys2Proof.Machine.execCdatTableAccess s
  | .hdmDecoderProgram decoder base => Sys2Proof.Machine.execHdmDecoderProgram decoder base s
  | .smbusOtherCommand => Sys2Proof.Machine.execSmbusOtherCommand s

end Sys2Proof.Machine
end

