-- ==== Sys2Proof/Machine/Encode.lean ====
section
/-! DEFINITION. The 64-byte descriptor of a ring command, from the field tables (12 R297, R300, 13 R314): what a host that issues
the command writes into its ring. -/

namespace Sys2Proof.Machine

/-- One bit as a byte. -/
def bitByte (b : Bool) : List Byte := natLe 1 (if b then 1 else 0)

/-- The first 8 bytes: opcode, flags, vector, TAG (R297). -/
def descHead (c : Rc) (opc : Nat) : List Byte :=
  natLe 4 (opc + (if c.irq then 2 ^ 8 else 0) + (if c.urgent then 2 ^ 9 else 0) + (if c.wait then 2 ^ 10 else 0) + c.vector * 2 ^ 16) ++
    natLe 4 c.tag

/-- PERM as a number. -/
def permNum (p : List Nat) : Nat := sumNat ((List.range 5).map fun k => nth p k * 2 ^ (3 * k))

/-- The payload of a ring command, bytes 8 to 63. -/
def payloadOf : Instr → List Byte
  | .nop _ => zeros 56
  | .loadPattern _ a l r => natLe 8 a ++ natLe 8 l ++ bitByte r ++ zeros 39
  | .bindTensors _ l n => natLe 8 l ++ natLe 4 n ++ zeros 44
  | .runHeats _ a =>
    natLe 8 a.heatList ++ natLe 4 a.heats ++ natLe 4 a.recCount ++ natLe 8 a.recArea ++
      natLe 1 (a.numReplays + (if a.afterHalt then 16 else 0) + (if a.defaultPolicy then 128 else 0)) ++ natLe 1 a.replayLimit ++
      zeros 6 ++ natLe 8 a.seeds ++ zeros 16
  | .suspend _ r t => natLe 1 r ++ zeros 3 ++ natLe 4 t ++ zeros 48
  | .resume _ r t => natLe 1 r ++ zeros 3 ++ natLe 4 t ++ zeros 48
  | .cancel _ r t => natLe 1 r ++ zeros 3 ++ natLe 4 t ++ zeros 48
  | .saveContext _ a l h => natLe 8 a ++ natLe 8 l ++ bitByte h ++ zeros 39
  | .restoreContext _ a l h => natLe 8 a ++ natLe 8 l ++ bitByte h ++ zeros 39
  | .copy _ s d p => natLe 8 s ++ natLe 8 d ++ natLe 2 (permNum p) ++ zeros 38
  | .gather _ s d p l n h =>
    natLe 8 s ++ natLe 8 d ++ natLe 2 (permNum p) ++ zeros 6 ++ natLe 8 l ++ natLe 4 n ++ bitByte h ++ zeros 19
  | .scatter _ s d p l n h =>
    natLe 8 s ++ natLe 8 d ++ natLe 2 (permNum p) ++ zeros 6 ++ natLe 8 l ++ natLe 4 n ++ bitByte h ++ zeros 19
  | .fill _ a =>
    natLe 8 a.dst ++ natLe 1 a.mode ++ zeros 1 ++ natLe 2 a.sandId ++ natLe 4 a.a.toNat ++ natLe 2 a.func ++ zeros 6 ++
      natLe 8 a.heat ++ zeros 24
  | .skim _ b l o => natLe 8 b ++ natLe 8 l ++ natLe 8 o ++ zeros 32
  | .fenceUnit _ n => natLe 2 n ++ zeros 54
  | .query _ q t o l => natLe 1 q ++ zeros 3 ++ natLe 4 t ++ natLe 8 o ++ natLe 4 l ++ zeros 36
  | .setSeverity _ e v => natLe 1 e ++ natLe 1 v ++ zeros 54
  | .ackEvent _ q => natLe 8 q ++ zeros 48
  | .fleetJoin _ a =>
    natLe 8 a.peers ++ natLe 2 a.size ++ natLe 1 a.wire ++ zeros 1 ++ natLe 4 a.deadline ++ natLe 8 a.jobId ++ natLe 8 a.rxBase ++
      natLe 8 a.rxLen ++ natLe 8 a.resBase ++ natLe 8 a.resLen
  | .fleetLeave _ => zeros 56
  | _ => []

/-- The descriptor of a ring command with its common fields and its opcode. -/
def encodeDesc (i : Instr) (c : Rc) (opc : Nat) : List Byte := descHead c opc ++ payloadOf i

end Sys2Proof.Machine
end

