-- ==== Sys2Proof/Safety.lean ====
section
/-! DEFINITION. The terms in which claims speak: what stands after a command, when a ring, the registers, the mailbox or a
program takes one, which parts of the state two states share, and what no step may undo. -/

namespace Sys2Proof.Machine

/-! ## The end of a command -/

/-- What stands after a command whose effect gave x: the reset or the frames that are due at its end (R338, R347), and the
queue as it was. -/
def State.done (s x : State) : State := { State.settle x with pending := s.pending }

/-- Is nothing due at the end of a command: no reset, and no frame outside a RUN_HEATS operation? -/
def State.calm (s : State) : Bool :=
  s.events.resetDue.isNone && (s.running || (s.fences.dueFrames.isEmpty && s.fences.laterFrames.isEmpty))

/-! ## When a command is taken -/

/-- The common fields of a ring command; none for every other row. -/
def rcOf : Instr → Option Rc
  | .nop c => some c
  | .loadPattern c _ _ _ => some c
  | .bindTensors c _ _ => some c
  | .runHeats c _ => some c
  | .suspend c _ _ => some c
  | .resume c _ _ => some c
  | .cancel c _ _ => some c
  | .saveContext c _ _ _ => some c
  | .restoreContext c _ _ _ => some c
  | .copy c _ _ _ => some c
  | .gather c _ _ _ _ _ _ => some c
  | .scatter c _ _ _ _ _ _ => some c
  | .fill c _ => some c
  | .skim c _ _ _ => some c
  | .fenceUnit c _ => some c
  | .query c _ _ _ _ => some c
  | .setSeverity c _ _ => some c
  | .ackEvent c _ => some c
  | .fleetJoin c _ => some c
  | .fleetLeave c => some c
  | _ => none

/-- Can a ring dispatch a descriptor at once: the link is up, the ring is on, nothing stands before it, no record of the ring
is held, and its WAIT is met (R294, R296)? -/
def State.ready (s : State) (c : Rc) : Bool :=
  s.fullLink && (s.ring c.ring).enable && (s.ring c.ring).fetched.isEmpty && s.canDispatch c

/-- Does the ring take the opcode, and has it the role that the command needs (R292, R295)? -/
def State.permits (s : State) (c : Rc) (opc : Nat) : Bool :=
  ringAccepts c.ring opc && decide (roleNeeded s.regs.policy opc ≤ (s.ring c.ring).role)

/-- Is a ring command dispatched at once, and run: its ring is ready and permits it, its payload and its own checks hold, and no
copy keeps a change of the translation tables waiting (R260, R294 to R303)? -/
def State.accepts (s : State) (i : Instr) (c : Rc) (opc : Nat) : Bool :=
  s.ready c && !s.tablesHold opc && s.permits c opc && decide (s.acceptStatus opc i = stOk)

/-- The head index in the record of a command on a ring (R309). -/
def State.headOf (s : State) (c : Rc) : Nat := (s.ring c.ring).head

/-- The audit entry of an accepted command (R387). -/
def State.logged (s : State) (c : Rc) (action : Nat) (object : List Byte) : State :=
  s.auditAppend action (s.ring c.ring).role stOk (s.ring c.ring).key object

/-- Does the mailbox take a command: the link is up, it is not busy, and the request fits (R415)? -/
def State.mailboxOpen (s : State) (req : List Byte) : Bool :=
  s.linkLive && !s.mbx.busy && decide (req.length ≤ 4096)

/-- Does a slot op take effect: its program issues ops now, and no span of RECOMPUTE_ALT takes it away (R221, R228)? -/
def State.takesOp (s : State) (p : Prog) : Bool := s.issues p && (s.spanStep p).1

/-- The state that the effect of a slot op starts from: one op of a span is used up, and no read waits yet. -/
def State.opBase (s : State) (p : Prog) : State :=
  { (s.spanStep p).2 with heat := { (s.spanStep p).2.heat with leafMiss := [] } }

/-! ## Parts of the state -/

/-- The groups of State. -/
inductive Part where
  | fuses
  | boot
  | mbx
  | audit
  | pins
  | power
  | port
  | regs
  | events
  | fences
  | mem
  | heat
  | ops
  | ended
  | fleet
  | out
  | freeCtr
  | pending
  deriving DecidableEq, Repr

/-- Do two states agree in a group? -/
def Part.same (p : Part) (s t : State) : Prop :=
  match p with
  | .fuses => t.fuses = s.fuses
  | .boot => t.boot = s.boot
  | .mbx => t.mbx = s.mbx
  | .audit => t.audit = s.audit
  | .pins => t.pins = s.pins
  | .power => t.power = s.power
  | .port => t.port = s.port
  | .regs => t.regs = s.regs
  | .events => t.events = s.events
  | .fences => t.fences = s.fences
  | .mem => t.mem = s.mem
  | .heat => t.heat = s.heat
  | .ops => t.ops = s.ops
  | .ended => t.ended = s.ended
  | .fleet => t.fleet = s.fleet
  | .out => t.out = s.out
  | .freeCtr => t.freeCtr = s.freeCtr
  | .pending => t.pending = s.pending

/-- The frame of a command: t differs from s at most in the listed groups. -/
def sameBut (changed : List Part) (s t : State) : Prop := ∀ p : Part, p ∉ changed → p.same s t

/-! ## What no step undoes -/

/-- No fuse is cleared from a to b (R368): the hashes, the serial number and the order code stand, the SVN does not fall, and
a blown revocation bit stays blown. -/
def Fuses.kept (a b : Fuses) : Prop :=
  b.order = a.order ∧ b.serial = a.serial ∧ b.fwKeyHash0 = a.fwKeyHash0 ∧ b.fwKeyHash1 = a.fwKeyHash1 ∧
    b.dbgKeyHash = a.dbgKeyHash ∧ a.svn ≤ b.svn ∧ ∀ i, a.fwKeyRevoke.testBit i = true → b.fwKeyRevoke.testBit i = true

/-- Memory lists its bytes in canonical form. -/
def State.memOk (s : State) : Bool := s.mem.wf

end Sys2Proof.Machine
end

