-- ==== Sys2Proof/WellFormed.lean ====
section
/-! DEFINITION. The ranges that the operands of a command can have: widths of descriptor and op fields, numbers of rings,
cores, update units, links and units. -/

namespace Sys2Proof

/-- A 64-bit field. -/
def fits64 (n : Nat) : Bool := decide (n < 2 ^ 64)
/-- A 32-bit field. -/
def fits32 (n : Nat) : Bool := decide (n < 2 ^ 32)
/-- A 16-bit field. -/
def fits16 (n : Nat) : Bool := decide (n < 2 ^ 16)
/-- An 8-bit field. -/
def fits8 (n : Nat) : Bool := decide (n < 2 ^ 8)
/-- One of the 1,024 logical cores. -/
def isCore (n : Nat) : Bool := decide (n < 1024)
/-- A tensor index of a slot op (R222). -/
def isTensor (n : Nat) : Bool := decide (n < 4096)
/-- One of the 8 submission rings (R292). -/
def isRing (n : Nat) : Bool := decide (n < 8)

/-- The common descriptor fields (R297). -/
def Rc.wf (c : Rc) : Bool := isRing c.ring && fits32 c.tag && decide (c.vector < 64)

/-- RUN_HEATS fields (R300). Under DEFAULT_POLICY the three policy fields stand at their defaults. -/
def RunArgs.wf (a : RunArgs) : Bool :=
  fits64 a.heatList && fits32 a.heats && fits32 a.recCount && fits64 a.recArea && fits64 a.seeds &&
    decide (a.numReplays < 16) && decide (a.replayLimit < 16) &&
    (!a.defaultPolicy || (decide (a.numReplays = 1) && !a.afterHalt && decide (a.replayLimit = 3)))

/-- FLEET_JOIN fields (R314). -/
def JoinArgs.wf (a : JoinArgs) : Bool :=
  fits64 a.peers && fits16 a.size && fits8 a.wire && fits32 a.deadline && fits64 a.jobId && fits64 a.rxBase &&
    fits64 a.rxLen && fits64 a.resBase && fits64 a.resLen

/-- FILL fields (R300). -/
def FillArgs.wf (a : FillArgs) : Bool := fits64 a.dst && fits8 a.mode && fits16 a.sandId && fits16 a.func && fits64 a.heat

/-- A permutation field: five 3-bit numbers (R300). -/
def permWf (p : List Nat) : Bool := decide (p.length = 5) && p.all fun k => decide (k < 8)

/-- A program: a core or one of 24 update units (R221). -/
def Prog.wf : Prog → Bool
  | .core i => isCore i
  | .unit u => decide (u < 24)

/-- The common op fields (R222). -/
def OpHead.wf (h : OpHead) : Bool := decide (h.aco < 2 ^ 22) && decide (h.acl < 2 ^ 22) && decide (h.lpf < 4)

/-- Product op fields (R222). -/
def ProductArgs.wf (a : ProductArgs) : Bool :=
  fits16 a.odx && decide (a.p < 32) && decide (a.l < 16) && decide (a.j < 2 ^ 15) && decide (a.bank < 2) &&
    decide (a.mask < 16) && fits16 a.row0 && decide (a.rows < 2 ^ 10)

/-- Ladle op fields (R222). -/
def StashArgs.wf (a : StashArgs) : Bool := isTensor a.tensor && fits32 a.first && fits16 a.tiles && decide (a.ladle < 2)

/-- UPDATE fields (R222). -/
def UpdateArgs.wf (a : UpdateArgs) : Bool :=
  decide (a.layer < 1024) && decide (a.pass < 2) && decide (a.step = 1 ∨ a.step = 2) && decide (a.first < 2 ^ 38) &&
    decide (a.count < 2 ^ 21)

/-- The destinations of a slot op: a tensor index of 12 bits, one of five engines and two banks (R151, R222). -/
def OpDest.wf : OpDest → Bool
  | .tiles t _ _ => isTensor t
  | .bank e b => decide (e < 5) && decide (b < 2)
  | .node a _ => fits64 a

/-- A requester names a program and destinations that exist. -/
def Requester.wf : Requester → Bool
  | .slotOp p d => p.wf && d.wf
  | _ => true

/-- A list of requests or bytes that fits the mailbox buffer (R415). -/
def reqWf (b : List Byte) : Bool := decide (b.length ≤ 4096)

/-- The operands of a command lie in their ranges. -/
def Instr.wf : Instr → Bool
  | .nop c => c.wf
  | .loadPattern c i l _ => c.wf && fits64 i && fits64 l
  | .bindTensors c l n => c.wf && fits64 l && fits32 n
  | .runHeats c a => c.wf && a.wf
  | .suspend c r t => c.wf && fits8 r && fits32 t
  | .resume c r t => c.wf && fits8 r && fits32 t
  | .cancel c r t => c.wf && fits8 r && fits32 t
  | .saveContext c a l _ => c.wf && fits64 a && fits64 l
  | .restoreContext c a l _ => c.wf && fits64 a && fits64 l
  | .copy c s d p => c.wf && fits64 s && fits64 d && permWf p
  | .gather c s d p l n _ => c.wf && fits64 s && fits64 d && permWf p && fits64 l && fits32 n
  | .scatter c s d p l n _ => c.wf && fits64 s && fits64 d && permWf p && fits64 l && fits32 n
  | .fill c a => c.wf && a.wf
  | .skim c b l o => c.wf && fits64 b && fits64 l && fits64 o
  | .fenceUnit c n => c.wf && fits16 n
  | .query c q t o l => c.wf && fits8 q && fits32 t && fits64 o && fits32 l
  | .setSeverity c e v => c.wf && fits8 e && fits8 v
  | .ackEvent c q => c.wf && fits64 q
  | .fleetJoin c a => c.wf && a.wf
  | .fleetLeave c => c.wf
  | .submissionDoorbell r v => isRing r && fits16 v
  | .descriptorDispatch r => isRing r
  | .completionHeadDoorbell v => fits16 v
  | .eventHeadDoorbell v => fits16 v
  | .interruptSend v => decide (v < 64)
  | .hostTimeoutExpiry _ => true
  | .getIdentity b => reqWf b
  | .authNonce b => reqWf b
  | .auth b => reqWf b
  | .authLockoutExpiry => true
  | .release b => reqWf b
  | .enrollKey b => reqWf b
  | .revokeKey b => reqWf b
  | .stageFirmware b => reqWf b
  | .advanceSvn b => reqWf b
  | .clearStartFail b => reqWf b
  | .resetModule b => reqWf b
  | .auditRead b => reqWf b
  | .auditCheckpoint b => reqWf b
  | .debugNonce b => reqWf b
  | .debugUnlock b => reqWf b
  | .getCerts _ _ => true
  | .attest n => decide (n.length = 48)
  | .smbusBlockRead c => fits8 c
  | .jtagBoundaryInstruction _ => true
  | .jtagPrivateSession s _ => fits32 s
  | .commit _ _ => true
  | .ringEnable r => match r with
    | .sq k => isRing k
    | .cq => true
    | .eq => true
  | .ringDisable r => isRing r
  | .severityMapWrite w _ => decide (w < 10)
  | .clearSticky => true
  | .cancelClear => true
  | .splitWrite => true
  | .snooperRunWrite n _ => decide (n < 127)
  | .registerWrite o n _ => decide (o < 0x200000) && decide (n = 4 ∨ n = 8)
  | .installerFieldFlashWrite _ => true
  | .hostMemRead d _ _ _ => decide (d < 2)
  | .hostMemWrite d _ _ => decide (d < 2)
  | .hostSnoop l => decide (l % 64 = 0)
  | .bisnpResponse l m => decide (l % 64 = 0) && (match m with
    | some b => decide (b.length = 64)
    | none => true)
  | .powerOn _ => true
  | .inputShutdown => true
  | .perstAssert => true
  | .perstDeassert => true
  | .cxlLinkLoss => true
  | .cxlLinkTrained _ _ => true
  | .refclkLoss => true
  | .thermTripInput => true
  | .thermTripRelease _ => true
  | .stretchUpdate t => decide (t.cdTemp.length = 16) && decide (t.bdTemp.length = 16) && decide (t.mdTemp.length = 8)
  | .moduleReset c => decide (1 ≤ c ∧ c ≤ 6)
  | .startStageDone _ _ => true
  | .startStageTimeout _ u _ => fits16 u
  | .managementWatchdog => true
  | .controlCoreWatchdog c p => decide (c < 64) && fits64 p
  | .controlCoreRestartDone c => decide (c < 64)
  | .controlCoreRestartTimeout c => decide (c < 64)
  | .restartQuietExpiry c => decide (c < 64)
  | .slotTick => true
  | .opAbandon p k a n _ => p.wf && (k.dest a n).wf
  | .fMm c h a => isCore c && h.wf && a.wf
  | .bMmIg c h a => isCore c && h.wf && a.wf
  | .bMmWg c h a => isCore c && h.wf && a.wf
  | .drainCfg c h k => isCore c && h.wf && fits16 k
  | .drain c h e b f n => isCore c && h.wf && decide (e < 5) && decide (b < 2) && fits32 f && fits16 n
  | .convert c h t f n => isCore c && h.wf && isTensor t && fits32 f && fits16 n
  | .stashPut c h a => isCore c && h.wf && a.wf
  | .stashGet c h a => isCore c && h.wf && a.wf
  | .spill c h a _ => isCore c && h.wf && a.wf
  | .linkSend c h e t f n => isCore c && h.wf && decide (e < 84) && isTensor t && fits32 f && fits16 n
  | .linkReduce c h n => isCore c && h.wf && decide (n < 2 ^ 24)
  | .nodeAdd c h n => isCore c && h.wf && decide (n < 2 ^ 24)
  | .tokenWait c h t n => isCore c && h.wf && decide (t < 1024) && fits16 n
  | .tokenWaitTimeout c => isCore c
  | .tokenSignal c h d t _ => isCore c && h.wf && decide (d < 16) && decide (t < 1024)
  | .tokenIncrementArrival d t => decide (d < 16) && decide (t < 1024)
  | .recomputeAlt c h f m n => isCore c && h.wf && decide (f < 4096) && decide (m < 16) && fits16 n
  | .suspendPoint c h n => isCore c && h.wf && fits16 n
  | .update u h a => decide (u < 24) && h.wf && a.wf
  | .loop p h _ n k => p.wf && h.wf && decide (1 ≤ n ∧ n < 2 ^ 24) && decide (-2 ^ 31 ≤ k ∧ k < 2 ^ 31)
  | .endloop p => p.wf
  | .tileRecompute c => isCore c
  | .verdictFix => true
  | .pour => true
  | .pourStepDone => true
  | .pourSyncInEdge _ _ => true
  | .masterSyncPulse => true
  | .syncWaitExpiry => true
  | .fenceClockStop u => fits16 u
  | .fencePowerGate u => fits16 u
  | .cdcHandshakeTimeout a b r => fits16 a && fits16 b && r.wf
  | .remoteRegisterReadTimeout o => decide (o < 0x200000)
  | .linkCrcFail e => decide (e < 84)
  | .linkRetrainDone l _ => decide (l < 42)
  | .channelPhyRetrainDone n => decide (n < 128)
  | .copyChunkDone r t => isRing r && fits32 t
  | .skimChunkDone r t => isRing r && fits32 t
  | .fleetUplink t => isTensor t
  | .fleetMessageAccept _ _ => true
  | .fleetReduceTile _ => true
  | .fleetWriteFailed r => decide (r < 4096)
  | .fleetStatusFreeze => true
  | .fleetDeadlineExpiry => true
  | .fleetVerdictEnd => true
  | .hostAccessResponse _ _ => true
  | .contextTransferDone r t => isRing r && fits32 t
  | .tripTemperatureReached u => fits16 u
  | .refreshWindowEnd _ u b => fits16 u && fits16 b
  | .flashWritesAcceptedAgain => true
  | .doeDiscovery => true
  | .cdatTableAccess => true
  | .hdmDecoderProgram d b => decide (d < 2) && fits64 b
  | .smbusOtherCommand => true

end Sys2Proof
end

