-- ==== Sys2Proof/Certificates/Slice0/Obligations.lean ====
section
/-! DEFINITION. The statements for the provers. The next state of a command is written `s.done x`: x is the command's effect,
and `done` adds what is due at the end of a command and keeps the queue. Whatever x does not name is unchanged: the equation is
the frame. -/

open Sys2Proof
open Sys2Proof.Machine

/-! ## The machine -/

/-- A step runs the command at the front of the queue on the state with the rest of the queue. -/
def Obligations.StepRunsTheFrontCommand : Prop :=
  ∀ (c : Instr) (rest : List Instr) (s : State), step { s with pending := c :: rest } = exec c { s with pending := rest }

/-- The queue is first in, first out: a step takes exactly its front; on an empty queue the block idles, the model's choice (log 3). -/
def Obligations.StepTakesTheQueueInOrder : Prop :=
  (∀ s : State, s.pending = [] → step s = .next s) ∧ ∀ s t : State, step s = .next t → t.pending = s.pending.tail

/-- Every command answers a next state; only an input above the absolute maximum of R420, where the spec says that the module
may be damaged, stops the model. -/
def Obligations.OnlyTheInputLimitStops : Prop :=
  ∀ (c : Instr) (s : State),
    ((∀ v, c = .powerOn v → v ≤ 600) → ∃ t, exec c s = .next t) ∧
    (∀ v, 600 < v → exec (.powerOn v) s = .fault (.inputDamage v))

/-- The end of a command: with nothing due the state stands as the effect left it; an S5 event resets the module with cause
0x02 and its record (R338). -/
def Obligations.EndOfCommand : Prop :=
  (∀ s x : State, x.calm = true → s.done x = { x with pending := s.pending }) ∧
  (∀ (s x : State) (b : List Byte), x.events.resetDue = some b → s.done x = { x.moduleReset 0x02 b with pending := s.pending })

/-- No fuse is ever cleared, whatever command runs (R368). -/
def Obligations.NoFuseIsCleared : Prop := ∀ s t : State, step s = .next t → s.fuses.kept t.fuses

/-- Every step keeps memory in its canonical form. -/
def Obligations.MemoryStaysCanonical : Prop := ∀ s t : State, s.memOk = true → step s = .next t → t.memOk = true

/-- Memory is in canonical form after reset, and every byte of it reads 0 (log 9). -/
def Obligations.ResetMemoryReadsZero : Prop :=
  State.reset.memOk = true ∧ ∀ a n : Nat, State.reset.peek a n = zeros n

/-- What the registers read after power-on reset: the reset values of the register tables. -/
def Obligations.ResetRegisterValues : Prop :=
  State.reset.readReg 0x1018 = 32768 ∧ State.reset.readReg 0x1028 = 0 ∧ State.reset.readReg 0x1030 = 0 ∧
  State.reset.readReg 0x1100 = 0x01 ∧
  (∀ r < 8, State.reset.readReg (0x2000 + 32 * r) = 0 ∧ State.reset.readReg (0x2008 + 32 * r) = 6) ∧
  State.reset.readReg 0x2108 = 6 ∧ State.reset.readReg 0x2118 = 6 ∧ State.reset.readReg 0x2120 = 0 ∧
  State.reset.readReg 0x2128 = 50 ∧
  State.reset.readReg 0x3000 = 1024 * 16 ∧ State.reset.readReg 0x3008 = 65536 + 256 * 2 ^ 20 ∧
  State.reset.readReg 0x40F8 = 0 ∧ State.reset.readReg 0x8000 = 65536 ∧
  State.reset.readReg 0xA000 = 1250 ∧ State.reset.readReg 0xA008 = 100 + 92 * 2 ^ 8 + 95 * 2 ^ 16 + 95 * 2 ^ 24 ∧
  (∀ n < 127, State.reset.readReg (0x10000 + 64 * n) = 0)

/-! ## The rings -/

/-- Every well-formed ring command is what the decoder reads from the descriptor that encodes it, with every operand, on every
ring that takes its opcode. -/
def Obligations.DescriptorRoundTrip : Prop :=
  ∀ (i : Instr) (c : Rc) (opc head : Nat), rcOf i = some c → opcodeOf i = some opc → i.wf = true → ringAccepts c.ring opc = true →
    (encodeDesc i c opc).length = 64 ∧
    decodeDesc c.ring head (encodeDesc i c opc) = { cmd := some i, opc := opc, rc := c, sqHead := head }

/-- A ring command on a ring that does not take its opcode completes with ST_DESC_INVALID, and one whose ring has not the role that
it needs with ST_RIGHTS; neither changes anything else (R292, R295, R297). -/
def Obligations.WrongRingOrRoleIsRefused : Prop :=
  ∀ (i : Instr) (c : Rc) (opc : Nat) (s : State), rcOf i = some c → opcodeOf i = some opc → s.ready c = true →
    s.tablesHold opc = false →
    (ringAccepts c.ring opc = false → exec i s = .next (s.done (s.complete c opc (s.headOf c) stInvalid 0 0))) ∧
    (ringAccepts c.ring opc = true → (s.ring c.ring).role < roleNeeded s.regs.policy opc →
      exec i s = .next (s.done (s.complete c opc (s.headOf c) stRights 0 0)))

/-- A ring command that cannot be dispatched yet, or that changes translation tables which a copy uses (R260; log 155), waits behind what its
ring has already fetched; without a link, or on a disabled ring, there is no such command (R293, R294; log 11). -/
def Obligations.BlockedCommandWaitsInOrder : Prop :=
  ∀ (i : Instr) (c : Rc) (opc : Nat) (s : State), rcOf i = some c → opcodeOf i = some opc →
    ((s.fullLink && (s.ring c.ring).enable) = true → (s.ready c = false ∨ s.tablesHold opc = true) →
      exec i s = .next (s.done (s.setRing c.ring fun q => { q with fetched := q.fetched ++
        [{ cmd := if ringAccepts c.ring opc then some i else none, opc := opc, rc := c, sqHead := s.headOf c }] }))) ∧
    ((s.fullLink && (s.ring c.ring).enable) = false → exec i s = .next (s.done s))

/-- A completion record goes out at once when the completion ring takes it: 32 bytes at the tail with every field at its place,
the ring's tail moves on, and the vector is signalled if IRQ is set (R291, R296, R309). -/
def Obligations.CompletionRecordIsWritten : Prop :=
  ∀ (s : State) (c : Rc) (opc head st d0 d1 : Nat), s.port.cqHeld = [] → s.canWrite s.port.cq = true →
    let b := (completionOf c opc head st d0 d1).enc s.port.cq.phase
    let w := s.sendHost (s.port.cq.base + 32 * s.port.cq.tail) b
    let t : State := { w with port := { w.port with cq := s.port.cq.advance } }
    s.complete c opc head st d0 d1 = (if c.irq then t.signal c.vector else t) ∧
    b.length = 32 ∧ u b 0 4 = c.tag % 2 ^ 32 ∧ u b 4 1 = st % 256 ∧ u b 5 1 = opc % 256 ∧
    u b 6 1 = c.ring % 8 + 8 ∧ u b 7 1 = (if s.port.cq.phase then 128 else 0) ∧ u b 8 2 = head % 2 ^ 16 ∧ u b 10 2 = 0 ∧
    u b 12 8 = d0 % 2 ^ 64 ∧ u b 20 8 = d1 % 2 ^ 64 ∧ u b 28 4 = 0

/-- While the completion ring takes no record, records are held in order, none is written, and the ring whose record is held
dispatches nothing (R296). -/
def Obligations.FullCompletionRingHoldsRecords : Prop :=
  ∀ (s : State) (c : Rc) (opc head st d0 d1 : Nat), s.canWrite s.port.cq = false →
    s.complete c opc head st d0 d1 =
      { s with port := { s.port with cqHeld := s.port.cqHeld ++ [completionOf c opc head st d0 d1] } } ∧
    (s.complete c opc head st d0 d1).canDispatch c = false

/-- NOP, ACK_EVENT, SET_SEVERITY, FENCE_UNIT and FLEET_LEAVE, accepted: the effect of each, and its record with ST_OK (R299,
R303, R313, R333, R335, R343, R387). -/
def Obligations.ShortCommandsComplete : Prop :=
  ∀ (s : State) (c : Rc),
    (s.accepts (.nop c) c 0x00 = true →
      exec (.nop c) s = .next (s.done ((s.countCommand c.ring 0x00).complete c 0x00 (s.headOf c) stOk 0 0))) ∧
    (∀ seq, s.accepts (.ackEvent c seq) c 0x24 = true →
      exec (.ackEvent c seq) s = .next (s.done (State.complete
        { s.countCommand c.ring 0x24 with events := { s.events with
            outstanding := s.events.outstanding.filter fun e => e.seq ≠ seq, halts := s.events.halts.filter fun q => q ≠ seq } }
        c 0x24 (s.headOf c) stOk 0 0))) ∧
    (∀ code sev, s.accepts (.setSeverity c code sev) c 0x23 = true → s.audit.flashOk = true →
      exec (.setSeverity c code sev) s = .next (s.done (State.complete
        { s.logged c 0x13 (natLe 1 code ++ natLe 1 (s.sevLast code) ++ natLe 1 sev) with
          events := { s.events with sevSet := put s.events.sevSet code sev } }
        c 0x23 (s.headOf c) stOk (s.sevLast code) 0))) ∧
    (∀ unit, s.accepts (.fenceUnit c unit) c 0x21 = true → s.audit.flashOk = true →
      exec (.fenceUnit c unit) s = .next (s.done (State.complete
        (let w := s.logged c 0x14 (natLe 2 unit ++ [0])
         if !s.running then w.fenceStart unit 0
         else if s.pastVerdict then { w with fences := { s.fences with later := s.fences.later ++ [(unit, 0)] } }
         else { w with fences := { s.fences with due := s.fences.due ++ [(unit, 0)] } })
        c 0x21 (s.headOf c) stOk 0 0))) ∧
    (s.accepts (.fleetLeave c) c 0x41 = true → s.audit.flashOk = true →
      exec (.fleetLeave c) s = .next (s.done (State.complete
        { s.logged c 0x45 (natLe 4 c.tag ++ zeros 4 ++ natLe 8 s.heat.heatNum) with
          fleet := { s.fleet with member := none, exch := exch0, left := s.fleet.member.or s.fleet.left } }
        c 0x41 (s.headOf c) stOk 0 0)))

/-- COPY, GATHER, SCATTER, FILL, SKIM and LOAD_PATTERN, accepted: the operation is outstanding, and what it needs first is read
from host memory (R294, R303, R234). -/
def Obligations.LongCommandsBegin : Prop :=
  ∀ (s : State) (c : Rc),
    let copyOp (opc src dst list n : Nat) (perm : List Nat) (host : Bool) : Op := s.newOp c opc (s.headOf c) (.copy
      { opc := opc, srcIova := src, dstIova := dst, perm := perm, list := list, entries := n, inHost := host, src := [], dst := [],
        units := [], haveLst := false, pos := 0, moved := 0, bad := 0, ladle := 40, leafs := [] })
    let asked (opc src dst : Nat) (o : Op) : State :=
      (State.hostRead { s.countCommand c.ring opc with ops := s.ops ++ [o] } src 128 (.copySrc c.ring o.id)).hostRead dst 128
        (.copyDst c.ring o.id)
    (∀ src dst perm, s.accepts (.copy c src dst perm) c 0x10 = true →
      exec (.copy c src dst perm) s = .next (s.done (asked 0x10 src dst (copyOp 0x10 src dst 0 0 perm false)))) ∧
    (∀ src dst perm list n host, s.accepts (.gather c src dst perm list n host) c 0x11 = true →
      exec (.gather c src dst perm list n host) s = .next (s.done (asked 0x11 src dst (copyOp 0x11 src dst list n perm host)))) ∧
    (∀ src dst perm list n host, s.accepts (.scatter c src dst perm list n host) c 0x12 = true →
      exec (.scatter c src dst perm list n host) s = .next (s.done (asked 0x12 src dst (copyOp 0x12 src dst list n perm host)))) ∧
    (∀ a, s.accepts (.fill c a) c 0x13 = true →
      exec (.fill c a) s = .next (s.done
        (let o := s.newOp c 0x13 (s.headOf c) (.fill { args := a, dst := [], pos := 0, written := 0, ladle := 40 })
         State.hostRead { s.countCommand c.ring 0x13 with ops := s.ops ++ [o] } a.dst 128 (.copyDst c.ring o.id)))) ∧
    (∀ base len summary, s.accepts (.skim c base len summary) c 0x20 = true →
      exec (.skim c base len summary) s = .next (s.done
        { s.countCommand c.ring 0x20 with
          regs := { s.regs with skimActive := true, skimChunks := 0 },
          ops := s.ops ++ [s.newOp c 0x20 (s.headOf c) (.skim
            { base := base, length := len, summary := summary, pos := 0, chunks := 0, read := 0, fixed := 0, bad := 0, addr := 0,
              back := 0, skipped := 0, fails := [], ending := none, noSram := s.running })] })) ∧
    (∀ image len fresh, s.accepts (.loadPattern c image len fresh) c 0x01 = true → s.audit.flashOk = true →
      exec (.loadPattern c image len fresh) s = .next (s.done
        (let o := s.newOp c 0x01 (s.headOf c) (.load image len fresh (s.ring c.ring).role)
         State.hostRead { s with ops := s.ops ++ [o] } image len (.image c.ring o.id))))

/-- BIND_TENSORS, QUERY and FLEET_JOIN, accepted: the list or table is read from host memory, or the record is written to it, and
the ring dispatches nothing until the host has answered (R294, R301, R307, R314). -/
def Obligations.HostBoundCommandsBegin : Prop :=
  ∀ (s : State) (c : Rc),
    (∀ list n, s.accepts (.bindTensors c list n) c 0x02 = true →
      exec (.bindTensors c list n) s = .next (s.done
        (((s.countCommand c.ring 0x02).setRing c.ring fun q => { q with busy := true }).hostRead list (160 * n)
          (.bindList c n (s.headOf c))))) ∧
    (∀ code target out len, s.accepts (.query c code target out len) c 0x22 = true →
      exec (.query c code target out len) s = .next (s.done
        (let w := s.countCommand c.ring 0x22
         let b := (w.queryRecord code target).take len
         if b = [] then w.complete c 0x22 (s.headOf c) stOk 0 0
         else (w.setRing c.ring fun q => { q with busy := true }).hostWrite out b (.queryOut c b.length (s.headOf c))))) ∧
    (∀ a, s.accepts (.fleetJoin c a) c 0x40 = true → s.audit.flashOk = true →
      exec (.fleetJoin c a) s = .next (s.done
        (((s.logged c 0x44 (natLe 4 c.tag ++ zeros 4 ++ natLe 8 s.heat.heatNum)).setRing c.ring fun q => { q with busy := true }).hostRead
          a.peers (32 * a.size) (.peerTable c a (s.headOf c)))))

/-- RUN_HEATS, accepted: its placement is applied, the operation stands before its first ADMIT with the policy it resolved to, the
seed block and the first heat-list entry are read, and what the host holds of the plan is invalidated (R236, R290, R300, R304). -/
def Obligations.RunHeatsBegins : Prop :=
  ∀ (s : State) (c : Rc) (a : RunArgs), s.accepts (.runHeats c a) c 0x03 = true → s.audit.flashOk = true →
    ∃ j : Job, exec (.runHeats c a) s = .next (s.done
        (let w := (s.logged c 0x41 (natLe 4 c.tag ++ zeros 4 ++ natLe 8 s.heat.heatNum)).replacePattern
         let w : State := { w with heat := { w.heat with job := some j } }
         let w := if a.seeds = 0 then w else w.hostRead a.seeds 32 .seedBlock
         (w.hostRead a.heatList 144 (.heatEntry 0)).invalidatePlan)) ∧
      j.ring = c.ring ∧ j.tag = c.tag ∧ j.irq = c.irq ∧ j.vector = c.vector ∧ j.sqHead = s.headOf c ∧ j.args = policyOf a ∧
      j.phase = .start ∧ j.h = 0 ∧ j.disposed = 0 ∧ j.attempt = 0 ∧ j.seedsReady = decide (a.seeds = 0) ∧
      j.endStatus = none ∧ j.suspend = false ∧ j.cancel = false

/-- SAVE_CONTEXT and RESTORE_CONTEXT, accepted: the image of the committed state goes out, or the image is read (R306). -/
def Obligations.ContextCommandsBegin : Prop :=
  ∀ (s : State) (c : Rc) (p : Pattern) (area len : Nat) (host : Bool), s.heat.pattern = some p → s.audit.flashOk = true →
    (s.accepts (.saveContext c area len host) c 0x07 = true →
      exec (.saveContext c area len host) s = .next (s.done
        (let r := (s.logged c 0x42 (natLe 4 c.tag ++ zeros 4 ++ natLe 8 s.heat.heatNum)).contextImage p
         let o := s.newOp c 0x07 (s.headOf c) (.context { save := true, area := area, length := len, host := host, image := r.1.1, bad := trueAt r.1.2, done := !host })
         let w : State := { r.2 with ops := r.2.ops ++ [o] }
         if host then w.hostWrite area r.1.1 (.context c.ring o.id) else w))) ∧
    (s.accepts (.restoreContext c area len host) c 0x08 = true →
      exec (.restoreContext c area len host) s = .next (s.done
        (let o := s.newOp c 0x08 (s.headOf c) (.context { save := false, area := area, length := len, host := host, image := [], bad := [], done := !host })
         let w : State := { s.logged c 0x43 (natLe 4 c.tag ++ zeros 4 ++ natLe 8 s.heat.heatNum) with ops := s.ops ++ [o] }
         if host then w.hostRead area len (.context c.ring o.id) else w)))

/-- SUSPEND, RESUME and CANCEL on the RUN_HEATS operation that their RING and TAG name: the command's own record first, then a
suspension at the next point, the operation's resumption, or its end (R37, R308). -/
def Obligations.ControlOfRunHeats : Prop :=
  ∀ (s : State) (c : Rc) (j : Job) (ring tag : Nat), s.heat.job = some j → j.ring = ring → j.tag = tag → s.targets ring tag = 1 →
    (s.accepts (.suspend c ring tag) c 0x04 = true → j.phase ≠ .suspended → j.cancel = false → j.endStatus ≠ some stCancelled →
      exec (.suspend c ring tag) s = .next (s.done
        (let w := (s.countCommand c.ring 0x04).complete c 0x04 (s.headOf c) stOk 0 0
         let w : State := { w with heat := { w.heat with job := some { j with suspend := true, urgent := j.urgent || c.urgent } } }
         if j.phase = .waitSync then w.setSync fun y => { y with forced := true } else w))) ∧
    (s.accepts (.resume c ring tag) c 0x05 = true → j.phase = .suspended →
      exec (.resume c ring tag) s = .next (s.done
        (let w := (s.countCommand c.ring 0x05).complete c 0x05 (s.headOf c) stOk 0 0
         State.invalidatePlan { w with heat := { w.heat with job := some { j with phase := .start } } }))) ∧
    (s.accepts (.resume c ring tag) c 0x05 = true → j.phase ≠ .suspended → j.suspend = true →
      exec (.resume c ring tag) s = .next (s.done
        (let w := (s.countCommand c.ring 0x05).complete c 0x05 (s.headOf c) stOk 0 0
         { w with heat := { w.heat with job := some { j with suspend := false, urgent := false } } }))) ∧
    (s.accepts (.cancel c ring tag) c 0x06 = true → j.phase = .suspended →
      exec (.cancel c ring tag) s = .next (s.done
        (State.endJob ((s.countCommand c.ring 0x06).complete c 0x06 (s.headOf c) stOk 0 0) stCancelled))) ∧
    (s.accepts (.cancel c ring tag) c 0x06 = true → j.phase ≠ .suspended → s.pastCommit j = false →
      exec (.cancel c ring tag) s = .next (s.done
        (let w := (s.countCommand c.ring 0x06).complete c 0x06 (s.headOf c) stOk 0 0
         { w with heat := { w.heat with job := some { j with suspend := false, urgent := false, cancel := true } } }))) ∧
    (s.accepts (.cancel c ring tag) c 0x06 = true → j.phase ≠ .suspended → s.pastCommit j = true →
      exec (.cancel c ring tag) s = .next (s.done
        (let w := (s.countCommand c.ring 0x06).complete c 0x06 (s.headOf c) stOk 0 0
         let w : State := { w with heat := { w.heat with job := some { j with
           suspend := false, urgent := false, endStatus := some (j.endStatus.getD stCancelled) } } }
         if j.phase = .waitSync then w.setSync fun y => { y with forced := true } else w)))

/-- SUSPEND, RESUME and CANCEL on a chunked operation with a chunk under way: it stops, goes on, or ends at the chunk's boundary;
a suspended one resumes or ends at once. Every other target is refused with ST_DESC_INVALID (R303, R308). -/
def Obligations.ControlOfChunkedOperations : Prop :=
  ∀ (s : State) (c : Rc) (ring tag : Nat),
    (∀ o, s.findTag ring tag = some o → s.targets ring tag = 1 → s.targetsJob ring tag = false → isSuspendable o.opc = true →
      (s.accepts (.suspend c ring tag) c 0x04 = true → o.state = .running → o.cancel = false → o.idle = false →
        exec (.suspend c ring tag) s = .next (s.done
          (((s.countCommand c.ring 0x04).complete c 0x04 (s.headOf c) stOk 0 0).setOp { o with state := .suspendPending }))) ∧
      (s.accepts (.resume c ring tag) c 0x05 = true → o.state = .suspendPending →
        exec (.resume c ring tag) s = .next (s.done
          (((s.countCommand c.ring 0x05).complete c 0x05 (s.headOf c) stOk 0 0).setOp { o with state := .running }))) ∧
      (∀ f, s.accepts (.resume c ring tag) c 0x05 = true → o.state = .suspended → o.body = .fill f →
        exec (.resume c ring tag) s = .next (s.done
          (((s.countCommand c.ring 0x05).complete c 0x05 (s.headOf c) stOk 0 0).setOp { o with state := .running }))) ∧
      (s.accepts (.cancel c ring tag) c 0x06 = true → o.state = .suspended →
        exec (.cancel c ring tag) s = .next (s.done
          (((s.countCommand c.ring 0x06).complete c 0x06 (s.headOf c) stOk 0 0).endOp o stCancelled))) ∧
      (s.accepts (.cancel c ring tag) c 0x06 = true → o.state = .running → o.idle = false →
        exec (.cancel c ring tag) s = .next (s.done
          (((s.countCommand c.ring 0x06).complete c 0x06 (s.headOf c) stOk 0 0).setOp { o with cancel := true })))) ∧
    (s.targets ring tag ≠ 1 →
      (s.accepts (.suspend c ring tag) c 0x04 = true →
        exec (.suspend c ring tag) s = .next (s.done ((s.countCommand c.ring 0x04).complete c 0x04 (s.headOf c) stInvalid 0 0))) ∧
      (s.accepts (.resume c ring tag) c 0x05 = true →
        exec (.resume c ring tag) s = .next (s.done ((s.countCommand c.ring 0x05).complete c 0x05 (s.headOf c) stInvalid 0 0))) ∧
      (s.accepts (.cancel c ring tag) c 0x06 = true →
        exec (.cancel c ring tag) s = .next (s.done ((s.countCommand c.ring 0x06).complete c 0x06 (s.headOf c) stInvalid 0 0))))

/-- Submission: a doorbell value below the entry count is the new tail of a ring that is on, and any other is ignored and counted in its
doorbell-error field, on a ring that is off as well (log 52); the module then fetches, one after another, the 64-byte descriptors from
its head up to that tail; a ring that is off, or without a link, takes no tail (R293, R294). -/
def Obligations.DoorbellSubmitsDescriptors : Prop :=
  ∀ (s : State) (r : Nat), let q := s.ring r
    (∀ value, s.fullLink = false → exec (.submissionDoorbell r value) s = .next (s.done s)) ∧
    (∀ value, s.fullLink = true → q.enable = false → value < 2 ^ q.log2 → exec (.submissionDoorbell r value) s = .next (s.done s)) ∧
    (∀ value, s.fullLink = true → q.enable = true → value < 2 ^ q.log2 →
      exec (.submissionDoorbell r value) s = .next (s.done ((s.setRing r fun q => { q with tail := value }).fetchNext r))) ∧
    (∀ value, s.fullLink = true → 2 ^ q.log2 ≤ value →
      exec (.submissionDoorbell r value) s = .next (s.done (s.setRing r fun q => { q with dbErr := min (q.dbErr + 1) 65535 }))) ∧
    (q.enable = true → q.fetching = false → q.fetched = [] → q.head ≠ q.tail →
      s.fetchNext r = (s.setRing r fun q => { q with fetching := true }).hostRead (q.base + 64 * q.head) 64 (.descriptor r)) ∧
    ((q.enable = false ∨ q.fetching = true ∨ q.fetched ≠ [] ∨ q.head = q.tail) → s.fetchNext r = s)

/-- DESCRIPTOR_DISPATCH: the oldest fetched command of a ring that can dispatch it leaves the ring and runs; one whose descriptor
was not valid completes with ST_DESC_INVALID; then the next descriptor is fetched. A ring with nothing fetched fetches, and one that
cannot dispatch, or whose command must wait for a copy (R260; log 155), keeps it (R294, R297). -/
def Obligations.DispatchTakesTheOldest : Prop :=
  ∀ (s : State) (r : Nat), s.fullLink = true →
    ((s.ring r).fetched = [] → exec (.descriptorDispatch r) s = .next (s.done (s.fetchNext r))) ∧
    (∀ f rest, (s.ring r).fetched = f :: rest → s.canDispatch f.rc = true → s.tablesHold f.opc = false →
      let w := s.setRing r fun q => { q with fetched := rest }
      (f.cmd = none → exec (.descriptorDispatch r) s = .next (s.done ((w.complete f.rc f.opc f.sqHead stInvalid 0 0).fetchNext r))) ∧
      (∀ i, f.cmd = some i → exec (.descriptorDispatch r) s = .next (s.done ((w.dispatchCmd i f.rc f.opc f.sqHead).fetchNext r)))) ∧
    (∀ f rest, (s.ring r).fetched = f :: rest → (s.canDispatch f.rc = false ∨ s.tablesHold f.opc = true) → exec (.descriptorDispatch r) s = .next (s.done s))

/-- The head doorbells of the two record rings: the records before the new head are free, held records follow in order, and an
index that is not below the entry count is ignored (R296). -/
def Obligations.HeadDoorbellsFreeRecords : Prop :=
  ∀ (s : State) (value : Nat), s.fullLink = true →
    (s.port.cq.enable = true → value < 2 ^ s.port.cq.log2 →
      exec (.completionHeadDoorbell value) s =
        .next (s.done (State.flushCq { s with port := { s.port with cq := s.port.cq.free value } } s.port.cqHeld.length))) ∧
    (s.port.cq.enable = true → 2 ^ s.port.cq.log2 ≤ value → exec (.completionHeadDoorbell value) s = .next (s.done s)) ∧
    (s.port.eq.enable = true → value < 2 ^ s.port.eq.log2 →
      exec (.eventHeadDoorbell value) s =
        .next (s.done (State.flushEq { s with port := { s.port with eq := s.port.eq.free value } } s.port.eqHeld.length))) ∧
    (s.port.eq.enable = true → 2 ^ s.port.eq.log2 ≤ value → exec (.eventHeadDoorbell value) s = .next (s.done s))

/-- INTERRUPT_SEND: a due vector that has sent nothing in its window sends its message; a masked one sets its pending bit
instead; a vector that is not due does nothing (R291). -/
def Obligations.InterruptIsSentOrPended : Prop :=
  (∀ (s : State) (v : Nat), v ∉ s.port.msixDue → exec (.interruptSend v) s = .next (s.done s)) ∧
  ∀ (s : State) (v : Nat) (e : MsixEntry), s.linkLive = true → v ∈ s.port.msixDue → v ∉ s.port.msixWindow → s.port.msix[v]? = some e →
    (e.mask = false → exec (.interruptSend v) s = .next (s.done
      { s with
        port := { s.port with msixDue := s.port.msixDue.filter (· ≠ v), msixWindow := addTo s.port.msixWindow v },
        out := s.out ++ [.msi v e.addr e.data] })) ∧
    (e.mask = true → exec (.interruptSend v) s = .next (s.done
      { s with port := { s.port with msixDue := s.port.msixDue.filter (· ≠ v), msixPending := addTo s.port.msixPending v } }))

/-- HOST_ACCESS_RESPONSE with data: the access is over, its bytes pass the snooper of the host port, and they go to whoever asked
for them: a descriptor to its ring, a list or table to its command, the heat list and the seeds to the job, and images,
descriptors, lists and chunk data to their operations, and what a slot op reads to the ops that wait (R293, R298, R301, R304, R314,
R365). -/
def Obligations.HostDataGoesToItsReader : Prop :=
  ∀ (s t : State) (id : Nat) (a : HostAcc) (bytes : List Byte), s.linkLive = true → s.takeAcc id = some (a, t) → a.write = false →
    let b := slice bytes 0 a.len
    let w := t.snoop 125 a.purpose.kind 0 (addrBlocks a.iova b)
    let answer := exec (.hostAccessResponse id (.data bytes)) s
    (∀ r, a.purpose = .descriptor r →
      let head := ((w.ring r).head + 1) % 2 ^ (w.ring r).log2
      answer = .next (s.done (w.setRing r fun q =>
        { q with fetching := false, head := head, fetched := q.fetched ++ [decodeDesc r head b] }))) ∧
    (∀ c n head, a.purpose = .bindList c n head →
      answer = .next (s.done ((w.setRing c.ring fun q => { q with busy := false }).bindTable c n head b))) ∧
    (∀ c x head, a.purpose = .peerTable c x head →
      answer = .next (s.done ((w.setRing c.ring fun q => { q with busy := false }).joinTable c x head b))) ∧
    (a.purpose = .seedBlock → ∀ j, w.heat.job = some j →
      answer = .next (s.done { w with heat := { w.heat with
          seeds := [u b 0 8, u b 8 8, u b 16 8, u b 24 8]
          job := some { j with seedsReady := true } } })) ∧
    (∀ k, a.purpose = .heatEntry k → ∀ j, w.heat.job = some j →
      answer = .next (s.done { w with heat := { w.heat with
        job := some (if j.h = k then { j with entry := b } else { j with nextEntry := some b }) } })) ∧
    (∀ ring k o len fresh role iova, a.purpose = .image ring k → w.findOp ring k = some o → o.body = .load iova len fresh role →
      answer = .next (s.done (w.imageRead o len role fresh b))) ∧
    (∀ ring k o c, a.purpose = .copySrc ring k → w.findOp ring k = some o → o.body = .copy c →
      answer = .next (s.done (w.copyAccept o { c with src := b }))) ∧
    (∀ ring k o c, a.purpose = .copyDst ring k → w.findOp ring k = some o → o.body = .copy c →
      answer = .next (s.done (w.copyAccept o { c with dst := b }))) ∧
    (∀ ring k o f, a.purpose = .copyDst ring k → w.findOp ring k = some o → o.body = .fill f →
      answer = .next (s.done (w.fillAccept o { f with dst := b }))) ∧
    (∀ ring k o c, a.purpose = .gatherList ring k → w.findOp ring k = some o → o.body = .copy c →
      let d : CopyOp := { c with units := (List.range (b.length / 16)).map fun i => u b (16 * i) 16, haveLst := true }
      answer = .next (s.done (w.setOp { o with body := .copy d }))) ∧
    (∀ ring k o c, a.purpose = .context ring k → w.findOp ring k = some o → o.body = .context c →
      answer = .next (s.done (w.setOp { o with body := .context { c with image := b, done := true } }))) ∧
    (∀ ring k o c, a.purpose = .chunkLeaf ring k → w.findOp ring k = some o → o.body = .copy c →
      answer = .next (s.done (w.setOp { o with body := .copy { c with leafs := c.leafs ++ [(a.iova, b)] } }))) ∧
    (a.purpose = .leaf →
      answer = .next (s.done (State.rerunOps { w with heat := { w.heat with leafData := w.heat.leafData ++ [(a.iova, b)] } })))

/-- HOST_ACCESS_RESPONSE without data and HOST_TIMEOUT_EXPIRY: an accepted write completes the QUERY or the skim that waited for it; an
error ends what waited with ST_DESC_INVALID (an image with ST_CRC), and no answer within HOST_TIMEOUT ends it with ST_TIMEOUT: a short
command with its record, a long operation as it ends, RUN_HEATS at once before its first ADMIT and else with its heat; a slot op's access
is bounded by its slot, and an error abandons it; an id that stands for no access does nothing (R298, R303, R305, R307). -/
def Obligations.HostWritesErrorsAndTimeouts : Prop :=
  (∀ (s : State) (id : Nat), s.takeAcc id = none →
    exec (.hostTimeoutExpiry id) s = .next (s.done s) ∧ ∀ r, exec (.hostAccessResponse id r) s = .next (s.done s)) ∧
  ∀ (s t : State) (id : Nat) (a : HostAcc), s.takeAcc id = some (a, t) →
    let fails (x : Nat → State) : Prop :=
      (s.linkLive = true → exec (.hostAccessResponse id .error) s = .next (s.done (x stInvalid))) ∧
      exec (.hostTimeoutExpiry id) s = .next (s.done (x stTimeout))
    (s.linkLive = true → a.write = true →
      (∀ c len head, a.purpose = .queryOut c len head → exec (.hostAccessResponse id .accepted) s =
        .next (s.done ((t.setRing c.ring fun q => { q with busy := false }).complete c 0x22 head stOk len 0))) ∧
      (∀ ring k o x, a.purpose = .skimSummary ring k → t.findOp ring k = some o → o.body = .skim x →
        exec (.hostAccessResponse id .accepted) s = .next (s.done (t.finishOp o (x.ending.getD stOk) x.chunks 0))) ∧
      (∀ ring k o x, a.purpose = .context ring k → t.findOp ring k = some o → o.body = .context x →
        exec (.hostAccessResponse id .accepted) s = .next (s.done (t.setOp { o with body := .context { x with done := true } })))) ∧
    (∀ c n head, a.purpose = .bindList c n head →
      fails fun st => (t.setRing c.ring fun q => { q with busy := false }).complete c 0x02 head st 0 0) ∧
    (∀ c x head, a.purpose = .peerTable c x head →
      fails fun st => (t.setRing c.ring fun q => { q with busy := false }).complete c 0x40 head st 0 0) ∧
    (∀ c len head, a.purpose = .queryOut c len head →
      fails fun st => (t.setRing c.ring fun q => { q with busy := false }).complete c 0x22 head st 0 0) ∧
    (∀ ring k o, t.findOp ring k = some o →
      (a.purpose = .copySrc ring k ∨ a.purpose = .copyDst ring k ∨ a.purpose = .gatherList ring k ∨ a.purpose = .context ring k ∨
        a.purpose = .chunkLeaf ring k ∨ a.purpose = .chunkWrite ring k → fails fun st => t.endOp o st) ∧
      (a.purpose = .image ring k → fails fun st => t.endOp o (if st = stInvalid then stCorrupt else st)) ∧
      (a.purpose = .skimSummary ring k → fails fun st => t.finishOp o st (o.details t).1 0)) ∧
    (∀ j, a.purpose = .seedBlock ∨ (∃ h, a.purpose = .heatEntry h) ∨ a.purpose = .heatRecord → t.heat.job = some j →
      (j.phase = .start → t.heat.saved = none → fails fun st => t.endJob st) ∧
      ((j.phase ≠ .start ∨ t.heat.saved ≠ none) →
        fails fun st => { t with heat := { t.heat with job := some { j with endStatus := some (j.endStatus.getD st) } } })) ∧
    (∀ r, a.purpose = .descriptor r → fails fun st => t.fetchFail r st) ∧
    (a.purpose = .leaf → (s.linkLive = true → exec (.hostAccessResponse id .error) s = .next (s.done (t.leafError a.iova))) ∧
      exec (.hostTimeoutExpiry id) s = .next (s.done s)) ∧
    (∀ ev, a.purpose = .leafWrite ev → (s.linkLive = true → exec (.hostAccessResponse id .error) s = .next (s.done
        ((t.raise evXlate ev 0 (xlateData (t.leafVa a.iova) true 5)).opAbandoned ev []))) ∧
      exec (.hostTimeoutExpiry id) s = .next (s.done s))

/-! ## The mailbox and the management port -/

/-- Mailbox commands against mode and role: in crucible mode only some are taken, ST_CONFIG_INCONSISTENT for the others; below its
role a command answers ST_RIGHTS; a refused command has no other effect (R379, R386). -/
def Obligations.MailboxRefusesByModeAndRole : Prop :=
  ∀ (s : State) (req : List Byte), s.mailboxOpen req = true →
    ∀ e ∈ ([(0x01, true, 0, .getIdentity req), (0x02, true, 0, .authNonce req), (0x03, true, 0, .auth req),
            (0x04, true, 1, .release req), (0x10, false, 0, .enrollKey req), (0x11, false, 2, .revokeKey req),
            (0x20, true, 2, .stageFirmware req), (0x21, false, 2, .advanceSvn req), (0x22, true, 2, .clearStartFail req),
            (0x23, true, 2, .resetModule req), (0x30, true, 1, .auditRead req), (0x31, false, 1, .auditCheckpoint req),
            (0x40, false, 0, .debugNonce req), (0x41, false, 0, .debugUnlock req)] : List (Nat × Bool × Nat × Instr)),
      (s.inCrucible = true → e.2.1 = false →
        exec e.2.2.2 s = .next (s.done ((s.takeRequest e.1 req).respond stConfig []))) ∧
      ((s.inCrucible = false ∨ e.2.1 = true) → s.mbx.session < e.2.2.1 →
        exec e.2.2.2 s = .next (s.done ((s.takeRequest e.1 req).respond stRights [])))

/-- GET_IDENTITY, AUTH_NONCE, DEBUG_NONCE, AUDIT_READ and AUDIT_CHECKPOINT: what each answers, and the nonce or checkpoint that it
makes (R382, R383, R386, R388, R392, R416). -/
def Obligations.MailboxQueriesAnswer : Prop :=
  ∀ (s : State) (req : List Byte), s.mailboxOpen req = true →
    exec (.getIdentity req) s = .next (s.done ((s.takeRequest 0x01 req).respond stOk s.identity)) ∧
    (let v := natBe 48 (Config.nonce s.freeCtr).toNat
     let w := s.takeRequest 0x02 req
     exec (.authNonce req) s =
       .next (s.done (State.respond { w with freeCtr := s.freeCtr + 1, mbx := { w.mbx with authNonce := some v } } stOk v))) ∧
    (s.inCrucible = false →
      let v := natBe 48 (Config.nonce s.freeCtr).toNat
      let w := s.takeRequest 0x40 req
      exec (.debugNonce req) s =
        .next (s.done (State.respond { w with freeCtr := s.freeCtr + 1, mbx := { w.mbx with debugNonce := some v } } stOk v))) ∧
    (1 ≤ s.mbx.session → 9 ≤ req.length → u req 8 1 = 0 →
      exec (.auditRead req) s = .next (s.done ((s.takeRequest 0x30 req).respond stOk
        ((s.audit.entries.filter fun e => u req 0 8 ≤ u e 0 8).take 31).flatten))) ∧
    (1 ≤ s.mbx.session → 9 ≤ req.length → u req 8 1 = 1 →
      exec (.auditRead req) s = .next (s.done ((s.takeRequest 0x30 req).respond stOk
        ((s.audit.checkpoints.filter fun c => u req 0 8 ≤ u c 0 8).take 15).flatten))) ∧
    (s.inCrucible = false → 1 ≤ s.mbx.session → s.audit.flashOk = true →
      let c := s.checkpointBytes s.freeCtr
      let w := s.takeRequest 0x31 req
      let a := { s.audit with checkpoints := s.audit.checkpoints ++ [c] }.trim
      exec (.auditCheckpoint req) s = .next (s.done (State.respond { w with freeCtr := s.freeCtr + 1, audit := a } stOk c)))

/-- AUTH: with a fresh nonce, an enrolled key of a sufficient role, no lockout and a signature that verifies, the session and the
rings in the mask get the role; in every other case the attempt is counted, the eighth in a row locks, and ST_RIGHTS answers. The
nonce is used up. AUTH_LOCKOUT_EXPIRY ends the lockout (R383, R387, R416). -/
def Obligations.AuthGrantsOrCounts : Prop :=
  ∀ (s : State) (req : List Byte), s.mailboxOpen req = true → 128 ≤ req.length → zeroBytes req 2 14 = true →
    s.audit.flashOk = true → (u req 0 1 = 1 ∨ u req 0 1 = 2) →
    let role := u req 0 1
    let key := slice req 16 16
    let object := natLe 1 role ++ natLe 1 (u req 1 1)
    let t := s.takeRequest 0x03 req
    let w : State := { t with mbx := { t.mbx with authNonce := none } }
    let verifies (n : List Byte) (k : Key) : Bool := ecdsaVerify k.enc
      (ascii "HSAUTH01" ++ natLe 8 s.fuses.serial ++ n ++ natLe 1 role ++ natLe 1 (u req 1 1) ++ key) (slice req 32 48) (slice req 80 48)
    (∀ n k, s.mbx.authLocked = false → s.mbx.authNonce = some n → s.mbx.keys.find? (fun k => k.id = key) = some k → role ≤ k.role →
      verifies n k = true →
      exec (.auth req) s = .next (s.done (((w.grant role (u req 1 1) key).auditAppend 0x01 role stOk key object).respond stOk []))) ∧
    ((s.mbx.authLocked = true ∨ s.mbx.authNonce = none ∨ s.mbx.keys.find? (fun k => k.id = key) = none ∨
        ∃ n k, s.mbx.authNonce = some n ∧ s.mbx.keys.find? (fun k => k.id = key) = some k ∧ (k.role < role ∨ verifies n k = false)) →
      let run := s.mbx.authFailRun + 1
      let f : State := { w with mbx := { w.mbx with
        authFail := min (s.mbx.authFail + 1) (2 ^ 32 - 1), authFailRun := min run 8, authLocked := s.mbx.authLocked || decide (8 ≤ run) } }
      exec (.auth req) s = .next (s.done ((f.auditAppend 0x02 0 stRights key object).respond stRights []))) ∧
    (s.mbx.authLocked = true →
      exec .authLockoutExpiry s = .next (s.done { s with mbx := { s.mbx with authLocked := false, authFailRun := 0 } }))

/-- RELEASE, ENROLL_KEY and REVOKE_KEY: the session and roles end, a key enters a free slot of its role, the first installer key
claims the module, and a revoked key takes its session and roles with it (R382, R385, R387). -/
def Obligations.SessionsAndKeysChange : Prop :=
  ∀ (s : State) (req : List Byte), s.mailboxOpen req = true →
    (1 ≤ s.mbx.session → 2 ≤ req.length → zeroBytes req 0 1 = true →
      exec (.release req) s = .next (s.done (((s.takeRequest 0x04 req).endSession (u req 1 1)).respond stOk []))) ∧
    (s.inCrucible = false → 113 ≤ req.length → zeroBytes req 1 15 = true → s.audit.flashOk = true →
      let role := u req 0 1
      let enc := slice req 16 97
      let k : Key := { enc := enc, id := keyIdOf enc, role := role }
      (role = 1 ∨ role = 2) → (2 ≤ s.mbx.session ∨ (s.claimed = false ∧ role = 2)) → (ecDecode enc).isSome = true →
      (∀ x ∈ s.mbx.keys, x.id ≠ k.id) → (s.mbx.keys.filter fun x => x.role = role).length < (if role = 2 then 4 else 32) →
      let w := s.takeRequest 0x10 req
      let w := State.auditMbx { w with mbx := { w.mbx with keys := s.mbx.keys ++ [k] } } 0x04 stOk k.id
      let w := if s.claimed = false ∧ role = 2 then w.auditMbx 0x06 stOk k.id else w
      exec (.enrollKey req) s = .next (s.done (w.respond stOk k.id))) ∧
    (s.inCrucible = false → 2 ≤ s.mbx.session → 32 ≤ req.length → zeroBytes req 0 16 = true → s.audit.flashOk = true →
      ∀ k, s.mbx.keys.find? (fun x => x.id = slice req 16 16) = some k →
      ((k.role = 2 ∧ (s.mbx.keys.filter fun x => x.role = 2).length = 1) →
        exec (.revokeKey req) s = .next (s.done ((s.takeRequest 0x11 req).respond stConfig []))) ∧
      (¬ (k.role = 2 ∧ (s.mbx.keys.filter fun x => x.role = 2).length = 1) →
        let id := slice req 16 16
        let w := s.takeRequest 0x11 req
        let w := State.auditMbx { w with mbx := { w.mbx with keys := s.mbx.keys.filter fun x => x.id ≠ id } } 0x05 stOk id
        let w := ((List.range 8).filter fun r => (w.ring r).role ≠ 0 ∧ (w.ring r).key = id).foldl State.endRole w
        exec (.revokeKey req) s = .next (s.done ((if w.mbx.session ≠ 0 ∧ w.mbx.sessionKey = id then w.endSession 0 else w).respond stOk []))))

/-- STAGE_FIRMWARE, ADVANCE_SVN and CLEAR_START_FAIL: a chunk goes into the staging slot, whose last chunk makes it TRIAL, the only one
(log 143), or INVALID;
the SVN fuses follow the ACTIVE slot and never fall; the start-failure counter returns to 0 (R370, R371, R380). -/
def Obligations.FirmwareCommandsAct : Prop :=
  ∀ (s : State) (req : List Byte), s.mailboxOpen req = true → 2 ≤ s.mbx.session → s.audit.flashOk = true →
    (∀ (ofs len : Nat) (last : Bool), u req 0 8 = ofs → u req 8 4 = len → u req 12 1 = (if last then 1 else 0) → 1 ≤ len → len ≤ 3968 →
      128 + len ≤ req.length → ofs + len ≤ 96 * 2 ^ 20 → zeroBytes req 13 115 = true →
      let t := s.boot.staging.getD s.boot.stageTarget
      let img := patch (if s.boot.staging.isSome then (s.boot.slot t).image else []) ofs (slice req 128 len)
      let good := fwVerifies s.fuses img
      let x : FwSlot := { image := img, svn := u img 12 4, keySlot := u img 24 1, factory := false,
                          state := if !last then .empty else if good then .trial else .invalid }
      let st := if last && !good then stInvalid else stOk
      let boot := if last && good then s.boot.soleTrial t else s.boot
      let w := s.takeRequest 0x20 req
      let w := State.auditMbx { w with boot := { boot.setSlot t x with staging := if last then none else some t } } 0x20 st
        (natLe 4 t ++ natLe 4 x.svn)
      exec (.stageFirmware req) s = .next (s.done (w.respond st (natLe 8 img.length ++ (if last then natLe 1 t else []))))) ∧
    (∀ i, s.inCrucible = false → s.boot.activeSlot = some i →
      let v := max s.fuses.svn (s.boot.slot i).svn
      let w := s.takeRequest 0x21 req
      exec (.advanceSvn req) s = .next (s.done
        ((State.auditMbx { w with fuses := { s.fuses with svn := v } } 0x21 stOk (natLe 4 i ++ natLe 4 v)).respond stOk []))) ∧
    (let w := s.takeRequest 0x22 req
     exec (.clearStartFail req) s = .next (s.done
       ((State.auditMbx { w with boot := { s.boot with startFail := 0 } } 0x22 stOk []).respond stOk [])))

/-- DEBUG_UNLOCK: with the installer's consent and Holsaven's unlock, both verified, over the drawn nonce and one scope, the scope is
unlocked, and only with them; unlocking manufacturing test halts the module as an S4 event does (R337, R392). -/
def Obligations.DebugUnlockNeedsBothSignatures : Prop :=
  ∀ (s : State) (req : List Byte), s.mailboxOpen req = true → s.inCrucible = false → 404 ≤ req.length → zeroBytes req 180 12 = true →
    s.audit.flashOk = true →
    let scope := u req 64 4
    let key := slice req 68 16
    let t := s.takeRequest 0x41 req
    (s.unlockOk req = true → scope.testBit 1 = false →
      exec (.debugUnlock req) s = .next (s.done
        ((State.auditAppend { t with mbx := { t.mbx with debugScope := s.mbx.debugScope ||| scope } } 0x30 3 stOk key (natLe 4 scope)).respond
          stOk []))) ∧
    (s.unlockOk req = true → scope.testBit 1 = true →
      let w := State.haltJobs
        (State.auditAppend { t with mbx := { t.mbx with debugScope := s.mbx.debugScope ||| scope } } 0x30 3 stOk key (natLe 4 scope)) iodUnit 0
      exec (.debugUnlock req) s = .next (s.done (State.respond
        { w with events := { w.events with mfgHalt := true, halts := w.events.halts.filter fun q => q ≠ 0 } } stOk []))) ∧
    (s.unlockOk req = false →
      exec (.debugUnlock req) s = .next (s.done ((t.auditAppend 0x31 0 stRights key (natLe 4 scope)).respond stRights []))) ∧
    (let token := slice req 0 180
     let unlock := slice req 192 212
     s.unlockOk req = true ↔ ∃ n k, s.mbx.debugNonce = some n ∧ s.mbx.keys.find? (fun k => k.role = 2 ∧ k.id = slice token 68 16) = some k ∧
      slice token 0 84 = ascii "HSCONSNT" ++ natLe 8 s.fuses.serial ++ n ++ slice token 64 4 ++ k.id ∧
      slice unlock 0 116 = ascii "HSUNLOCK" ++ natLe 8 s.fuses.serial ++ n ++ slice token 64 4 ++ sha384 token ∧
      ecdsaVerify k.enc (slice token 0 84) (slice token 84 48) (slice token 132 48) = true ∧ sha384 s.boot.dbgKey = s.fuses.dbgKeyHash ∧
      ecdsaVerify s.boot.dbgKey (slice unlock 0 116) (slice unlock 116 48) (slice unlock 164 48) = true) ∧
    (s.unlockOk req = true → ∃ n k, s.mbx.debugNonce = some n ∧ k ∈ s.mbx.keys ∧ k.role = 2 ∧ k.id = slice (slice req 0 180) 68 16 ∧
      sha384 s.boot.dbgKey = s.fuses.dbgKeyHash ∧
      ecdsaVerify k.enc (slice (slice req 0 180) 0 84) (slice (slice req 0 180) 84 48) (slice (slice req 0 180) 132 48) = true ∧
      ecdsaVerify s.boot.dbgKey (slice (slice req 192 212) 0 116) (slice (slice req 192 212) 116 48) (slice (slice req 192 212) 164 48) = true)

/-- GET_CERTS, ATTEST, DOE discovery and the CDAT read answer over DOE, with no role; SMBus block reads return identity, status and
telemetry of a powered module, and every other SMBus command is not acknowledged (R285, R379, R390, R391, R433). -/
def Obligations.ManagementReadsAnswer : Prop :=
  ∀ s : State,
    (s.linkLive = true →
      (∀ ofs len, exec (.getCerts ofs len) s = .next (s.done { s with out := s.out ++ [.doe ((s.boot.certs.drop ofs).take len)] })) ∧
      (∀ nonce, exec (.attest nonce) s = .next (s.done { s with
        out := s.out ++ [.doe (s.report nonce ++ natBe 96 (Config.identitySignature s.freeCtr).toNat)], freeCtr := s.freeCtr + 1 })) ∧
      exec .doeDiscovery s = .next (s.done { s with out := s.out ++ [.doeWords
        [doeWord 0x0001 0x00 1, doeWord 0x1E98 0x02 2, doeWord Config.vendorId 0x01 0]] }) ∧
      (s.inCrucible = true → exec .cdatTableAccess s = .next (s.done { s with out := s.out ++ [.doeWords []] })) ∧
      (s.inCrucible = false →
        exec .cdatTableAccess s = .next (s.done { s with out := s.out ++ [.doeWords [Config.cdatTable 0]] }))) ∧
    (s.power.powered = true →
      exec (.smbusBlockRead 0x10) s = .next (s.done { s with out := s.out ++
        [.smbus ((List.range 5).map fun i => natLe 8 (s.readIdentity (8 * i))).flatten] }) ∧
      exec (.smbusBlockRead 0x11) s = .next (s.done { s with out := s.out ++ [.smbus (natLe 8 s.statusWord)] }) ∧
      exec (.smbusBlockRead 0x12) s = .next (s.done { s with out := s.out ++
        [.smbus ((List.range 7).map fun i => natLe 8 (s.readTelemetry (0x40 + 8 * i))).flatten] }) ∧
      (∀ c, c ≠ 0x10 → c ≠ 0x11 → c ≠ 0x12 → exec (.smbusBlockRead c) s = .next (s.done { s with out := s.out ++ [.smbusNack] })) ∧
      exec .smbusOtherCommand s = .next (s.done { s with out := s.out ++ [.smbusNack] }))

/-- JTAG: EXTEST and CLAMP take the pins, which ends the link; private instructions act as BYPASS until their scope is unlocked, and an
unlocked session is counted, audited and carried out access by access (R311, R392, R393). -/
def Obligations.JtagFollowsTheScope : Prop :=
  ∀ s : State, s.alive = true →
    (∀ clamp, exec (.jtagBoundaryInstruction clamp) s =
      .next (s.done (let w := s.linkLoss; { w with mbx := { w.mbx with jtagClamp := some clamp } }))) ∧
    (∀ scope l, scope ≠ 0 → scope &&& s.mbx.debugScope = scope → s.audit.flashOk = true →
      let w := State.auditAppend { s with mbx := { s.mbx with jtagCount := s.mbx.jtagCount + 1 } } 0x32 3 stOk [] (natLe 4 scope)
      exec (.jtagPrivateSession scope l) s = .next (s.done (if scope.testBit 0 then l.foldl State.jtagAccess w else w))) ∧
    (∀ scope l, (scope = 0 ∨ scope &&& s.mbx.debugScope ≠ scope ∨ s.audit.flashOk = false) →
      exec (.jtagPrivateSession scope l) s = .next (s.done { s with out := s.out ++ [.tdoBypass] })) ∧
    (∀ a v, s.inStores a = true → s.jtagAccess (.writeWord a v) = (s.writeMem (a / 8 * 8) (natLe 8 v.toNat)).2) ∧
    (∀ a v, s.inStores a = false → s.jtagAccess (.writeWord a v) = s)

/-! ## Power, reset, start -/

/-- POWER_ON from 43.0 V on releases PWR_GOOD and begins stage ROM. The causes of a module reset, each with its RESET_CAUSE: loss of the
input 0x01, the watchdog of the management complex 0x03 (a
failed start during one), RESET_MODULE 0x04 after its response, a thermal trip 0x05, which holds THERM_TRIP# low until it is released
and read high (R338, R373, R375, R424, R430). -/
def Obligations.ResetsHaveTheirCauses : Prop :=
  ∀ s : State,
    (∀ v, s.power.powered = false → v ≤ 600 →
      (430 ≤ v → exec (.powerOn v) s = .next (s.done { s with
        power := { power0 with rawVolt := v }, pins := { s.pins with pwrGood := true, syncOut := false, thermTrip := true },
        out := s.out ++ [.uartStage 1] })) ∧
      (v < 430 → exec (.powerOn v) s = .next (s.done s))) ∧
    (s.alive = true →
      (∀ cause, exec (.moduleReset cause) s = .next (s.done (s.moduleReset cause []))) ∧
      ((s.boot.ready || s.inCrucible) = true → exec .managementWatchdog s = .next (s.done (s.moduleReset 0x03 []))) ∧
      ((s.boot.ready || s.inCrucible) = false →
        exec .managementWatchdog s = .next (s.done ((s.noteFailure 0x04 iodUnit).moduleReset 0x03 []))) ∧
      (let t := s.moduleReset 0x05 []
       let tripped : State := { t with power := { t.power with tripHeld := true }, pins := { t.pins with thermTrip := false } }
       exec .thermTripInput s = .next (s.done tripped) ∧
       (∀ unit, s.fencedNow unit = false → exec (.tripTemperatureReached unit) s = .next (s.done tripped)) ∧
       (∀ unit, s.fencedNow unit = true → exec (.tripTemperatureReached unit) s = .next (s.done s))) ∧
      (∀ req, s.mailboxOpen req = true → 2 ≤ s.mbx.session →
        exec (.resetModule req) s = .next (s.done (State.moduleReset
          (((s.takeRequest 0x23 req).auditLate 0x23 s.mbx.session stOk s.mbx.sessionKey []).respond stOk []) 0x04 [])))) ∧
    (s.power.powered = true → s.power.tripHeld = true →
      exec (.thermTripRelease true) s = .next (s.done { s with
        power := { s.power with tripHeld := false }, pins := { s.pins with thermTrip := true }, out := s.out ++ [.uartStage 1] }) ∧
      exec (.thermTripRelease false) s = .next (s.done s)) ∧
    (s.power.powered = true →
     let off (q : Ring) : Ring := { q with role := 0 }
     let u : State := { s with port := { s.port with sq := s.port.sq.map off }, mbx := { s.mbx with session := 0 } }
     let t := u.moduleReset 0x01 []
     exec .inputShutdown s = .next (s.done { t with
       power := { t.power with powered := false, rawVolt := 0, tripHeld := false },
       pins := { t.pins with pwrGood := false, syncOut := false, thermTrip := true } }))

/-- A module reset keeps the fuses and what management flash holds, and nothing else of the machine: firmware slots and the
start-failure counter, the keys, the audit log, and the flash fields stand; every other group is as after power-on, at stage ROM
(R338, R375, R376, R396, R408). -/
def Obligations.ResetKeepsFlashAndFuses : Prop :=
  ∀ (s : State) (cause : Nat) (b : List Byte), let t := s.moduleReset cause b
    t.fuses = s.fuses ∧ t.pending = s.pending ∧ t.mbx = mbxReset s.mbx.keys ∧
    t.regs = regsReset s.regs.policy s.regs.lpCfg s.regs.flashRank ∧
    t.power = { power0 with rawVolt := s.power.rawVolt, powered := s.power.powered } ∧ t.pins.syncOut = false ∧
    t.mem = mem0 ∧ t.port = port0 ∧ t.events = events0 ∧ t.fences = fences0 ∧ t.fleet = fleet0 ∧ t.ops = [] ∧ t.ended = [] ∧
    t.heat = { heat0 with shapes := s.heat.shapes } ∧
    t.boot.stage = 1 ∧ t.boot.ready = false ∧ t.boot.timebase = 0 ∧ t.boot.resetCause = cause ∧
    t.boot.resetStart = s.boot.startNumber ∧ t.boot.startNumber = s.boot.startNumber + 1 ∧
    t.boot.crucible = (if s.boot.startFail = 3 then 1 else 0) ∧ t.boot.startFail = s.boot.startFail ∧
    t.boot.failRecords = s.boot.failRecords ∧ t.boot.slotA = s.boot.slotA ∧ t.boot.slotB = s.boot.slotB ∧
    t.boot.s5Record = (if cause = 2 then slice b 0 64 else zeros 64) ∧
    t.boot.stickyFences = (if s.boot.clearPending then [] else s.boot.stickyFences) ∧
    t.boot.stickyFrames = (if s.boot.clearPending then [] else s.boot.stickyFrames) ∧ t.boot.clearPending = false

/-- Loss of the link, of the reference clock, or PERST# low end the link: rings, doorbells, interrupts, snoop filter and accesses of
the host are gone, every role and the session end, and memory, the pattern, its bindings and the committed counts stand (R311,
R385). PERST# high changes the pin alone; then, from stage LINK on or in crucible mode (CXL.io alone), the link trains at a speed and
width that the module has (R285, R374, R379, R392). -/
def Obligations.LinkComesAndGoes : Prop :=
  ∀ s : State,
    exec .cxlLinkLoss s = .next (s.done s.linkLoss) ∧ exec .refclkLoss s = .next (s.done s.linkLoss) ∧
    exec .perstAssert s = .next (s.done (State.linkLoss { s with pins := { s.pins with perst := false } })) ∧
    exec .perstDeassert s = .next (s.done { s with pins := { s.pins with perst := true } }) ∧
    (s.port.linkUp = false → s.linkLoss = s) ∧
    (s.port.linkUp = true →
      s.linkLoss.port.linkUp = false ∧ s.linkLoss.port.sq = List.replicate 8 ring0 ∧ s.linkLoss.port.cq = recRing0 ∧
      s.linkLoss.port.eq = recRing0 ∧ s.linkLoss.port.cqHeld = [] ∧ s.linkLoss.port.hostAcc = [] ∧ s.linkLoss.port.hostLines = [] ∧
      s.linkLoss.port.msixDue = [] ∧ s.linkLoss.mbx.session = 0 ∧ s.linkLoss.mbx.keys = s.mbx.keys ∧
      s.linkLoss.mem = s.mem ∧ s.linkLoss.fuses = s.fuses ∧ s.linkLoss.heat.pattern = s.heat.pattern ∧
      s.linkLoss.heat.bindings = s.heat.bindings ∧ s.linkLoss.heat.heatNum = s.heat.heatNum ∧
      s.linkLoss.heat.updates = s.heat.updates ∧ s.linkLoss.heat.cursor = s.heat.cursor) ∧
    (∀ speed width, linkModeOk speed width = true → s.alive = true → s.pins.perst = true → s.mbx.jtagClamp = none →
      ((s.inCrucible = true ∨ 6 ≤ s.boot.stage) →
        exec (.cxlLinkTrained speed width) s = .next (s.done { s with port := { s.port with
          linkUp := true, ioOnly := s.inCrucible, speed := speed, width := width } })) ∧
      (s.inCrucible = false → s.boot.stage < 6 → exec (.cxlLinkTrained speed width) s = .next (s.done s)))

/-- The stages of a start in order: what each leaves when it ends well, and how it fails; reaching READY clears the start-failure
counter, writes a checkpoint and raises what is due; a stage that ended past its deadline, and a deadline that expires, fail the start,
but for LINK under PERST# (R268, R269, R280, R344, R370, R372 to R376). The place of the die firmware is the model's (log 144). -/
def Obligations.StartStagesInOrder : Prop :=
  ∀ (s : State) (ac : Nat), s.alive = true → s.inCrucible = false → s.boot.ready = false →
    let w : State := { s with boot := { s.boot with timebase := (s.boot.timebase + ac) % 2 ^ 64 } }
    (∀ failed d, stageDeadline s.boot.stage = some d → d < ac → exec (.startStageDone failed ac) s = .next (s.done ((State.noteFailure
      { s with boot := { s.boot with timebase := (s.boot.timebase + d) % 2 ^ 64 } } 0x01 noUnit).moduleReset 0x06 []))) ∧
    (stageDeadline 1 = some 165000000 ∧ stageDeadline 2 = some 6600000000 ∧ stageDeadline 3 = some 6600000000 ∧
      stageDeadline 4 = some 4950000000 ∧ stageDeadline 5 = some 3300000000) ∧
    ((∀ d, stageDeadline s.boot.stage = some d → ac ≤ d) →
    (s.boot.stage = 1 → exec (.startStageDone [] ac) s = .next (s.done
      { w with boot := { w.boot with stage := 2 }, out := s.out ++ [.uartStage 2] })) ∧
    (s.boot.stage = 2 → exec (.startStageDone [] ac) s = .next (s.done w.endVerify)) ∧
    (∀ failed, s.boot.stage = 3 → ¬ (linkUnit 40 ∈ failed ∧ linkUnit 41 ∈ failed) →
      exec (.startStageDone failed ac) s = .next (s.done
        (let v := s.boot.stickyFences.foldl State.fenceAtStart { w with power := { w.power with railsOn := true } }
         let v := (failed.filter fenceable).foldl (fun v f => (v.recordSticky f).fenceAtStart f) v
         { v with fences := { v.fences with retired := v.boot.stickyFrames }, boot := { v.boot with stage := 4 } }))) ∧
    (∀ failed, s.boot.stage = 3 → linkUnit 40 ∈ failed → linkUnit 41 ∈ failed →
      exec (.startStageDone failed ac) s = .next (s.done
        ((State.noteFailure { w with power := { w.power with railsOn := true } } 0x05 (linkUnit 40)).moduleReset 0x06 []))) ∧
    (s.boot.stage = 4 → exec (.startStageDone [] ac) s = .next (s.done
      { w with
        mem := mem0, boot := { w.boot with stage := 5 },
        regs := { s.regs with
          lpInForce := lpSubstituted s.regs.lpCfg (if s.fuses.order = 2 then 16 else 8), fillDone := true,
          fillTime := ac / 2 ^ 20 % 2 ^ 32, lpAct := (List.range 128).filter fun n => !s.fencedReg (channelUnit n) } })) ∧
    (s.boot.stage = 5 → exec (.startStageDone [] ac) s = .next (s.done
      (let live := (List.range 16).filter fun d => !s.fencedReg (dieUnit d)
       let v := live.foldl (fun v d => v.poke (tableBase d + 2 ^ 25) (s.boot.dieFirmware.take (2 ^ 25))) w
       { v with
         boot := { w.boot with stage := 6 },
         regs := { s.regs with
           xlateRoot := (List.range 16).map fun d => if s.fencedReg (dieUnit d) then 0 else tableBase d } }))) ∧
    (s.boot.stage = 6 → s.port.linkUp = true → exec (.startStageDone [] ac) s = .next (s.done w.becomeReady)) ∧
    (s.boot.stage = 6 → s.port.linkUp = false → exec (.startStageDone [] ac) s = .next (s.done w)) ∧
    (∀ unit, s.boot.stage = 1 ∨ s.boot.stage = 4 ∨ s.boot.stage = 5 →
      exec (.startStageDone [unit] ac) s = .next (s.done ((w.noteFailure 0x02 unit).moduleReset 0x06 [])))) ∧
    (∀ cause unit, ¬ (s.boot.stage = 6 ∧ cause = 1 ∧ s.pins.perst = false) →
      exec (.startStageTimeout cause unit ac) s = .next (s.done ((w.noteFailure cause unit).moduleReset 0x06 []))) ∧
    (∀ unit, s.boot.stage = 6 → s.pins.perst = false → exec (.startStageTimeout 0x01 unit ac) s = .next (s.done s)) ∧
    w.becomeReady.boot.startFail = 0 ∧ w.becomeReady.boot.stage = 7 ∧ w.becomeReady.boot.ready = true

/-- STRETCH_UPDATE recomputes the stretch as R428 writes it: the power term, one die's term in its four cases, the flow and leak
term, and their maximum, held at 3L. -/
def Obligations.StretchFollowsItsTerms : Prop :=
  (∀ (s : State) (t : Telemetry), s.alive = true →
    let L := s.heat.slotLen
    let a : State := { s with power := { s.power with sp := powerTerm L t.inPower (nth s.regs.limits.active 0) s.power.sp } }
    let b := ((List.range 41).zip (telemetryAll t)).foldl (fun s e => s.dieUpdate e.1 e.2) a
    let c := (b.senseUpdate t).powerEvents t
    let w : State := { c with power := { c.power with
      inPower := t.inPower % 2 ^ 16, inVolt := t.inVolt % 2 ^ 16, inCurr := t.inCurr % 2 ^ 16, rawVolt := t.inVolt,
      cdTemp := (List.range 16).map (nth t.cdTemp), bdTemp := (List.range 16).map (nth t.bdTemp),
      mdTemp := (List.range 8).map (nth t.mdTemp), iodTemp := t.iodTemp, nextStretch := c.power.newStretch L } }
    exec (.stretchUpdate t) s = .next (s.done (if w.tripReached t then w.trip else w))) ∧
  (∀ L p cap sp : Nat, (cap < p → powerTerm L p cap sp = sp + L / 16) ∧ (p + 25 < cap → powerTerm L p cap sp = sp - L / 64) ∧
    (p ≤ cap → cap ≤ p + 25 → powerTerm L p cap sp = sp)) ∧
  (∀ L temp start limit st : Nat, start < limit →
    dieTerm L temp start limit st true = (3 * L, decide (start ≤ temp)) ∧
    (limit ≤ temp → dieTerm L temp start limit st false = (3 * L, true)) ∧
    (start < temp → temp < limit → dieTerm L temp start limit st false = (st + L / 16, false)) ∧
    (temp + 2 < start → dieTerm L temp start limit st false = (st - L / 64, false)) ∧
    (start ≤ temp + 2 → temp ≤ start → dieTerm L temp start limit st false = (st, false))) ∧
  (∀ (p : Power) (L : Nat), p.newStretch L ≤ 3 * L ∧ ((p.flowLost = true ∨ p.leak = true) → p.newStretch L = 3 * L) ∧
    (p.flowLost = false → p.leak = false → p.newStretch L = min (3 * L) (max p.sp (p.st.foldl max 0))))

/-- A control core: its watchdog raises EV_WATCHDOG and starts a restart; the restart's end opens the crossings to the core, notes its
success in the latest record of the expiry that the module holds (log 138), and begins the quiet time, which ends the sequence; the
second failed restart fences the core (R355 to R357). -/
def Obligations.ControlCoresRestartTwice : Prop :=
  ∀ (s : State) (c : Nat), c < 64 →
    (∀ pc, s.fencedNow (controlUnit c) = false → (∀ r ∈ s.fences.restarts, r.core ≠ c) →
      exec (.controlCoreWatchdog c pc) s = .next (s.done
        (let w := s.raise evWatchdog (controlUnit c) 0 (pc % 2 ^ 64)
         { w with fences := { w.fences with restarts := w.fences.restarts ++ [({ core := c, tries := 1, quiet := false } : Restart)] } }))) ∧
    (∀ pc, s.fencedNow (controlUnit c) = true → exec (.controlCoreWatchdog c pc) s = .next (s.done s)) ∧
    (∀ r, s.fences.restarts.find? (fun r => r.core = c) = some r →
      (r.tries < 2 → exec (.controlCoreRestartTimeout c) s = .next (s.done { s with fences := { s.fences with
        restarts := s.fences.restarts.map fun x => if x.core = c then { x with tries := x.tries + 1, quiet := false } else x } })) ∧
      (2 ≤ r.tries → exec (.controlCoreRestartTimeout c) s = .next (s.done (State.fenceStart
        { s with fences := { s.fences with restarts := s.fences.restarts.filter fun r => r.core ≠ c } } (controlUnit c) 1)))) ∧
    (∀ r ∈ s.fences.restarts, r.core = c → r.quiet = false →
      let mine := (s.events.openRecs ++ s.port.eqHeld ++ s.events.outstanding).filter fun e => e.code = evWatchdog ∧ e.unit = controlUnit c
      let mark (e : EventRec) : EventRec :=
        if e.code = evWatchdog ∧ e.unit = controlUnit c ∧ e.seq = (mine.map (·.seq)).foldl max 0 ∧ ¬ bitOf e.data 64 then
          { e with data := e.data + 2 ^ 64 } else e
      exec (.controlCoreRestartDone c) s = .next (s.done { s with
        fences := { s.fences with
          restarts := s.fences.restarts.map fun x => if x.core = c then { x with quiet := true } else x,
          cdcDead := s.fences.cdcDead.filter fun e => e.1 ≠ controlUnit c ∧ e.2 ≠ controlUnit c },
        events := { s.events with openRecs := s.events.openRecs.map mark, outstanding := s.events.outstanding.map mark },
        port := { s.port with eqHeld := s.port.eqHeld.map mark } })) ∧
    exec (.restartQuietExpiry c) s = .next (s.done { s with fences := { s.fences with
      restarts := s.fences.restarts.filter fun r => !(decide (r.core = c) && r.quiet) } })

/-! ## The registers -/

/-- COMMIT on a block: with the right to write it and a consistent shadow the shadow is staged, to become active at the tick, or at
the tick after when 64 ac or less are left; an inconsistent shadow leaves the staged copy as it was; without an installer session a
guarded block refuses. A staged copy becomes active whole, or not at all; a new FLEET_RANK is then written to flash (R359, R360, R361, R384, R387). -/
def Obligations.CommitStagesAWholeBlock : Prop :=
  ∀ (s : State) (b : CommitBlock) (acBefore : Nat), s.barLive = true →
    let x := s.regs.rws b
    let guarded : Bool := b != .defaults
    let put (y : Rws) : State := { s with regs := s.regs.setRws b y }
    let logged (action st : Nat) (w : State) : State :=
      w.auditAppend action s.mbx.session st s.mbx.sessionKey (fieldObject (commitOffset b) 1)
    let staged : Rws := { x with staged := x.shadow, pending := true, late := decide (acBefore < 64), status := stOk }
    (b = .defaults →
      exec (.commit b acBefore) s = .next (s.done (if s.commitOk b then put staged else put { x with status := stConfig }))) ∧
    (guarded = true → 2 ≤ s.mbx.session → s.audit.flashOk = true →
      (s.commitOk b = true → exec (.commit b acBefore) s = .next (s.done (logged 0x10 stOk (put staged)))) ∧
      (s.commitOk b = false → exec (.commit b acBefore) s = .next (s.done (logged 0x11 stConfig (put { x with status := stConfig }))))) ∧
    (guarded = true → s.mbx.session < 2 → s.audit.flashOk = true →
      exec (.commit b acBefore) s = .next (s.done (logged 0x11 stRights (State.rightsError (put { x with status := stRights }))))) ∧
    (x.pending = true → b ≠ .pourSync →
      s.commitApply b = put { x with active := x.staged, pending := false, status := stOk }) ∧
    (x.pending = true → b = .pourSync → s.commitApply b =
      (let w := put { x with active := x.staged, pending := false, status := stOk }
       if nth x.staged 2 = nth x.active 2 then w
       else { w with regs := { w.regs with flashWrites := w.regs.flashWrites ++ [(0x3010, nth x.staged 2)] } })) ∧
    (x.pending = false → s.commitApply b = s)

/-- ENABLE of a ring: from 0 to 1 it clears the indices first; a misaligned base or a size outside its rules leaves ENABLE 0 and is
counted; clearing ENABLE of a submission ring stops its fetching and ends its role (R402, R403). -/
def Obligations.RingsTurnOnAndOff : Prop :=
  ∀ s : State, s.barLive = true →
    (∀ r, (s.ring r).enable = false →
      let cleared (on : Bool) (q : Ring) : Ring :=
        { q with head := 0, tail := 0, fetching := false, fetched := [], busy := false, enable := on }
      (s.enableOk (.sq r) = true → exec (.ringEnable (.sq r)) s = .next (s.done (s.setRing r (cleared true)))) ∧
      (s.enableOk (.sq r) = false → exec (.ringEnable (.sq r)) s = .next (s.done (s.setRing r (cleared false)).accessError))) ∧
    (s.port.cq.enable = false →
      let cq (on : Bool) : RecRing := { s.port.cq with head := 0, tail := 0, used := 0, phase := true, enable := on }
      (s.enableOk .cq = true → exec (.ringEnable .cq) s =
        .next (s.done (State.flushCq { s with port := { s.port with cq := cq true } } s.port.cqHeld.length))) ∧
      (s.enableOk .cq = false → exec (.ringEnable .cq) s =
        .next (s.done (State.accessError { s with port := { s.port with cq := cq false } })))) ∧
    (s.port.eq.enable = false →
      let eq (on : Bool) : RecRing := { s.port.eq with head := 0, tail := 0, used := 0, phase := true, enable := on }
      (s.enableOk .eq = true → exec (.ringEnable .eq) s =
        .next (s.done (State.flushEq { s with port := { s.port with eq := eq true } } s.port.eqHeld.length))) ∧
      (s.enableOk .eq = false → exec (.ringEnable .eq) s =
        .next (s.done (State.accessError { s with port := { s.port with eq := eq false } })))) ∧
    (∀ sel, s.ringOn sel = true → exec (.ringEnable sel) s = .next (s.done s)) ∧
    (∀ r, (s.ring r).enable = true → exec (.ringDisable r) s = .next (s.done
      (let w := (s.endRole r).setRing r fun q => { q with enable := false, fetching := false, fetched := [] }
       { w with port := { w.port with hostAcc := w.port.hostAcc.filter fun a => a.purpose != .descriptor r } }))) ∧
    (∀ r, (s.ring r).enable = false → exec (.ringDisable r) s = .next (s.done s)) ∧
    (∀ r, s.enableOk (.sq r) = true ↔ (r < 8 ∧ 6 ≤ (s.ring r).log2 ∧ (s.ring r).log2 ≤ 16 ∧ (s.ring r).base % (64 * 2 ^ (s.ring r).log2) = 0 ∧
      (s.port.cq.enable = true → (s.ring r).log2 ≤ s.port.cq.log2) ∧ (s.port.eq.enable = true → (s.ring r).log2 ≤ s.port.eq.log2)))

/-- The severity map, the clear of the sticky fences and its cancellation are installer fields: under an installer session they take
effect and are audited; otherwise the write is ignored, counted and audited as refused. The snoopers are not (R384, R387, R407,
R408, R414). -/
def Obligations.InstallerFieldsNeedTheirSession : Prop :=
  ∀ s : State, s.barLive = true → s.audit.flashOk = true →
    let granted (ofs v : Nat) (w : State) : State := w.auditAppend 0x10 2 stOk s.mbx.sessionKey (fieldObject ofs v)
    let refused (ofs v : Nat) : State := s.rightsError.auditAppend 0x11 s.mbx.session stRights s.mbx.sessionKey (fieldObject ofs v)
    (2 ≤ s.mbx.session →
      (∀ (w : Nat) (v : Word), w ≤ 9 → exec (.severityMapWrite w v) s = .next (s.done (granted (0x5000 + 8 * w) v.toNat
        { s with events := { s.events with sevSet := s.events.sevSet.map fun e =>
          let f := fld v.toNat (8 * (e.1 % 8) + 2) (8 * (e.1 % 8))
          if e.1 / 8 = w ∧ f ≤ 5 then (e.1, f) else e } }))) ∧
      exec .clearSticky s = .next (s.done (granted 0x6008 1 { s with boot := { s.boot with clearPending := true } })) ∧
      exec .cancelClear s = .next (s.done (granted 0x6008 2 { s with boot := { s.boot with clearPending := false } }))) ∧
    (s.mbx.session < 2 →
      (∀ (w : Nat) (v : Word), w ≤ 9 → exec (.severityMapWrite w v) s = .next (s.done (refused (0x5000 + 8 * w) v.toNat))) ∧
      exec .clearSticky s = .next (s.done (refused 0x6008 1)) ∧ exec .cancelClear s = .next (s.done (refused 0x6008 2))) ∧
    (∀ (n : Nat) (v : Word), s.fencedNow (snooperUnit n) = false → exec (.snooperRunWrite n v) s = .next (s.done
      { s with regs := { s.regs with snoopers := setAt s.regs.snoopers n fun x =>
        { x with run := if x.mode = 1 then v.toNat % 2 ^ 32 else v.toNat % 2 ^ 64 } } })) ∧
    (∀ (n : Nat) (v : Word), s.fencedNow (snooperUnit n) = true → exec (.snooperRunWrite n v) s = .next (s.done s))

/-- REGISTER_WRITE, every offset, size and value. A write that no link brings, or past BAR0, does nothing; one that is not aligned is
ignored and counted, in crucible mode ignored; any other carries its half or whole register, the other half as it read, to the mailbox,
the MSI-X table or, outside crucible mode, its block. Then what the blocks do with it: a read-only register keeps its value; a shadow
register, a ring's base, the event vectors, the host timeout, the bound of crossings, the mailbox's buffers, a snooper, and an MSI-X
entry take what is written, reserved bits apart; GO commits; a field of the split-write test needs the session; a field kept in flash is queued.
INSTALLER_FIELD_FLASH_WRITE: in flash, the oldest field takes its value and the entry is made; failed, the field keeps its old
value, of FLEET_RANK with ST_CONFIG_INCONSISTENT, and flash accepts no writes (R287, R291, R359, R389, R394 to R398, R402, R403, R412 to R415). -/
def Obligations.RegisterWritesReachTheirFields : Prop :=
  ∀ (s : State) (v : Word),
    let regs (f : Regs → Regs) : State := { s with regs := f s.regs }
    (∀ ofs size, (s.linkLive = false ∨ 0x200000 ≤ ofs) → exec (.registerWrite ofs size v) s = .next (s.done s)) ∧
    (∀ ofs size, s.linkLive = true → ofs < 0x200000 → ¬ ((size = 4 ∧ ofs % 4 = 0) ∨ (size = 8 ∧ ofs % 8 = 0)) →
      exec (.registerWrite ofs size v) s = .next (s.done (if s.inCrucible then s else
        regs fun r => { r with accessErr := satAdd 32 r.accessErr 1 }))) ∧
    (∀ ofs size, s.linkLive = true → ofs < 0x200000 → (size = 4 ∧ ofs % 4 = 0) ∨ (size = 8 ∧ ofs % 8 = 0) →
      exec (.registerWrite ofs size v) s = .next (s.done (
        if 0x1E0000 ≤ ofs ∧ ofs < 0x1F0000 then s.mailboxWrite (ofs - 0x1E0000) size v.toNat else
        if 0x1F0000 ≤ ofs then s.msixWrite (ofs - 0x1F0000) size v.toNat else
        if s.inCrucible then s else
        s.blockWrite (ofs / 8 * 8) (mergeReg (s.readReg (ofs / 8 * 8)) ofs size v.toNat) (mergeReg 0 ofs size v.toNat)))) ∧
    (∀ old ofs, old < 2 ^ 64 → mergeReg old ofs 8 v.toNat = v.toNat ∧
      (ofs % 8 = 0 → mergeReg old ofs 4 v.toNat % 2 ^ 32 = v.toNat % 2 ^ 32 ∧ mergeReg old ofs 4 v.toNat / 2 ^ 32 = old / 2 ^ 32) ∧
      (ofs % 8 ≠ 0 → mergeReg old ofs 4 v.toNat % 2 ^ 32 = old % 2 ^ 32 ∧ mergeReg old ofs 4 v.toNat / 2 ^ 32 = v.toNat % 2 ^ 32)) ∧
    (∀ new go,
      (∀ o, o < 0x2000 ∨ (0x2128 < o ∧ o < 0x3000) ∨ (0x3010 < o ∧ o < 0x30F0) ∨ (0x8008 ≤ o ∧ o < 0x9000) ∨ (0x11FC0 ≤ o) →
        s.blockWrite o new go = s) ∧
      (∀ r < 8, (s.ring r).enable = false →
        s.blockWrite (0x2000 + 32 * r) new go = s.setRing r fun q => { q with base := new }) ∧
      (∀ r < 8, (s.ring r).enable = true → s.blockWrite (0x2000 + 32 * r) new go = s.accessError) ∧
      s.blockWrite 0x2128 new go = { s with port := { s.port with hostTimeout := new % 2 ^ 14 } } ∧
      ((∀ i < 5, bitOf new (8 * i + 6) = false) → s.blockWrite 0x2120 new go = { s with port := { s.port with evtVec := new % 2 ^ 40 } }) ∧
      ((∃ i < 5, bitOf new (8 * i + 6) = true) → s.blockWrite 0x2120 new go = s) ∧
      s.blockWrite 0x3000 new go = (regs fun r => { r with pourSync := r.pourSync.write 0 (2 ^ 17 - 1) new }) ∧
      s.blockWrite 0x3008 new go = (regs fun r => { r with pourSync := r.pourSync.write 1 (2 ^ 40 - 1) new }) ∧
      s.blockWrite 0x3010 new go = (regs fun r => { r with pourSync := r.pourSync.write 2 (2 ^ 12 - 1) new }) ∧
      s.blockWrite 0x4000 new go = (regs fun r => { r with defaults := r.defaults.write 0 (2 ^ 48 - 1 - 2 ^ 31) new }) ∧
      s.blockWrite 0xA000 new go = (regs fun r => { r with limits := r.limits.write 0 (2 ^ 16 - 1) new }) ∧
      s.blockWrite 0xA008 new go = (regs fun r => { r with limits := r.limits.write 1 (2 ^ 32 - 1) new }) ∧
      (∀ e ∈ ([(0x30F0, .pourSync), (0x40F0, .defaults), (0xA0F0, .limits)] : List (Nat × CommitBlock)),
        s.blockWrite e.1 new go = if bitOf go 0 then s.commitGo e.2 false else s) ∧
      (∀ w ≤ 9, s.blockWrite (0x5000 + 8 * w) new go = s.severityWrite w new) ∧
      s.blockWrite 0x6008 new go = s.stickyWrite go ∧
      s.blockWrite 0x8000 new go = (regs fun r => { r with cdcTimeout := new % 2 ^ 21 }) ∧
      (s.regs.splitBusy = false →
        s.blockWrite 0x9000 new go = s.installerWrite 0x9000 new (fun w => { w with regs := { w.regs with splitA := new % 2 ^ 56 } }) ∧
        s.blockWrite 0x9008 new go = s.installerWrite 0x9008 new (fun w => { w with regs := { w.regs with splitD := new } }) ∧
        s.blockWrite 0x9010 new go = s.installerWrite 0x9010 new (fun w => { w with regs := { w.regs with splitD2 := new } }) ∧
        s.blockWrite 0x9018 new go = s.installerWrite 0x9018 new (fun w => { w with regs := { w.regs with splitA2 := new % 2 ^ 56 } })) ∧
      (∀ n < 127, s.fencedNow (snooperUnit n) = false →
        (s.blockWrite (0x10000 + 64 * n) new go = (regs fun r => { r with snoopers := setAt r.snoopers n fun x =>
          { x with mode := fld new 1 0, filt := fld new 31 16, mask := fld new 47 32 } })) ∧
        (s.blockWrite (0x10010 + 64 * n) new go = (regs fun r => { r with snoopers := setAt r.snoopers n fun x => { x with fp := new } })) ∧
        (s.blockWrite (0x10018 + 64 * n) new go = (regs fun r => { r with snoopers := setAt r.snoopers n fun x => { x with blocks := new } }))) ∧
      (∀ n < 127, s.fencedNow (snooperUnit n) = true → ∀ k < 8, s.blockWrite (0x10000 + 64 * n + 8 * k) new go = s) ∧
      (2 ≤ s.mbx.session → s.audit.flashOk = true →
        s.blockWrite 0x7000 new go = (regs fun r => { r with flashWrites := r.flashWrites ++ [(0x7000, new % 2 ^ 24)] }) ∧
        (fld new 9 8 ≠ 3 → s.blockWrite 0x6000 new go =
          (regs fun r => { r with flashWrites := r.flashWrites ++ [(0x6000, new &&& (1 + 15 * 2 ^ 8))] })) ∧
        (fld new 9 8 = 3 → s.blockWrite 0x6000 new go = s))) ∧
    (∀ i size, i < 4096 → s.mailboxWrite (0x1000 + i) size v.toNat =
        { s with mbx := { s.mbx with request := patch s.mbx.request i (natLe size v.toNat) } } ∧
      s.mailboxWrite (0x2000 + i) size v.toNat = { s with mbx := { s.mbx with response := patch s.mbx.response i (natLe size v.toNat) } }) ∧
    (∀ i < 64, i ∉ s.port.msixPending →
      s.msixWrite (16 * i) 8 v.toNat = { s with port := { s.port with msix := setAt s.port.msix i fun e => { e with addr := v.toNat } } } ∧
      s.msixWrite (16 * i + 8) 8 v.toNat = { s with port := { s.port with msix := setAt s.port.msix i fun e =>
        { e with data := v.toNat % 2 ^ 32, mask := bitOf v.toNat 32 } } }) ∧
    (∀ ofs x rest, s.regs.flashWrites = (ofs, x) :: rest →
      exec (.installerFieldFlashWrite true) s = .next (s.done (State.auditLate { s with regs :=
          if ofs = 0x6000 then { s.regs with flashWrites := rest, policy := x } else
          if ofs = 0x7000 then { s.regs with flashWrites := rest, lpCfg := x } else { s.regs with flashWrites := rest, flashRank := x } }
        0x10 2 stOk s.mbx.sessionKey (fieldObject ofs x))) ∧
      exec (.installerFieldFlashWrite false) s = .next (s.done { s with
        regs := if ofs = 0x3010 then { s.regs with flashWrites := rest, pourSync := { s.regs.pourSync with
            active := setAt s.regs.pourSync.active 2 fun _ => s.regs.flashRank, status := stConfig } }
          else { s.regs with flashWrites := rest },
        audit := { s.audit with flashOk := false } })) ∧
    (s.regs.flashWrites = [] → ∀ ok, exec (.installerFieldFlashWrite ok) s = .next (s.done s))

/-- SPLIT_WRITE, allowed: the word at A holds D, its check byte differs from its own by that of D2 at A2, D's own and the mask, no
other byte or word changes, and the attempt is counted and audited; a refused one leaves memory unchanged (R284, R387, R412). -/
def Obligations.SplitWriteStoresTheChosenCheck : Prop :=
  ∀ s : State, s.barLive = true → s.audit.flashOk = true →
    let r := s.regs
    let logged (st : Nat) (w : State) : State :=
      w.auditAppend 0x18 s.mbx.session st s.mbx.sessionKey (natLe 8 r.splitA ++ natLe 8 r.splitA2 ++ natLe 1 r.splitX)
    let ends (st : Nat) : State := logged st { s with regs := { r with splitStatus := st } }
    (∀ l l2, 2 ≤ s.mbx.session → s.running = false → r.splitA % 8 = 0 → r.splitA2 % 8 = 0 → s.populated r.splitA = true →
      s.populated r.splitA2 = true → s.locate r.splitA = some l → s.locate r.splitA2 = some l2 →
      let dev := foldCheck r.splitD l.loc ^^^ foldCheck r.splitD2 l2.loc ^^^ r.splitX
      ∃ m : Mem, exec .splitWrite s = .next (s.done (logged stOk
          { s with mem := m, regs := { r with splitDone := (r.splitDone + 1) % 2 ^ 32, splitStatus := stOk } })) ∧
        cellRead m.cells r.splitA 8 = natLe 8 r.splitD ∧ (r.splitA / 8, 0) ∉ m.synd ∧ m.syndrome r.splitA = dev ∧
        (∀ a n, (a + n ≤ r.splitA ∨ r.splitA + 8 ≤ a) → cellRead m.cells a n = cellRead s.mem.cells a n) ∧
        (∀ a, a / 8 ≠ r.splitA / 8 → m.syndrome a = s.mem.syndrome a) ∧
        { m with cells := s.mem.cells, synd := s.mem.synd } = s.mem) ∧
    (s.mbx.session < 2 → exec .splitWrite s = .next (s.done (ends stRights))) ∧
    (2 ≤ s.mbx.session → s.running = true → exec .splitWrite s = .next (s.done (ends stConfig))) ∧
    (2 ≤ s.mbx.session → s.running = false →
      (r.splitA % 8 ≠ 0 ∨ r.splitA2 % 8 ≠ 0 ∨ s.populated r.splitA = false ∨ s.populated r.splitA2 = false) →
      exec .splitWrite s = .next (s.done (ends stInvalid)))

/-! ## Memory -/

/-- Stored bytes read back, and every byte outside them reads as before. -/
def Obligations.StoredBytesReadBack : Prop :=
  ∀ (s : State) (a : Nat) (bs : List Byte),
    (s.poke a bs).peek a bs.length = bs ∧
    (∀ x n, (x + n ≤ a ∨ a + bs.length ≤ x) → (s.poke a bs).peek x n = s.peek x n) ∧
    sameBut [.mem] s (s.poke a bs)

/-- What a read makes of a syndrome, row by row, and the event that each outcome raises with the unit, L, S and k (R277); then what the
code gives: a right word is good, every one-bit error of data or check byte is corrected, an access that lands one location bit away is an
address fault at that bit, and no two data errors at once read as usable (R275, R276). -/
def Obligations.ReadsClassifyTheirSyndrome : Prop :=
  (∀ S < 256,
    (S = 0 → classify S = .good) ∧
    (∀ i < 64, S = nth dataColumns i → classify S = .fixedData i) ∧
    (∀ i < 8, S = 2 ^ i → classify S = .fixedCheck) ∧
    (byteWeight S % 2 = 1 → S ∉ dataColumns → (∀ i < 8, S ≠ 2 ^ i) → classify S = .bad) ∧
    (S = 0xFF → classify S = .poisoned) ∧
    (∀ k < 40, S = nth locColumns k → classify S = .addrFault k) ∧
    (byteWeight S % 2 = 0 → S ≠ 0 → S ≠ 0xFF → S ∉ locColumns → classify S = .bad)) ∧
  (∀ (s : State) (a : Nat) (l : Loc), s.locate a = some l →
    let S := s.mem.syndrome a
    (∀ f, (s.mem.readWord a).2 = f → f = classify S) ∧
    (∀ i, classify S = .fixedData i → (s.mem.readWord a).1 = s.mem.word a ^^^ 2 ^ i) ∧
    s.eccEvent a .good = s ∧
    (∀ i, s.eccEvent a (.fixedData i) = s.raise evEccCe l.unit 0 (eccData l.loc S 0 (a / 8 * 8))) ∧
    s.eccEvent a .fixedCheck = s.raise evEccCe l.unit 0 (eccData l.loc S 0 (a / 8 * 8)) ∧
    (∀ k, s.eccEvent a (.addrFault k) = s.raise evAddrFault l.unit 0 (eccData l.loc S k (a / 8 * 8))) ∧
    s.eccEvent a .bad = s.raise evEccUe l.unit 0 (eccData l.loc S 0 (a / 8 * 8)) ∧
    s.eccEvent a .poisoned = s.raiseN evEccUe l.unit 0 (eccData l.loc S 0 (a / 8 * 8)) 1 true) ∧
  (∀ d l : Nat,
    (∀ i < 64, classify (foldCheck (d ^^^ 2 ^ i) l ^^^ foldCheck d l) = .fixedData i) ∧
    (∀ k < 40, classify (foldCheck d (l ^^^ 2 ^ k) ^^^ foldCheck d l) = .addrFault k) ∧
    (∀ i < 64, ∀ j < 64, i ≠ j → (classify (foldCheck (d ^^^ 2 ^ i ^^^ 2 ^ j) l ^^^ foldCheck d l)).usable = false))

/-- The host reads and writes through a decoder: populated memory outside the reserved and retired areas, reached by a route of links
that answer, and, for a write, outside the plan of a running pattern is served, past the link ends on its way and the snooper of its
direction; anything else is rejected with EV_XLATE_FAULT "protected"; an access outside the decoder's window reaches nothing. A read in a
cached state is granted its lines, but none of a running pattern's plan, and where the filter is full it waits until the lines granted
longest ago have come back; the host's answer gives its line back and lets those that waited be tried again (R288 to R290, R365). -/
def Obligations.HostAccessesAreServedOrRejected : Prop :=
  ∀ (s : State) (d ofs : Nat),
    (∀ n cached, s.hdmHit d ofs n = false → exec (.hostMemRead d ofs n cached) s = .next (s.done s)) ∧
    (∀ data, s.hdmHit d ofs data.length = false → exec (.hostMemWrite d ofs data) s = .next (s.done s)) ∧
    (let a := (s.hdmTarget d).1 + ofs
     let served (n : Nat) : State :=
       let r := s.readMem a n
       ((r.2.emit (.memData r.1.bytes (r.1.found.map fun f => !f.usable))).carry iodUnit false a 0x8 0 (addrBlocks a r.1.bytes)).snoop
         126 0x8 0 (addrBlocks a r.1.bytes)
     let planned (n : Nat) : Bool := s.running && (s.inPlan a || s.inPlan (a + n - 1))
     (∀ n cached, s.hdmHit d ofs n = true → s.hostRejected a n false = false → (cached = false ∨ planned n = true) →
        exec (.hostMemRead d ofs n cached) s = .next (s.done (served n))) ∧
     (∀ n, s.hdmHit d ofs n = true → s.hostRejected a n false = false → planned n = false → s.excess a n = 0 →
        exec (.hostMemRead d ofs n true) s = .next (s.done ((linesOf a n).foldl State.grantLine (served n)))) ∧
     (∀ n, s.hdmHit d ofs n = true → s.hostRejected a n false = false → planned n = false → 0 < s.excess a n →
        exec (.hostMemRead d ofs n true) s = .next (s.done
          (let w := ((s.port.hostLines.filter fun l => decide (l ∉ linesOf a n)).take (s.excess a n)).foldl State.backInvalidate s
           { w with port := { w.port with waitReads := w.port.waitReads ++ [(d, ofs, n)] } }))) ∧
     (∀ n cached, s.hdmHit d ofs n = true → s.hostRejected a n false = true →
        exec (.hostMemRead d ofs n cached) s = .next (s.done ((s.raise evXlate iodUnit 0 (xlateData a false 4)).emit .memReject))) ∧
     (∀ data, s.hdmHit d ofs data.length = true →
        let w := s.snoop 125 0x8 0 (addrBlocks a data)
        (w.hostRejected a data.length true = false →
          exec (.hostMemWrite d ofs data) s = .next (s.done
            (((w.carry iodUnit true a 0x8 0 (addrBlocks a data)).writeMem a data).2.emit (.writeDone true)))) ∧
        (w.hostRejected a data.length true = true →
          exec (.hostMemWrite d ofs data) s =
            .next (s.done ((w.raise evXlate iodUnit 0 (xlateData a true 4)).emit (.writeDone false)))))) ∧
    (∀ line, s.fullLink = true → exec (.hostSnoop line) s = .next (s.done { s with out := s.out ++ [.snoopRsp line] })) ∧
    (∀ base, s.fullLink = true → d < 2 → exec (.hdmDecoderProgram d base) s = .next (s.done
      { s with port := { s.port with hdm := setAt s.port.hdm d fun _ => some base } })) ∧
    (∀ line, s.linkLive = true → line ∈ s.port.bisnp →
      let w : State := { s with
        port := { s.port with bisnp := s.port.bisnp.filter (· ≠ line), hostLines := s.port.hostLines.filter (· ≠ line) },
        ops := s.ops.map fun o => { o with waitFor := o.waitFor.filter (· ≠ line) } }
      exec (.bisnpResponse line none) s = .next (s.done w.retryReads) ∧
      (∀ b, exec (.bisnpResponse line (some b)) s = .next (s.done
        ((w.snoop 125 0x8 0 (addrBlocks line (slice b 0 64))).writeMem line (slice b 0 64)).2.retryReads))) ∧
    (∀ line b, (s.linkLive = false ∨ line ∉ s.port.bisnp) → exec (.bisnpResponse line b) s = .next (s.done s)) ∧
    (s.port.waitReads = [] → s.retryReads = s) ∧
    (∀ x rest, s.port.waitReads = x :: rest → s.retryReads =
      (x :: rest).foldl (fun w r => w.hostMemRead r.1 r.2.1 r.2.2 true) { s with port := { s.port with waitReads := [] } })

/-! ## Events, fences, crossings, links -/

/-- Raising an event: an open record of its class counts one more; otherwise a new record takes the next SEQ, one severity higher, at
most S5, when one of its class is outstanding and its code may escalate; then the reactions of its level, and first those of its configured
level where it is escalated: none at S0 and S1, a mark and a degradation at S2, a veto cause at S3, the end of the jobs at S4, and at S5
the module reset that is due at the end of the command (R332 to R342). -/
def Obligations.EventsFormRecordsAndReact : Prop :=
  ∀ (s : State) (code unit layer data : Nat), s.events.resetDue = none →
    let same (e : EventRec) : Bool := decide (e.code = code) && decide (e.unit = unit) && decide (e.layer = layer)
    (∀ e, s.events.openRecs.find? same = some e →
      s.raise code unit layer data =
        State.reactTo { s with events := { s.events with
          openRecs := s.events.openRecs.map fun e => if same e then e.merge 1 data else e } } e data) ∧
    (s.events.openRecs.find? same = none →
      let base := s.sevOf code
      let up := s.events.outstanding.any same && !neverEscalates code
      let sev := if up then min 5 (base + 1) else base
      let e : EventRec := {
        seq := s.events.nextSeq, code := code, sev := sev, escalated := up, poison := false, unit := unit, count := 1,
        heatNum := s.heat.heatNum, slot := s.eventSlot, layer := layer, data := data }
      let w : State := { s with events := { s.events with
        nextSeq := s.events.nextSeq + 1, openRecs := s.events.openRecs ++ [e],
        outstanding := if 1 ≤ sev then s.events.outstanding ++ [e] else s.events.outstanding,
        counts := if 1 ≤ sev then put s.events.counts code (satAdd 32 (look 0 s.events.counts code) 1) else s.events.counts } }
      (sev ≠ 5 → s.raise code unit layer data = w.reactTo e data) ∧
      (sev = 5 → (s.raise code unit layer data).events.resetDue.isSome = true)) ∧
    (∀ e : EventRec,
      (e.escalated = false → s.reactTo e data = s.react e.sev e.code e.unit data e.seq) ∧
      (e.escalated = true →
        s.reactTo e data = (s.react (e.sev - 1) e.code e.unit data e.seq).react e.sev e.code e.unit data e.seq)) ∧
    (∀ seq t, s2Target code unit data = some t → s.react 2 code unit data seq = s.degrade t) ∧
    (∀ seq, s2Target code unit data = none → s.react 2 code unit data seq = s) ∧
    (∀ seq, s.react 0 code unit data seq = s ∧ s.react 1 code unit data seq = s ∧
      s.react 3 code unit data seq = s.cause iodUnit (vetoBit code) ∧ s.react 4 code unit data seq = s.haltJobs iodUnit seq) ∧
    (s.heat.job = none → ∀ u bit, s.cause u bit = s) ∧
    (s.wordOpen = true → ∀ u bit, s.cause u bit = { s with heat := { s.heat with status := setStatus s.heat.status u bit } }) ∧
    (s.running = false → ∀ t, fenceable t = true → s.degrade (.inl t) = s.fenceStart t 1)

/-- The later steps of a fence, and the commands beside them: the clocks stop and the crossings into the unit are reset; only then
is it gated, and the registers show it; a timed-out crossing answers its requester, which abandons its op, ends its copy with ST_FENCED,
or sees its host access rejected; the crossing is dead until it is reset, and EV_CDC_TIMEOUT names the far side; toward a fenced unit the
requester gets the fenced reply alone, and firmware's is reported at S0; a refresh window's end clears its bank's counts; flash that
accepts writes again takes the entries that waited (R271, R274, R345, R346, R352, R355, R389, R418). -/
def Obligations.FencesAndCrossingsTakeTheirSteps : Prop :=
  ∀ (s : State) (t : Nat),
    exec (.fenceClockStop t) s = .next (s.done { s with fences := { s.fences with
      fencing := s.fences.fencing.map fun f => if f.unit = t then { unit := t, stopped := true, cause := f.cause } else f,
      cdcDead := s.fences.cdcDead.filter fun e => !(decide (t ∈ covering e.2)) } }) ∧
    (∀ f ∈ s.fences.fencing, f.unit = t → f.stopped = true →
      exec (.fencePowerGate t) s = .next (s.done { s with fences := { s.fences with
        fencing := s.fences.fencing.filter fun f => f.unit ≠ t, fenced := addTo s.fences.fenced t } })) ∧
    ((∀ f ∈ s.fences.fencing, f.unit = t → f.stopped = false) → exec (.fencePowerGate t) s = .next (s.done s)) ∧
    (let dead (source : Nat) (w : State) : State := State.raise
       { w with fences := { w.fences with cdcDead := addTo w.fences.cdcDead (source, t) } } evCdcTimeout t 0 (cdcData source true)
     let times (r : Requester) (w : State) : Prop := ∀ source,
       (w.fencedNow t = false → exec (.cdcHandshakeTimeout source t r) s = .next (s.done (dead source w))) ∧
       (w.fencedNow t = true → r ≠ .firmware → exec (.cdcHandshakeTimeout source t r) s = .next (s.done w))
     times .firmware s ∧
     (∀ source, s.fencedNow t = true → exec (.cdcHandshakeTimeout source t .firmware) s =
       .next (s.done (s.raiseWith 0 evCdcTimeout t 0 (cdcData source true) 1 false))) ∧
     (∀ addr write, times (.host write addr)
       ((s.raise evXlate iodUnit 0 (xlateData addr write 4)).emit (if write then .writeDone false else .memReject))) ∧
     (∀ p d, s.running = true →
       times (.slotOp p d) ((destMarks p d).foldl State.spoilBank (s.opAbandoned (s.progUnit p) (destMarks p d)))) ∧
     (∀ p d, s.running = false → times (.slotOp p d) s) ∧
     (∀ ring tag o, s.findTag ring tag = some o → times (.copy ring tag) (s.setOp { o with endWith := some (o.endWith.getD stFenced) })) ∧
     (∀ ring tag, s.findTag ring tag = none → times (.copy ring tag) s)) ∧
    exec (.remoteRegisterReadTimeout t) s = .next (s.done
      (State.raise { s with out := s.out ++ [.memData (zeros 8) []] } evCdcTimeout (registerUnit t) 0 (cdcData iodUnit true))) ∧
    (∀ bank, exec (.refreshWindowEnd false t bank) s = .next (s.done { s with mem := { s.mem with
      rowActs := s.mem.rowActs.filter fun e => !(decide (e.1 / 2 ^ 30 = t) && decide (e.1 % 16 = bank % 16)) } })) ∧
    (∀ bank, exec (.refreshWindowEnd true t bank) s = .next (s.done s)) ∧
    exec .flashWritesAcceptedAgain s = .next (s.done
      (s.audit.deferred.foldl (fun w d => w.auditAppend d.action d.role d.status d.key d.object)
        { s with audit := { s.audit with flashOk := true, deferred := [] } }))

/-- A link: each failed flit is counted and reported by its end; the eighth in a row begins a retrain, and what the link has queued is
gone; a retrain that ends well opens the link again with its crossings, and the third that fails in a row marks it down, reported once by
the end that began it. A channel PHY's retrain opens its channel (R355, R356, R358). -/
def Obligations.LinksRetrainThenFail : Prop :=
  ∀ (s : State) (e : Nat),
    (s.linkBroken (e / 2) = true → exec (.linkCrcFail e) s = .next (s.done s)) ∧
    (s.linkBroken (e / 2) = false → look 0 s.fences.crcRun e < 7 → exec (.linkCrcFail e) s = .next (s.done (State.raise
      { s with fences := { s.fences with crcRun := put s.fences.crcRun e (look 0 s.fences.crcRun e + 1) } }
      evLinkCrc (linkEndUnit e) 0 1))) ∧
    (s.linkBroken (e / 2) = false → 7 ≤ look 0 s.fences.crcRun e → exec (.linkCrcFail e) s = .next (s.done (State.raise
      { s with
        fences := { s.fences with
          crcRun := del s.fences.crcRun e, retrain := addTo s.fences.retrain (e / 2), retrainBy := put s.fences.retrainBy (e / 2) e },
        heat := { s.heat with links := s.heat.links.map fun x =>
          if x.linkEnd / 2 = e / 2 then { x with tiles := [], bad := true } else x } }
      evLinkCrc (linkEndUnit e) 0 (2 ^ 16)))) ∧
    (∀ i, i ∉ s.fences.retrain → ∀ ok, exec (.linkRetrainDone i ok) s = .next (s.done s)) ∧
    (∀ i ∈ s.fences.retrain,
      let runs := del (del s.fences.crcRun (2 * i)) (2 * i + 1)
      exec (.linkRetrainDone i true) s = .next (s.done { s with fences := { s.fences with
        retrain := s.fences.retrain.filter (· ≠ i), retrainBad := del s.fences.retrainBad i, crcRun := runs,
        cdcDead := s.fences.cdcDead.filter fun e =>
          !(e.2 == linkUnit i || e.2 == linkEndUnit (2 * i) || e.2 == linkEndUnit (2 * i + 1)) } }) ∧
      (look 0 s.fences.retrainBad i < 2 → exec (.linkRetrainDone i false) s = .next (s.done { s with fences := { s.fences with
        retrainBad := put s.fences.retrainBad i (look 0 s.fences.retrainBad i + 1), crcRun := runs } })) ∧
      (2 ≤ look 0 s.fences.retrainBad i → exec (.linkRetrainDone i false) s = .next (s.done (State.raise { s with fences := { s.fences with
        retrain := s.fences.retrain.filter (· ≠ i), retrainBad := del s.fences.retrainBad i, linkDown := addTo s.fences.linkDown i,
        crcRun := runs } } evLinkCrc (linkEndUnit (look (2 * i) s.fences.retrainBy i)) 0 (2 ^ 16 + 2 ^ 17))))) ∧
    (∀ n, exec (.channelPhyRetrainDone n) s = .next (s.done { s with fences := { s.fences with
      cdcDead := s.fences.cdcDead.filter fun e => e.2 ≠ channelUnit n, phyRetrain := s.fences.phyRetrain.filter (· ≠ n) } }))

/-! ## Slots, arithmetic, verdict, pour -/

/-- A slot op of a program that issues ops, outside a span that takes it away, runs its body and notes how it ended; where the body meets
a HOST leaf that the host has not answered, nothing of it stands, the op waits with its indexed fields as they are, and each read that is
not yet under way goes to the host; a LINK_SEND then lets the LINK_REDUCE ops of the slot run that waited for it, and an UPDATE the update
ops; in such a span an op only counts; of a program that issues none it does nothing. This covers the product, drain, ladle, link, node
and update ops, for every state and every operand (R152, R159, R190, R194, R195, R202, R221, R226, R228, R298). -/
def Obligations.SlotOpsRunTheirBodies : Prop :=
  ∀ (s : State) (c x : Nat) (h : OpHead) (a : ProductArgs) (st : StashArgs) (ua : UpdateArgs) (k f n b : Nat) (rd : Bool),
    ∀ e ∈ ([(.core c, .fMm c h a, (fun w => w.product c h true a.pair a), id),
        (.core c, .bMmIg c h a, (fun w => w.product c h false a.pair a), id),
        (.core c, .bMmWg c h a, (fun w => w.product c h false true a), id),
        (.core c, .drainCfg c h k, (fun w => w.setCore { w.core c with cfg := some k }), id),
        (.core c, .drain c h k b f n, (fun w => w.drain c h k b f n), id), (.core c, .convert c h k f n, (fun w => w.convertOp c h k f n), id),
        (.core c, .stashPut c h st, (fun w => w.moveTiles c h st 1 2), id), (.core c, .stashGet c h st, (fun w => w.moveTiles c h st 2 1), id),
        (.core c, .spill c h st rd, (fun w => if rd then w.moveTiles c h st 3 1 else w.moveTiles c h st 1 3), id),
        (.core c, .linkSend c h k b f n, (fun w => w.linkSend c h k b f n), State.runReduces),
        (.core c, .linkReduce c h k, (fun w => w.linkReduce c h k), id), (.core c, .nodeAdd c h k, (fun w => w.nodeAdd c h k), id),
        (.unit x, .update x h ua, (fun w => w.updateBody x h ua), State.runSends)] :
          List (Prog × Instr × (State → State) × (State → State))),
      let p := e.1
      let i := e.2.1
      let base := s.opBase p
      let ran := e.2.2.1 base
      let waits : State := ran.heat.leafMiss.foldl (fun w m =>
        if w.port.hostAcc.any (fun y => decide (y.iova = m.1) && decide (y.purpose = .leaf)) then w else w.hostRead m.1 m.2 .leaf)
        (let w := (s.spanStep p).2
         { w with heat := { w.heat with waitOps := addTo w.heat.waitOps (w.resolve i) } })
      (s.takesOp p = true →
        exec i s = .next (s.done (e.2.2.2 ((if ran.heat.leafMiss = [] then ran else waits).noteEnd p i base)))) ∧
      (s.issues p = true → (s.spanStep p).1 = false →
        exec i s = .next (s.done (e.2.2.2 ((s.spanStep p).2.noteEnd p i (s.spanStep p).2)))) ∧
      (s.issues p = false → exec i s = .next (s.done (e.2.2.2 s)))

/-- The sum of a group of 32 products of finite values without escaped lanes is exact on the F-path, whatever the order of its
lanes (R82, R97). -/
def Obligations.GroupSumsAreExact : Prop :=
  let val (v : FV) : ℚ := match v with
    | .fin neg m e => (if neg then -1 else 1) * m * (2 : ℚ) ^ e
    | _ => 0
  ∀ l : List (Opd × Opd), (∀ p ∈ l, p.1.v.isFin = true ∧ p.2.v.isFin = true ∧ p.1.esc = false ∧ p.2.esc = false) →
    (groupSum true l).1.isFin = true ∧ (groupSum true l).2 = false ∧
    val (groupSum true l).1 = (l.map fun p => val p.1.v * val p.2.v).sum

/-- The canonical tree of R87: with node (0, j) the value v_j, and node (l + 1, j) the sum of its two children, or its first child
unchanged when the second covers no group, the sum of G values is node (d, 0) at the least d with G not above 2^d; the addition is
that of binary32 in plain mode, and that of pairs in pair mode. -/
def Obligations.TreeAddsItsNodesInPairs : Prop :=
  (∀ {α : Type} (add : α → α → α) (x : α) (v : List α) (node : Nat → Nat → α), v ≠ [] →
    (∀ j, node 0 j = v.getD j x) →
    (∀ l j, node (l + 1) j =
      if (2 * j + 1) * 2 ^ l < v.length then add (node l (2 * j)) (node l (2 * j + 1)) else node l (2 * j)) →
    ∀ d, v.length ≤ 2 ^ d → (d = 0 ∨ 2 ^ (d - 1) < v.length) → treeRoot add x v = node d 0) ∧
  (∀ a b : Pair, addIn false a b = { hi := fadd a.hi b.hi, lo := zero32 } ∧ addIn true a b = pairAdd a b)

/-- Tokens, alternates, suspension points and loops, and an op that does not complete: a wait for a count that is reached ends at
once, and any other opens a window until its time-out, which abandons what was written behind it; a signal counts on its own die at once,
crosses to another that answers, is lost with ABANDONED where none does, and at completion waits for the op before it and is not sent
where that was abandoned; an arriving increment counts while the heat's counters live; an alternate opens its span; a suspension point
marks its slot; a loop repeats its body count times, with the span and effect that it began in; a marked tile is recomputed; an abandoned
op raises EV_XLATE_FAULT of kind 5 where the host answered its access with an error, marks its destinations, leaves no valid bank and sets
ABANDONED (R28, R118, R226 to R229, R298). -/
def Obligations.ControlOpsSteerTheirPrograms : Prop :=
  ∀ (s : State) (c : Nat) (h : OpHead), let p := Prog.core c
    (s.takesOp p = true → let w := s.opBase p
      (∀ token count, let i := Instr.tokenWait c h token count
        (w.indexed p h.lpf count ≤ w.token (c / 64) token → exec i s = .next (s.done (w.noteEnd p i w))) ∧
        (w.token (c / 64) token < w.indexed p h.lpf count → exec i s = .next (s.done ((w.setSeq { w.seq p with
          waits := (w.seq p).waits ++ [⟨token, w.indexed p h.lpf count, (w.seq p).dests.length⟩] }).noteEnd p i w)))) ∧
      (∀ die token atDone, let i := Instr.tokenSignal c h die token atDone
        let own := dieUnit (c / 64)
        (atDone = false ∨ (w.seq p).prev = .done →
          (die = c / 64 → exec i s = .next (s.done ((w.addToken die token).noteEnd p i w))) ∧
          (die ≠ c / 64 → w.answers own (w.siteOf c).ev (dieUnit die) = true → exec i s = .next (s.done
            ((w.cross own (dieUnit die) 0xB 0 [((Config.tokenIndex die token).toNat, tokenFlit die token)]).noteEnd p i w))) ∧
          (die ≠ c / 64 → w.answers own (w.siteOf c).ev (dieUnit die) = false →
            exec i s = .next (s.done ((w.opAbandoned (w.siteOf c).ev []).noteEnd p i w)))) ∧
        (atDone = true → (w.seq p).prev = .waiting → exec i s = .next (s.done (State.noteEnd
          { w with heat := { w.heat with waitOps := addTo w.heat.waitOps i } } p i w))) ∧
        (atDone = true → (w.seq p).prev = .abandoned → exec i s = .next (s.done (w.noteEnd p i w)))) ∧
      (∀ flag mask count, let i := Instr.recomputeAlt c h flag mask count
        exec i s = .next (s.done
          ((w.setSeq { w.seq p with span := count, effect := bitOf mask (look 0 w.heat.alts flag) }).noteEnd p i w))) ∧
      (∀ point, let i := Instr.suspendPoint c h point
        exec i s = .next (s.done (w.urgentPoint.noteEnd p i w)))) ∧
    (∀ i ∈ [Instr.tokenWait c h 0 0, .tokenSignal c h 0 0 false, .recomputeAlt c h 0 0 0, .suspendPoint c h 0],
      (s.issues p = false → exec i s = .next (s.done s)) ∧
      (s.issues p = true → (s.spanStep p).1 = false → exec i s = .next (s.done ((s.spanStep p).2.noteEnd p i (s.spanStep p).2)))) ∧
    (s.coreIssues c = true →
      exec (.tokenWaitTimeout c) s = .next (s.done (s.waitEnds c)) ∧ exec (.tileRecompute c) s = .next (s.done (s.recomputeNext c))) ∧
    (s.coreIssues c = false →
      exec (.tokenWaitTimeout c) s = .next (s.done s) ∧ exec (.tileRecompute c) s = .next (s.done s)) ∧
    (let q := s.seq p
     (q.waits = [] → s.waitEnds c = s) ∧
     (∀ x rest, q.waits = x :: rest →
       let q' : Seq := { q with waits := rest, dests := if rest = [] then [] else q.dests }
       (s.token (c / 64) x.token < x.count →
         s.waitEnds c = (s.setSeq { q' with spoiled := true }).opAbandoned (s.siteOf c).ev (q.dests.drop x.from_)) ∧
       (x.count ≤ s.token (c / 64) x.token → s.waitEnds c = s.setSeq q'))) ∧
    (∀ j die token, s.heat.job = some j → j.phase.runs = true →
      exec (.tokenIncrementArrival die token) s = .next (s.done (s.addToken die token))) ∧
    (∀ die token, (∀ j, s.heat.job = some j → j.phase.runs = false) → exec (.tokenIncrementArrival die token) s = .next (s.done s)) ∧
    (∀ p : Prog, s.issues p = false →
      (∀ outer count inc, exec (.loop p h outer count inc) s = .next (s.done s)) ∧ exec (.endloop p) s = .next (s.done s)) ∧
    (∀ p : Prog, s.issues p = true → let w := (s.spanStep p).2
      let q := w.seq p
      (∀ outer count inc, exec (.loop p h outer count inc) s = .next (s.done
        (w.setSeq { q with loops := q.loops ++ [⟨outer, count, inc, 0, q.span, q.effect⟩] }))) ∧
      (q.loops = [] → exec (.endloop p) s = .next (s.done w)) ∧
      (∀ l, q.loops.getLast? = some l →
        (l.iter + 1 < l.count → exec (.endloop p) s = .next (s.done (w.setSeq { q with
          loops := q.loops.dropLast ++ [{ l with iter := l.iter + 1 }], span := l.span, effect := l.effect }))) ∧
        (l.count ≤ l.iter + 1 → exec (.endloop p) s = .next (s.done (w.setSeq { q with loops := q.loops.dropLast }))))) ∧
    (∀ (p : Prog) (k : DestKind) (a n : Nat) (he : Option (Nat × Bool)), s.running = false →
      exec (.opAbandon p k a n he) s = .next (s.done s)) ∧
    (∀ (p : Prog) (k : DestKind) (a n : Nat), s.running = true → let d := k.dest a n
      let abandoned (w : State) : State := (destMarks p d).foldl State.spoilBank (w.opAbandoned (w.progUnit p) (destMarks p d))
      exec (.opAbandon p k a n none) s = .next (s.done (abandoned s)) ∧
      (∀ va write, let w := s.raise evXlate (s.progUnit p) 0 (xlateData va write 5)
        exec (.opAbandon p k a n (some (va, write))) s = .next (s.done (if w.running then abandoned w else w)))) ∧
    (∀ unit dests, s.opAbandoned unit dests = State.cause { s with heat := { s.heat with
      invalid := dests.foldl addTo s.heat.invalid, abandons := s.heat.abandons + 1 } } unit 8)

/-- A slot tick, the verdict and the pour: a tick closes the slot, then opens the next with the timebase, stretch and severities in
force; without an operation it does nothing else to them; phases follow in order, those without slots passed by; a zero word commits, a
numerics veto replays up to its limit and is then skipped or halts, any other cause replays up to its own; the pour goes step by step, and
what it has left is done at the tick that closes its last slot (R26, R30, R32 to R35, R198 to R200, R333, R339, R341). -/
def Obligations.HeatsRunTickByTick : Prop :=
  ∀ s : State,
    (s.alive = false → exec .slotTick s = .next (s.done s)) ∧
    (s.alive = true → exec .slotTick s = .next (s.done
      (let v := if s.phase.any Phase.runs then s.closeCores else s
       ((fleetDeadlineOp v.abandonOps.closeDue.countSlot).openSlot.tickCommits.tickEdges.jobTick.closeHeld s.phase).clearLate.sampleLevel))) ∧
    (s.alive = true → s.heat.job = none → s.calm = true → ∃ t, exec .slotTick s = .next t ∧
      t.boot.timebase = s.boot.timebase + s.heat.slotLen + s.power.stretch ∧ t.power.stretch = s.power.nextStretch ∧
      t.events.sevForce = s.events.sevSet ∧ t.port.msixWindow = [] ∧ t.heat.job = none ∧ t.heat.links = [] ∧ t.heat.leafData = [] ∧
      t.heat.waitOps = [] ∧ t.heat.heatNum = s.heat.heatNum ∧ t.heat.cursor = s.heat.cursor ∧
      t.heat.sync.levelAt = s.pins.syncIn ∧ t.fuses = s.fuses ∧ t.pending = s.pending) ∧
    (s.heat.job = none → s.jobTick = s) ∧
    (∀ j, s.heat.job = some j → j.cancel = true → s.jobTick = s.endJob stCancelled) ∧
    (∀ j, s.heat.job = some j → j.cancel = false →
      (j.phase = .suspended → s.jobTick = s) ∧
      (j.phase = .verdict → s.heat.fixed = none →
        s.jobTick = { s with heat := { s.heat with job := some { j with slotInHeat := j.slotInHeat + 1 } } }) ∧
      (∀ w, j.phase = .verdict → s.heat.fixed = some w → s.fleet.exch.on = false →
        s.jobTick = State.openPour { s with heat := { s.heat with job := some { j with slotInHeat := j.slotInHeat + 1 } } } w) ∧
      (j.phase = .pour →
        let n : State := { s with heat := { s.heat with job := some { j with left := j.left - 1, slotInHeat := j.slotInHeat + 1 } } }
        (1 < j.left → s.jobTick = n) ∧ (j.left ≤ 1 → s.jobTick = (n.finishPour.setJob Job.closePour).workDone))) ∧
    (let v := s.closeEvents fun e => !s.holdsRecord e
     s.openSlot = { v with
       boot := { v.boot with timebase := v.boot.timebase + v.heat.slotLen + v.power.stretch },
       power := { v.power with stretch := v.power.nextStretch }, events := { v.events with sevForce := v.events.sevSet },
       port := { v.port with msixWindow := [] }, heat := { v.heat with leafData := [], links := [] } }) ∧
    (∀ (j : Job) (t : Template), j.skipOps = false →
      (1 < j.left → j.nextSlot t = { j with slotInHeat := j.slotInHeat + 1, left := j.left - 1 }) ∧
      (j.left ≤ 1 → j.phase = .admitting →
        (0 < t.ramp → (j.nextSlot t).phase = .ramp ∧ (j.nextSlot t).left = t.ramp) ∧
        (t.ramp = 0 → 0 < t.steady → (j.nextSlot t).phase = .steady ∧ (j.nextSlot t).left = t.steady) ∧
        (t.ramp = 0 → t.steady = 0 → 0 < t.flush → (j.nextSlot t).phase = .flush ∧ (j.nextSlot t).left = t.flush) ∧
        (t.ramp = 0 → t.steady = 0 → t.flush = 0 → 0 < t.reduce → (j.nextSlot t).phase = .reduce ∧ (j.nextSlot t).left = t.reduce) ∧
        (t.ramp = 0 → t.steady = 0 → t.flush = 0 → t.reduce = 0 → (j.nextSlot t).phase = .verdict)) ∧
      (j.left ≤ 1 → j.phase = .ramp → 0 < t.steady → (j.nextSlot t).phase = .steady) ∧
      (j.left ≤ 1 → j.phase = .steady → 0 < t.flush → (j.nextSlot t).phase = .flush) ∧
      (j.left ≤ 1 → j.phase = .flush → 0 < t.reduce → (j.nextSlot t).phase = .reduce) ∧
      (j.left ≤ 1 → j.phase = .reduce → (j.nextSlot t).phase = .verdict ∧ (j.nextSlot t).left = 1)) ∧
    (s.fixDue = true → exec .verdictFix s = .next (s.done
      (let v := s.raiseNumerics
       { v with heat := { v.heat with fixed := some v.statusOr } }))) ∧
    (s.fixDue = false → exec .verdictFix s = .next (s.done s)) ∧
    (∀ (j : Job) (w : Nat) (m : Bool),
      (j.dispose 0 m = { j with disposal := .commit }) ∧
      (w ≠ 0 → j.noReplay = true → j.dispose w m = { j with disposal := .replay }) ∧
      (w ≠ 0 → j.noReplay = false → otherCauses w = 0 → j.numVetoes < j.args.numReplays →
        j.dispose w m = { j with numVetoes := j.numVetoes + 1, nonNumRun := 0, disposal := .replay }) ∧
      (w ≠ 0 → j.noReplay = false → otherCauses w = 0 → j.args.numReplays ≤ j.numVetoes → j.args.afterHalt = false →
        j.dispose w m = { j with numVetoes := j.numVetoes + 1, nonNumRun := 0, disposal := .skip }) ∧
      (w ≠ 0 → j.noReplay = false → otherCauses w = 0 → j.args.numReplays ≤ j.numVetoes → j.args.afterHalt = true →
        j.dispose w m = { j with
          numVetoes := j.numVetoes + 1, nonNumRun := 0, disposal := .replay, endStatus := some (j.endStatus.getD stVetoed) }) ∧
      (w ≠ 0 → j.noReplay = false → otherCauses w ≠ 0 → bitOf w 12 = false → m = false → j.nonNumRun + 1 < j.args.replayLimit →
        j.dispose w m = { j with nonNumRun := j.nonNumRun + 1, disposal := .replay })) ∧
    ((∀ j, s.heat.job = some j → j.phase ≠ .pour ∨ j.pourStep ≠ 0) → exec .pour s = .next (s.done s)) ∧
    ((∀ j, s.heat.job = some j → j.phase ≠ .pour ∨ j.pourStep = 0 ∨ 7 ≤ j.pourStep) → exec .pourStepDone s = .next (s.done s)) ∧
    (∀ j, s.heat.job = some j → j.phase = .pour → j.pourStep = 0 → exec .pour s = .next (s.done { s with heat := { s.heat with
      passSums := [], job := some { j with pourStep := if j.disposal = .commit then 1 else 4 } } })) ∧
    (∀ j p, s.heat.job = some j → s.heat.pattern = some p → j.phase = .pour →
      (j.pourStep = 1 → exec .pourStepDone s = .next (s.done { s with heat := { s.heat with job := some { j with pourStep := 2 } } })) ∧
      (j.pourStep = 2 → exec .pourStepDone s = .next (s.done { s with heat := { s.heat with job := some { j with pourStep := 3 } } })) ∧
      (j.pourStep = 3 → exec .pourStepDone s = .next (s.done (s.foldTrackers.setJob fun j => { j with pourStep := 4 }))) ∧
      (j.pourStep = 4 → exec .pourStepDone s = .next (s.done ((s.pourApply (j.disposal == .commit)).setJob fun j => { j with pourStep := 5 }))) ∧
      (j.pourStep = 6 → exec .pourStepDone s = .next (s.done ((s.pourRecord p j).setJob fun j => { j with pourStep := 7 }))))

/-- Step 5 of a pour: a heat under REPLAY keeps its heat number and its cursor, and its list entry, so that it reruns on the same
micro-batches with the same counters; one under SKIP takes the next number and moves the cursor on without an update; a commit counts
one update (R34, R36). -/
def Obligations.ReplayKeepsItsHeatAndSkipMovesOn : Prop :=
  ∀ (s : State) (j : Job) (p : Pattern), s.heat.job = some j → s.heat.pattern = some p → j.phase = .pour → j.pourStep = 5 →
    (j.disposal = .replay → exec .pourStepDone s = .next (s.done
      { s with heat := { s.heat with job := some { j with pourStep := 6 } } })) ∧
    (j.disposal = .skip → exec .pourStepDone s = .next (s.done
      { s with heat := { s.heat with
        heatNum := (s.heat.heatNum + 1) % 2 ^ 64, cursor := (s.heat.cursor + microBatches j.entry) % 2 ^ 64,
        job := some { j with pourStep := 6 } } })) ∧
    (j.disposal = .commit → exec .pourStepDone s = .next (s.done
      { s with heat := { s.heat with
        heatNum := (s.heat.heatNum + 1) % 2 ^ 64, cursor := (s.heat.cursor + microBatches j.entry) % 2 ^ 64,
        updates := s.heat.updates + 1, job := some { j with pourStep := 6 } } })) ∧
    (j.disposal = .replay → j.closePour.h = j.h ∧ j.closePour.entry = j.entry ∧ j.closePour.disposed = j.disposed ∧
      j.closePour.attempt = j.attempt + 1) ∧
    (j.disposal ≠ .replay → j.closePour.h = j.h + 1 ∧ j.closePour.entry = j.nextEntry.getD [] ∧ j.closePour.disposed = j.disposed + 1 ∧
      j.closePour.attempt = 0)

/-- Pour sync: an edge is seen at the tick when it leads it by more than 64 ac, and at the next one otherwise; a due pulse goes out;
the limit of a wait raises EV_SYNC_LATE once, and under WAIT changes nothing else (R39 to R43). -/
def Obligations.PourSyncSeesItsEdges : Prop :=
  ∀ s : State,
    (∀ acBefore, s.pins.syncIn = false → exec (.pourSyncInEdge true acBefore) s = .next (s.done { s with
      pins := { s.pins with syncIn := true },
      heat := { s.heat with sync := { s.heat.sync with
        levelAt := if 64 ≤ acBefore then true else s.heat.sync.levelAt,
        arriving := s.heat.sync.arriving ++ [if 64 < acBefore then 0 else 1] } } })) ∧
    (∀ acBefore, s.pins.syncIn = true → exec (.pourSyncInEdge false acBefore) s = .next (s.done { s with
      pins := { s.pins with syncIn := false },
      heat := { s.heat with sync := { s.heat.sync with levelAt := if 64 ≤ acBefore then false else s.heat.sync.levelAt } } })) ∧
    (∀ acBefore, exec (.pourSyncInEdge s.pins.syncIn acBefore) s = .next (s.done s)) ∧
    (s.heat.sync.pulseDue = true → exec .masterSyncPulse s = .next (s.done { s with
      heat := { s.heat with sync := { s.heat.sync with pulseDue := false, pulsing := true } },
      out := s.out ++ [.syncPulse s.syncAdvance] })) ∧
    (s.heat.sync.pulseDue = false → exec .masterSyncPulse s = .next (s.done s)) ∧
    (s.limitDue = true → exec .syncWaitExpiry s = .next (s.done
      (let w := State.raise { s with heat := { s.heat with sync := { s.heat.sync with lateSeen := true } } } evSyncLate iodUnit 0 0
       if w.syncWaits then w else if w.syncRole = 2 then w.heatBoundary.setSync fun y => { y with window := w.pourWaitMax }
       else w.setSync fun y => { y with pulseDue := true }))) ∧
    (s.limitDue = false → exec .syncWaitExpiry s = .next (s.done s))

/-! ## Long operations and the fleet -/

/-- A chunk's end: a copy or fill whose descriptors are here, whose writes are done, that holds its ladle and that no change of the
translation tables holds back moves its units, and a SCATTER first gets its ladle; a skim whose controllers answer reads its chunk and
counts; one that met a fenced reply ends with ST_FENCED; a suspended operation has no chunk; then the operation ends, is suspended, or
goes on; an image that has moved completes its command, with the words poisoned that were not usable (R251, R256, R260, R279, R281, R282,
R306, R308, R346). -/
def Obligations.ChunksMoveOperationsOn : Prop :=
  (∀ (s : State) (ring tag : Nat), s.findTag ring tag = none →
    exec (.copyChunkDone ring tag) s = .next (s.done s) ∧ exec (.skimChunkDone ring tag) s = .next (s.done s) ∧
    exec (.contextTransferDone ring tag) s = .next (s.done s)) ∧
  ∀ (s : State) (ring tag : Nat) (o : Op), s.findTag ring tag = some o →
    let begun : Op := { o with state := if o.state = .queued then .running else o.state }
    (o.state ≠ .suspended → o.waitFor = [] → s.writesDone o = true → s.tablesChange = false →
      (o.endWith = some stFenced → exec (.copyChunkDone ring tag) s = .next (s.done (s.endOp o stFenced))) ∧
      (o.endWith ≠ some stFenced →
        (∀ c, o.body = .copy c → c.src ≠ [] → c.dst ≠ [] → s.ladleWaits o = false → (o.opc = 0x10 ∨ c.inHost = false ∨ c.haveLst = true) →
          (c.ladle < 40 → exec (.copyChunkDone ring tag) s = .next (s.done (s.copyChunk begun c))) ∧
          (40 ≤ c.ladle → exec (.copyChunkDone ring tag) s = .next (s.done (s.scatterLadle o c)))) ∧
        (∀ c, o.body = .copy c → (c.src = [] ∨ c.dst = [] ∨ s.ladleWaits o = true ∨ (o.opc ≠ 0x10 ∧ c.inHost = true ∧ c.haveLst = false)) →
          exec (.copyChunkDone ring tag) s = .next (s.done s)) ∧
        (∀ f, o.body = .fill f → f.dst ≠ [] → f.ladle < 40 → s.ladleWaits o = false →
          exec (.copyChunkDone ring tag) s = .next (s.done (s.fillChunk begun f))) ∧
        (∀ f, o.body = .fill f → (f.dst = [] ∨ 40 ≤ f.ladle ∨ s.ladleWaits o = true) →
          exec (.copyChunkDone ring tag) s = .next (s.done s)))) ∧
    ((o.state = .suspended ∨ o.waitFor ≠ [] ∨ s.writesDone o = false ∨ s.tablesChange = true) →
      exec (.copyChunkDone ring tag) s = .next (s.done s)) ∧
    (∀ k, o.body = .skim k → (o.state = .suspended ∨ k.ending ≠ none) → exec (.skimChunkDone ring tag) s = .next (s.done s)) ∧
    (∀ k, o.body = .skim k → o.state ≠ .suspended → k.ending = none →
      let n := min 16777216 (k.length - k.pos)
      (o.endWith ≠ some stFenced → s.skimFenced k (k.base + k.pos) n = false → exec (.skimChunkDone ring tag) s = .next (s.done
        (let r := s.skimRange k (k.base + k.pos) n
         let k' : SkimOp := { r.1 with pos := r.1.pos + n, chunks := r.1.chunks + 1, noSram := r.2.running }
         let w := r.2.setRegs fun g => { g with skimChunks := k'.chunks }
         let o' : Op := { o with body := .skim k' }
         (w.setOp o').chunkBoundary o' (decide (k'.length ≤ k'.pos))))) ∧
      ((o.endWith = some stFenced ∨ s.skimFenced k (k.base + k.pos) n = true) →
        exec (.skimChunkDone ring tag) s = .next (s.done (s.endOp o stFenced)))) ∧
    (∀ w : State, ∀ st, o.endWith = some st → w.chunkBoundary o true = w.endOp o st) ∧
    (∀ w : State, o.endWith = none → o.cancel = true → w.chunkBoundary o true = w.endOp o stCancelled) ∧
    (∀ w : State, o.endWith = none → o.cancel = false → w.chunkBoundary o true = w.endOp o stOk) ∧
    (∀ w : State, o.endWith = none → o.cancel = false → o.state = .running → w.chunkBoundary o false = w.setOp o) ∧
    (∀ c, o.body = .context c → (c.done = false ∨ o.waitFor ≠ []) → exec (.contextTransferDone ring tag) s = .next (s.done s)) ∧
    (∀ c, o.body = .context c → c.done = true → o.waitFor = [] → c.save = true →
      exec (.contextTransferDone ring tag) s = .next (s.done
        ((if c.host then s else c.bad.foldl (fun w i => w.poison (c.area + i)) (s.writeMem c.area c.image).2).finishOp o stOk
          c.image.length 0))) ∧
    (∀ c, o.body = .context c → c.done = true → o.waitFor = [] → c.save = false → s.running = false → s.planLines = [] →
      let r := s.readMem c.area c.length
      (∀ p, c.host = true → s.heat.pattern = some p →
        exec (.contextTransferDone ring tag) s = .next (s.done (s.restoreImage o p c.image []))) ∧
      (∀ p, c.host = false → r.2.heat.pattern = some p → exec (.contextTransferDone ring tag) s = .next (s.done
        (r.2.restoreImage o p r.1.bytes (trueAt (s.badAt true c.area c.length))))) ∧
      (c.host = true → s.heat.pattern = none → exec (.contextTransferDone ring tag) s = .next (s.done (s.finishOp o stConfig 0 0))) ∧
      (c.host = false → r.2.heat.pattern = none →
        exec (.contextTransferDone ring tag) s = .next (s.done (r.2.finishOp o stConfig 0 0)))) ∧
    (∀ c, o.body = .context c → c.done = true → o.waitFor = [] → c.save = false → s.running = true →
      exec (.contextTransferDone ring tag) s = .next (s.done (s.finishOp o stConfig 0 0))) ∧
    (∀ c, o.body = .context c → c.done = true → o.waitFor = [] → c.save = false → s.running = false → s.planLines ≠ [] →
      exec (.contextTransferDone ring tag) s = .next (s.done (s.waitLines o s.planLines)))

/-- The fleet: without membership, and outside an exchange, none of its commands does anything but take or ignore a message; in one, a
trained tensor whose root is written goes up once; the owner of a tile sums its leaves, writes the final pairs, keeps its error and sends
the tile down; a write that failed loses its partner; a message whose header does not fit is ignored and counted, one of an earlier
exchange is dropped, one of another heat loses its sender, a status is taken once, and a tile goes to its sum or its region; the word is frozen
when the exchange is done or its deadline has passed, which loses who is missing; the combined word ends the verdict, at the latest 64 slots
after the deadline, which loses who is missing then (R317 to R322, R324 to R327). -/
def Obligations.FleetExchangesAndAgrees : Prop :=
  (∀ s : State, s.fleet.member = none → ∀ (tensor t rank ofs : Nat) (b : List Byte),
    ∀ e ∈ [Instr.fleetUplink tensor, .fleetReduceTile t, .fleetWriteFailed rank, .fleetMessageAccept ofs b, .fleetStatusFreeze,
      .fleetDeadlineExpiry, .fleetVerdictEnd], exec e s = .next (s.done s)) ∧
  ∀ (s : State) (m : Member), s.fleet.member = some m →
    let x := s.fleet.exch
    (x.on = false → ∀ tensor t rank, ∀ e ∈ [Instr.fleetUplink tensor, .fleetReduceTile t, .fleetWriteFailed rank, .fleetStatusFreeze,
      .fleetDeadlineExpiry, .fleetVerdictEnd], exec e s = .next (s.done s)) ∧
    (∀ tensor d, s.trainedDescs.find? (fun e => e.1 = tensor) = some (tensor, d) → x.on = true → s.wordOpen = true →
      tensor ∉ x.uplinked → s.rootsWritten tensor d = true →
      exec (.fleetUplink tensor) s = .next (s.done ((List.range (tileCount d.n)).foldl (fun w L => w.uplinkTile m tensor d L)
        { s with fleet := { s.fleet with exch := { x with uplinked := x.uplinked ++ [tensor] } } }))) ∧
    (∀ tensor, (s.trainedDescs.find? (fun e => e.1 = tensor) = none ∨ s.wordOpen = false ∨ tensor ∈ x.uplinked) →
      exec (.fleetUplink tensor) s = .next (s.done s)) ∧
    (∀ rank ∈ m.present, rank ≠ m.rank → x.on = true → x.ended = false →
      exec (.fleetWriteFailed rank) s = .next (s.done (s.losePeer m rank 1 0))) ∧
    (∀ rank, (rank ∉ m.present ∨ rank = m.rank ∨ x.ended = true) → exec (.fleetWriteFailed rank) s = .next (s.done s)) ∧
    (∀ ofs b, (s.linkLive = false ∨ m.rxLen < ofs + b.length) → exec (.fleetMessageAccept ofs b) s = .next (s.done s)) ∧
    (∀ ofs b, s.linkLive = true → ofs + b.length ≤ m.rxLen →
      let w := (s.writeMem (m.rxBase + ofs) b).2.snoop 125 0x6 (MsgHdr.dec b).tensor (addrBlocks (m.rxBase + ofs) b)
      let g := MsgHdr.dec b
      let y := w.fleet.exch
      let takes (v : State) : Prop := exec (.fleetMessageAccept ofs b) s = .next (s.done v)
      (headerPasses m b = false → takes { w with fleet := { w.fleet with ignored := w.fleet.ignored + 1 } }) ∧
      (headerPasses m b = true → (y.on = false ∨ y.ended = true ∨ w.slotOf m g ≠ some ofs) → takes w) ∧
      (headerPasses m b = true → y.on = true → y.ended = false → w.slotOf m g = some ofs →
        (g.fseq < m.fseq → takes w) ∧
        (m.fseq < g.fseq → takes (w.losePeer m g.src 2 g.heat)) ∧
        (g.fseq = m.fseq → (g.heat ≠ y.heatNum ∨ g.updates ≠ y.updates) → takes (w.losePeer m g.src 2 g.heat)) ∧
        (g.fseq = m.fseq → g.heat = y.heatNum → g.updates = y.updates →
          (g.kind = 3 → g.src ≠ m.rank → (∀ e ∈ y.statuses, e.1 ≠ g.src) →
            takes { w with fleet := { w.fleet with exch := { y with statuses := y.statuses ++ [(g.src, g.status, g.first)] } } }) ∧
          (g.kind = 3 → (g.src = m.rank ∨ ∃ e ∈ y.statuses, e.1 = g.src) → takes w) ∧
          (∀ n d t, w.trainedDescs.find? (fun e => e.1 = g.tensor) = some (n, d) → posOfTile w.trainedDescs g.tensor g.l = some t →
            (g.kind = 1 → takes (w.acceptUp m g d t (b.drop 64))) ∧ (g.kind = 2 → takes (w.acceptDown m g d t (b.drop 64))))))) ∧
    (∀ t tensor d L, tileAtPos s.trainedDescs t = some (tensor, d, L) → x.on = true → s.wordOpen = true →
      m.owner (tileTotal s.trainedDescs) t = m.rank → t ∉ x.reduced → x.leavesIn m t = true →
      exec (.fleetReduceTile t) s = .next (s.done
        (let count := (tileOrder d.n L).length
         let sums := (List.range count).map fun k => treeRoot pairAdd pair0 (x.leafPairs m t k)
         let hi := sums.map (·.hi)
         let b := wireTile m.wire d.n L hi
         let q := wireVals m.wire d.n L b
         let w := (s.wireNonfinite (s.layerOfTensor tensor) m.wire L d.n hi).writePairs tensor d.n L q
         let e := w.readRes32 m (1 - m.half) tensor L count
         let w := (e.2.writeRes32 m (1 - m.half) tensor L ((e.1.zip (sums.zip q)).map fun y =>
           fadd y.1 (fadd (fsub y.2.1.hi y.2.2) y.2.1.lo))).setExch fun x => { x with reduced := x.reduced ++ [t] }
         (m.present.filter fun r => r ≠ m.rank).foldl (fun w r =>
           w.sendMsg m (m.downSlot (tileTotal s.trainedDescs) t) (w.header m 2 r tensor L 0 0) (wireBytes b)) w))) ∧
    (∀ t, (tileAtPos s.trainedDescs t = none ∨ s.wordOpen = false ∨ m.owner (tileTotal s.trainedDescs) t ≠ m.rank ∨ t ∈ x.reduced ∨
      x.leavesIn m t = false) → exec (.fleetReduceTile t) s = .next (s.done s)) ∧
    (x.on = true → s.inVerdict = true → x.frozen = none →
      (s.exchangeDone m = true → exec .fleetStatusFreeze s = .next (s.done (s.freezeWord m))) ∧
      (s.exchangeDone m = false → exec .fleetStatusFreeze s = .next (s.done s)) ∧
      (m.deadline ≤ x.slots → exec .fleetDeadlineExpiry s = .next (s.done
        (((m.present.filter fun r => decide (r ≠ m.rank) && !(s.missingFrom m r).isEmpty).foldl (fun w r => w.losePeer m r 0 0) s).freezeWord m))) ∧
      (x.slots < m.deadline → exec .fleetDeadlineExpiry s = .next (s.done s))) ∧
    ((s.inVerdict = false ∨ x.frozen ≠ none) →
      exec .fleetStatusFreeze s = .next (s.done s) ∧ exec .fleetDeadlineExpiry s = .next (s.done s)) ∧
    (let lacks := m.present.filter fun r => decide (r ≠ m.rank) && !x.statuses.any fun e => e.1 = r
     let ends (v : State) : State :=
       let c := v.fleet.exch.combine
       { v with
         fleet := { v.fleet with exch := { v.fleet.exch with
           ended := true, fleetFst := if c = 0 then 0 else v.fleet.exch.fleetFirst m.rank } },
         heat := { v.heat with fixed := some c } }
     (∀ w, x.on = true → s.inVerdict = true → x.frozen = some w → x.ended = false →
       (lacks = [] → exec .fleetVerdictEnd s = .next (s.done (ends s))) ∧
       (lacks ≠ [] → m.deadline + 64 ≤ x.slots + 1 →
         exec .fleetVerdictEnd s = .next (s.done (ends (lacks.foldl (fun v r => v.losePeer m r 0 0) s)))) ∧
       (lacks ≠ [] → x.slots + 1 < m.deadline + 64 → exec .fleetVerdictEnd s = .next (s.done s))) ∧
     ((s.inVerdict = false ∨ x.frozen = none ∨ x.ended = true) → exec .fleetVerdictEnd s = .next (s.done s)))
end

