-- ==== Sys2Proof/Laws/Exec.lean ====
section
/-! SUPPORT. What exec does, constructor by constructor: the effect of the command, and what is due at its end. Proofs cite these
and never unfold exec. -/

namespace Sys2Proof.Machine

theorem exec_nop (s : State) (c : Rc) :
    exec (.nop c) s = .next (s.done (s.submit (.nop c) c 0x00)) := rfl

theorem exec_loadPattern (s : State) (c : Rc) (image length : Nat) (resetTrackers : Bool) :
    exec (.loadPattern c image length resetTrackers) s = .next (s.done (s.submit (.loadPattern c image length resetTrackers) c 0x01)) := rfl

theorem exec_bindTensors (s : State) (c : Rc) (list entries : Nat) :
    exec (.bindTensors c list entries) s = .next (s.done (s.submit (.bindTensors c list entries) c 0x02)) := rfl

theorem exec_runHeats (s : State) (c : Rc) (a : RunArgs) :
    exec (.runHeats c a) s = .next (s.done (s.submit (.runHeats c a) c 0x03)) := rfl

theorem exec_suspend (s : State) (c : Rc) (ring tag : Nat) :
    exec (.suspend c ring tag) s = .next (s.done (s.submit (.suspend c ring tag) c 0x04)) := rfl

theorem exec_resume (s : State) (c : Rc) (ring tag : Nat) :
    exec (.resume c ring tag) s = .next (s.done (s.submit (.resume c ring tag) c 0x05)) := rfl

theorem exec_cancel (s : State) (c : Rc) (ring tag : Nat) :
    exec (.cancel c ring tag) s = .next (s.done (s.submit (.cancel c ring tag) c 0x06)) := rfl

theorem exec_saveContext (s : State) (c : Rc) (area length : Nat) (host : Bool) :
    exec (.saveContext c area length host) s = .next (s.done (s.submit (.saveContext c area length host) c 0x07)) := rfl

theorem exec_restoreContext (s : State) (c : Rc) (area length : Nat) (host : Bool) :
    exec (.restoreContext c area length host) s = .next (s.done (s.submit (.restoreContext c area length host) c 0x08)) := rfl

theorem exec_copy (s : State) (c : Rc) (src dst : Nat) (perm : List Nat) :
    exec (.copy c src dst perm) s = .next (s.done (s.submit (.copy c src dst perm) c 0x10)) := rfl

theorem exec_gather (s : State) (c : Rc) (src dst : Nat) (perm : List Nat) (list entries : Nat) (listHost : Bool) :
    exec (.gather c src dst perm list entries listHost) s = .next (s.done (s.submit (.gather c src dst perm list entries listHost) c 0x11)) := rfl

theorem exec_scatter (s : State) (c : Rc) (src dst : Nat) (perm : List Nat) (list entries : Nat) (listHost : Bool) :
    exec (.scatter c src dst perm list entries listHost) s = .next (s.done (s.submit (.scatter c src dst perm list entries listHost) c 0x12)) := rfl

theorem exec_fill (s : State) (c : Rc) (a : FillArgs) :
    exec (.fill c a) s = .next (s.done (s.submit (.fill c a) c 0x13)) := rfl

theorem exec_skim (s : State) (c : Rc) (base length summary : Nat) :
    exec (.skim c base length summary) s = .next (s.done (s.submit (.skim c base length summary) c 0x20)) := rfl

theorem exec_fenceUnit (s : State) (c : Rc) (unit : Nat) :
    exec (.fenceUnit c unit) s = .next (s.done (s.submit (.fenceUnit c unit) c 0x21)) := rfl

theorem exec_query (s : State) (c : Rc) (code target out outLen : Nat) :
    exec (.query c code target out outLen) s = .next (s.done (s.submit (.query c code target out outLen) c 0x22)) := rfl

theorem exec_setSeverity (s : State) (c : Rc) (code sev : Nat) :
    exec (.setSeverity c code sev) s = .next (s.done (s.submit (.setSeverity c code sev) c 0x23)) := rfl

theorem exec_ackEvent (s : State) (c : Rc) (seq : Nat) :
    exec (.ackEvent c seq) s = .next (s.done (s.submit (.ackEvent c seq) c 0x24)) := rfl

theorem exec_fleetJoin (s : State) (c : Rc) (a : JoinArgs) :
    exec (.fleetJoin c a) s = .next (s.done (s.submit (.fleetJoin c a) c 0x40)) := rfl

theorem exec_fleetLeave (s : State) (c : Rc) :
    exec (.fleetLeave c) s = .next (s.done (s.submit (.fleetLeave c) c 0x41)) := rfl

theorem exec_submissionDoorbell (s : State) (ring value : Nat) :
    exec (.submissionDoorbell ring value) s = .next (s.done (submissionDoorbellOp ring value s)) := rfl

theorem exec_descriptorDispatch (s : State) (ring : Nat) :
    exec (.descriptorDispatch ring) s = .next (s.done (dispatchOp ring s)) := rfl

theorem exec_completionHeadDoorbell (s : State) (value : Nat) :
    exec (.completionHeadDoorbell value) s = .next (s.done (completionHeadOp value s)) := rfl

theorem exec_eventHeadDoorbell (s : State) (value : Nat) :
    exec (.eventHeadDoorbell value) s = .next (s.done (eventHeadOp value s)) := rfl

theorem exec_interruptSend (s : State) (vector : Nat) :
    exec (.interruptSend vector) s = .next (s.done (interruptOp vector s)) := rfl

theorem exec_hostTimeoutExpiry (s : State) (id : Nat) :
    exec (.hostTimeoutExpiry id) s = .next (s.done (hostTimeoutOp id s)) := rfl

theorem exec_getIdentity (s : State) (req : List Byte) :
    exec (.getIdentity req) s = .next (s.done (mbxGetIdentity req s)) := rfl

theorem exec_authNonce (s : State) (req : List Byte) :
    exec (.authNonce req) s = .next (s.done (mbxAuthNonce req s)) := rfl

theorem exec_auth (s : State) (req : List Byte) :
    exec (.auth req) s = .next (s.done (mbxAuth req s)) := rfl

theorem exec_authLockoutExpiry (s : State) :
    exec .authLockoutExpiry s = .next (s.done (mbxLockoutExpiry s)) := rfl

theorem exec_release (s : State) (req : List Byte) :
    exec (.release req) s = .next (s.done (mbxRelease req s)) := rfl

theorem exec_enrollKey (s : State) (req : List Byte) :
    exec (.enrollKey req) s = .next (s.done (mbxEnrollKey req s)) := rfl

theorem exec_revokeKey (s : State) (req : List Byte) :
    exec (.revokeKey req) s = .next (s.done (mbxRevokeKey req s)) := rfl

theorem exec_stageFirmware (s : State) (req : List Byte) :
    exec (.stageFirmware req) s = .next (s.done (mbxStageFirmware req s)) := rfl

theorem exec_advanceSvn (s : State) (req : List Byte) :
    exec (.advanceSvn req) s = .next (s.done (mbxAdvanceSvn req s)) := rfl

theorem exec_clearStartFail (s : State) (req : List Byte) :
    exec (.clearStartFail req) s = .next (s.done (mbxClearStartFail req s)) := rfl

theorem exec_resetModule (s : State) (req : List Byte) :
    exec (.resetModule req) s = .next (s.done (mbxResetModule req s)) := rfl

theorem exec_auditRead (s : State) (req : List Byte) :
    exec (.auditRead req) s = .next (s.done (mbxAuditRead req s)) := rfl

theorem exec_auditCheckpoint (s : State) (req : List Byte) :
    exec (.auditCheckpoint req) s = .next (s.done (mbxAuditCheckpoint req s)) := rfl

theorem exec_debugNonce (s : State) (req : List Byte) :
    exec (.debugNonce req) s = .next (s.done (mbxDebugNonce req s)) := rfl

theorem exec_debugUnlock (s : State) (req : List Byte) :
    exec (.debugUnlock req) s = .next (s.done (mbxDebugUnlock req s)) := rfl

theorem exec_getCerts (s : State) (offset length : Nat) :
    exec (.getCerts offset length) s = .next (s.done (getCertBytes offset length s)) := rfl

theorem exec_attest (s : State) (nonce : List Byte) :
    exec (.attest nonce) s = .next (s.done (attestReport nonce s)) := rfl

theorem exec_smbusBlockRead (s : State) (command : Nat) :
    exec (.smbusBlockRead command) s = .next (s.done (s.smbusRead command)) := rfl

theorem exec_jtagBoundaryInstruction (s : State) (clamp : Bool) :
    exec (.jtagBoundaryInstruction clamp) s = .next (s.done (s.boundary clamp)) := rfl

theorem exec_jtagPrivateSession (s : State) (scope : Nat) (accesses : List JtagAccess) :
    exec (.jtagPrivateSession scope accesses) s = .next (s.done (s.jtagSession scope accesses)) := rfl

theorem exec_commit (s : State) (block : CommitBlock) (acBefore : Nat) :
    exec (.commit block acBefore) s = .next (s.done (s.onBar fun t => t.commitGo block (decide (acBefore < 64)))) := rfl

theorem exec_ringEnable (s : State) (ring : RingSel) :
    exec (.ringEnable ring) s = .next (s.done (s.onBar fun t => t.enableRing ring)) := rfl

theorem exec_ringDisable (s : State) (ring : Nat) :
    exec (.ringDisable ring) s = .next (s.done (s.onBar fun t => t.disableRing ring)) := rfl

theorem exec_severityMapWrite (s : State) (w : Nat) (value : Word) :
    exec (.severityMapWrite w value) s = .next (s.done (s.onBar fun t => t.severityWrite w value.toNat)) := rfl

theorem exec_clearSticky (s : State) :
    exec .clearSticky s = .next (s.done (s.onBar fun t => t.stickyWrite 1)) := rfl

theorem exec_cancelClear (s : State) :
    exec .cancelClear s = .next (s.done (s.onBar fun t => t.stickyWrite 2)) := rfl

theorem exec_splitWrite (s : State) :
    exec .splitWrite s = .next (s.done (s.onBar State.splitGo)) := rfl

theorem exec_snooperRunWrite (s : State) (snooper : Nat) (value : Word) :
    exec (.snooperRunWrite snooper value) s = .next (s.done (s.onBar fun t => t.snooperWrite snooper 0x08 value.toNat)) := rfl

theorem exec_registerWrite (s : State) (offset size : Nat) (value : Word) :
    exec (.registerWrite offset size value) s = .next (s.done (s.regWrite offset size value.toNat)) := rfl

theorem exec_installerFieldFlashWrite (s : State) (ok : Bool) :
    exec (.installerFieldFlashWrite ok) s = .next (s.done (s.flashDone ok)) := rfl

theorem exec_hostMemRead (s : State) (decoder offset length : Nat) (cached : Bool) :
    exec (.hostMemRead decoder offset length cached) s = .next (s.done (s.hostMemRead decoder offset length cached)) := rfl

theorem exec_hostMemWrite (s : State) (decoder offset : Nat) (data : List Byte) :
    exec (.hostMemWrite decoder offset data) s = .next (s.done (s.hostMemWrite decoder offset data)) := rfl

theorem exec_hostSnoop (s : State) (line : Nat) :
    exec (.hostSnoop line) s = .next (s.done (s.hostSnoopAnswer line)) := rfl

theorem exec_inputShutdown (s : State) :
    exec .inputShutdown s = .next (s.done (s.shutDown)) := rfl

theorem exec_perstAssert (s : State) :
    exec .perstAssert s = .next (s.done (s.perstLow)) := rfl

theorem exec_perstDeassert (s : State) :
    exec .perstDeassert s = .next (s.done (s.perstHigh)) := rfl

theorem exec_cxlLinkLoss (s : State) :
    exec .cxlLinkLoss s = .next (s.done (s.linkLoss)) := rfl

theorem exec_cxlLinkTrained (s : State) (speed width : Nat) :
    exec (.cxlLinkTrained speed width) s = .next (s.done (s.linkTrained speed width)) := rfl

theorem exec_refclkLoss (s : State) :
    exec .refclkLoss s = .next (s.done (s.linkLoss)) := rfl

theorem exec_thermTripInput (s : State) :
    exec .thermTripInput s = .next (s.done (s.trip)) := rfl

theorem exec_thermTripRelease (s : State) (high : Bool) :
    exec (.thermTripRelease high) s = .next (s.done (s.tripRelease high)) := rfl

theorem exec_stretchUpdate (s : State) (t : Telemetry) :
    exec (.stretchUpdate t) s = .next (s.done (s.telemetry t)) := rfl

theorem exec_moduleReset (s : State) (cause : Nat) :
    exec (.moduleReset cause) s = .next (s.done (s.resetFor cause)) := rfl

theorem exec_startStageDone (s : State) (failed : List Nat) (ac : Nat) :
    exec (.startStageDone failed ac) s = .next (s.done (s.stageDone failed ac)) := rfl

theorem exec_startStageTimeout (s : State) (cause unit ac : Nat) :
    exec (.startStageTimeout cause unit ac) s = .next (s.done (s.stageFailed cause unit ac)) := rfl

theorem exec_managementWatchdog (s : State) :
    exec .managementWatchdog s = .next (s.done (s.managementReset)) := rfl

theorem exec_controlCoreWatchdog (s : State) (core pc : Nat) :
    exec (.controlCoreWatchdog core pc) s = .next (s.done (s.controlWatchdog core pc)) := rfl

theorem exec_controlCoreRestartDone (s : State) (core : Nat) :
    exec (.controlCoreRestartDone core) s = .next (s.done (s.restartDone core)) := rfl

theorem exec_controlCoreRestartTimeout (s : State) (core : Nat) :
    exec (.controlCoreRestartTimeout core) s = .next (s.done (s.restartFailed core)) := rfl

theorem exec_restartQuietExpiry (s : State) (core : Nat) :
    exec (.restartQuietExpiry core) s = .next (s.done (s.quietDone core)) := rfl

theorem exec_slotTick (s : State) :
    exec .slotTick s = .next (s.done (slotTickOp s)) := rfl

theorem exec_opAbandon (s : State) (p : Prog) (dest : DestKind) (first tiles : Nat) (hostError : Option (Nat × Bool)) :
    exec (.opAbandon p dest first tiles hostError) s = .next (s.done (opAbandonOp p (dest.dest first tiles) hostError s)) := rfl

theorem exec_fMm (s : State) (core : Nat) (h : OpHead) (a : ProductArgs) :
    exec (.fMm core h a) s = .next (s.done (fMmOp core h a s)) := rfl

theorem exec_bMmIg (s : State) (core : Nat) (h : OpHead) (a : ProductArgs) :
    exec (.bMmIg core h a) s = .next (s.done (bMmIgOp core h a s)) := rfl

theorem exec_bMmWg (s : State) (core : Nat) (h : OpHead) (a : ProductArgs) :
    exec (.bMmWg core h a) s = .next (s.done (bMmWgOp core h a s)) := rfl

theorem exec_drainCfg (s : State) (core : Nat) (h : OpHead) (cfg : Nat) :
    exec (.drainCfg core h cfg) s = .next (s.done (drainCfgOp core h cfg s)) := rfl

theorem exec_drain (s : State) (core : Nat) (h : OpHead) (engine bank first tiles : Nat) :
    exec (.drain core h engine bank first tiles) s = .next (s.done (drainOp core h engine bank first tiles s)) := rfl

theorem exec_convert (s : State) (core : Nat) (h : OpHead) (tensor first tiles : Nat) :
    exec (.convert core h tensor first tiles) s = .next (s.done (convertTilesOp core h tensor first tiles s)) := rfl

theorem exec_stashPut (s : State) (core : Nat) (h : OpHead) (a : StashArgs) :
    exec (.stashPut core h a) s = .next (s.done (stashPutOp core h a s)) := rfl

theorem exec_stashGet (s : State) (core : Nat) (h : OpHead) (a : StashArgs) :
    exec (.stashGet core h a) s = .next (s.done (stashGetOp core h a s)) := rfl

theorem exec_spill (s : State) (core : Nat) (h : OpHead) (a : StashArgs) (read : Bool) :
    exec (.spill core h a read) s = .next (s.done (spillOp core h a read s)) := rfl

theorem exec_linkSend (s : State) (core : Nat) (h : OpHead) (linkEnd tensor first tiles : Nat) :
    exec (.linkSend core h linkEnd tensor first tiles) s = .next (s.done (linkSendOp core h linkEnd tensor first tiles s)) := rfl

theorem exec_linkReduce (s : State) (core : Nat) (h : OpHead) (entry : Nat) :
    exec (.linkReduce core h entry) s = .next (s.done (linkReduceOp core h entry s)) := rfl

theorem exec_nodeAdd (s : State) (core : Nat) (h : OpHead) (entry : Nat) :
    exec (.nodeAdd core h entry) s = .next (s.done (nodeAddOp core h entry s)) := rfl

theorem exec_tokenWait (s : State) (core : Nat) (h : OpHead) (token count : Nat) :
    exec (.tokenWait core h token count) s = .next (s.done (tokenWaitOp core h token count s)) := rfl

theorem exec_tokenWaitTimeout (s : State) (core : Nat) :
    exec (.tokenWaitTimeout core) s = .next (s.done (tokenWaitTimeoutOp core s)) := rfl

theorem exec_tokenSignal (s : State) (core : Nat) (h : OpHead) (die token : Nat) (atDone : Bool) :
    exec (.tokenSignal core h die token atDone) s = .next (s.done (tokenSignalOp core h die token atDone s)) := rfl

theorem exec_tokenIncrementArrival (s : State) (die token : Nat) :
    exec (.tokenIncrementArrival die token) s = .next (s.done (tokenArrivalOp die token s)) := rfl

theorem exec_recomputeAlt (s : State) (core : Nat) (h : OpHead) (flag mask count : Nat) :
    exec (.recomputeAlt core h flag mask count) s = .next (s.done (recomputeAltOp core h flag mask count s)) := rfl

theorem exec_suspendPoint (s : State) (core : Nat) (h : OpHead) (point : Nat) :
    exec (.suspendPoint core h point) s = .next (s.done (suspendPointOp core h point s)) := rfl

theorem exec_update (s : State) (u : Nat) (h : OpHead) (a : UpdateArgs) :
    exec (.update u h a) s = .next (s.done (updateOp u h a s)) := rfl

theorem exec_loop (s : State) (p : Prog) (h : OpHead) (outer : Bool) (count : Nat) (increment : Int) :
    exec (.loop p h outer count increment) s = .next (s.done (loopOp p h outer count increment s)) := rfl

theorem exec_endloop (s : State) (p : Prog) :
    exec (.endloop p) s = .next (s.done (endloopOp p s)) := rfl

theorem exec_tileRecompute (s : State) (core : Nat) :
    exec (.tileRecompute core) s = .next (s.done (tileRecomputeOp core s)) := rfl

theorem exec_verdictFix (s : State) :
    exec .verdictFix s = .next (s.done (verdictFixOp s)) := rfl

theorem exec_pour (s : State) :
    exec .pour s = .next (s.done (pourOp s)) := rfl

theorem exec_pourStepDone (s : State) :
    exec .pourStepDone s = .next (s.done (pourStepOp s)) := rfl

theorem exec_pourSyncInEdge (s : State) (level : Bool) (acBefore : Nat) :
    exec (.pourSyncInEdge level acBefore) s = .next (s.done (syncInEdgeOp level acBefore s)) := rfl

theorem exec_masterSyncPulse (s : State) :
    exec .masterSyncPulse s = .next (s.done (masterPulseOp s)) := rfl

theorem exec_syncWaitExpiry (s : State) :
    exec .syncWaitExpiry s = .next (s.done (syncExpiryOp s)) := rfl

theorem exec_fenceClockStop (s : State) (unit : Nat) :
    exec (.fenceClockStop unit) s = .next (s.done (s.clockStop unit)) := rfl

theorem exec_fencePowerGate (s : State) (unit : Nat) :
    exec (.fencePowerGate unit) s = .next (s.done (s.powerGate unit)) := rfl

theorem exec_cdcHandshakeTimeout (s : State) (source far : Nat) (r : Requester) :
    exec (.cdcHandshakeTimeout source far r) s = .next (s.done (s.cdcTimeoutOp source far r)) := rfl

theorem exec_remoteRegisterReadTimeout (s : State) (offset : Nat) :
    exec (.remoteRegisterReadTimeout offset) s = .next (s.done (s.remoteTimeout offset)) := rfl

theorem exec_linkCrcFail (s : State) (linkEnd : Nat) :
    exec (.linkCrcFail linkEnd) s = .next (s.done (s.crcFail linkEnd)) := rfl

theorem exec_linkRetrainDone (s : State) (link : Nat) (ok : Bool) :
    exec (.linkRetrainDone link ok) s = .next (s.done (s.retrainDone link ok)) := rfl

theorem exec_channelPhyRetrainDone (s : State) (channel : Nat) :
    exec (.channelPhyRetrainDone channel) s = .next (s.done (s.phyDone channel)) := rfl

theorem exec_copyChunkDone (s : State) (ring tag : Nat) :
    exec (.copyChunkDone ring tag) s = .next (s.done (copyChunkOp ring tag s)) := rfl

theorem exec_skimChunkDone (s : State) (ring tag : Nat) :
    exec (.skimChunkDone ring tag) s = .next (s.done (skimChunkOp ring tag s)) := rfl

theorem exec_fleetUplink (s : State) (tensor : Nat) :
    exec (.fleetUplink tensor) s = .next (s.done (fleetUplinkOp tensor s)) := rfl

theorem exec_fleetMessageAccept (s : State) (offset : Nat) (message : List Byte) :
    exec (.fleetMessageAccept offset message) s = .next (s.done (fleetAcceptOp offset message s)) := rfl

theorem exec_fleetReduceTile (s : State) (t : Nat) :
    exec (.fleetReduceTile t) s = .next (s.done (fleetReduceOp t s)) := rfl

theorem exec_fleetWriteFailed (s : State) (rank : Nat) :
    exec (.fleetWriteFailed rank) s = .next (s.done (fleetWriteFailedOp rank s)) := rfl

theorem exec_fleetStatusFreeze (s : State) :
    exec .fleetStatusFreeze s = .next (s.done (fleetFreezeOp s)) := rfl

theorem exec_fleetDeadlineExpiry (s : State) :
    exec .fleetDeadlineExpiry s = .next (s.done (fleetDeadlineOp s)) := rfl

theorem exec_fleetVerdictEnd (s : State) :
    exec .fleetVerdictEnd s = .next (s.done (fleetVerdictOp s)) := rfl

theorem exec_hostAccessResponse (s : State) (id : Nat) (r : HostResp) :
    exec (.hostAccessResponse id r) s = .next (s.done (hostResponseOp id r s)) := rfl

theorem exec_contextTransferDone (s : State) (ring tag : Nat) :
    exec (.contextTransferDone ring tag) s = .next (s.done (contextTransferOp ring tag s)) := rfl

theorem exec_tripTemperatureReached (s : State) (unit : Nat) :
    exec (.tripTemperatureReached unit) s = .next (s.done (s.dieTrip unit)) := rfl

theorem exec_refreshWindowEnd (s : State) (bonded : Bool) (unit bank : Nat) :
    exec (.refreshWindowEnd bonded unit bank) s = .next (s.done (s.refreshEnd bonded unit bank)) := rfl

theorem exec_flashWritesAcceptedAgain (s : State) :
    exec .flashWritesAcceptedAgain s = .next (s.done (flashAgain s)) := rfl

theorem exec_doeDiscovery (s : State) :
    exec .doeDiscovery s = .next (s.done (s.doeDiscover)) := rfl

theorem exec_cdatTableAccess (s : State) :
    exec .cdatTableAccess s = .next (s.done (s.cdat)) := rfl

theorem exec_hdmDecoderProgram (s : State) (decoder base : Nat) :
    exec (.hdmDecoderProgram decoder base) s = .next (s.done (s.hdmProgram decoder base)) := rfl

theorem exec_smbusOtherCommand (s : State) :
    exec .smbusOtherCommand s = .next (s.done (s.smbusOther)) := rfl

theorem exec_bisnpResponse (s : State) (line : Nat) (modified : Option (List Byte)) :
    exec (.bisnpResponse line modified) s = .next (s.done (bisnpResponseOp line modified s)) := rfl

theorem exec_powerOn (s : State) (volts10 : Nat) (h : volts10 ≤ 600) :
    exec (.powerOn volts10) s = .next (s.done (s.powerUp volts10)) := by
  show execPowerOn volts10 s = _
  simp only [execPowerOn, inputMax, Nat.not_lt.mpr h, if_false]
  rfl

theorem exec_powerOn_above (s : State) (volts10 : Nat) (h : 600 < volts10) :
    exec (.powerOn volts10) s = .fault (.inputDamage volts10) := by
  show execPowerOn volts10 s = _
  simp only [execPowerOn, inputMax, h, if_true]

end Sys2Proof.Machine
end

