-- ==== Sys2Proof/Laws/State.lean ====
section
/-! SUPPORT. The frame of every small update and shared operation: one lemma for each group of State that it leaves as it was, and one for
what it puts in place. -/

namespace Sys2Proof.Machine

/-- What holds of the start and is kept by every item holds at the end of a fold. -/
theorem foldl_inv {α β : Type} (P : β → Prop) (f : β → α → β) (l : List α) (b : β) (hb : P b) (h : ∀ b x, P b → P (f b x)) : P (l.foldl f b) := by
  induction l generalizing b with
  | nil => exact hb
  | cons x l ih => exact ih _ (h b x hb)

/-! ## Cases and folds -/

@[simp] theorem ite_boot (c : Prop) [Decidable c] (s t : State) : (if c then s else t).boot = if c then s.boot else t.boot := apply_ite _ _ _ _
@[simp] theorem foldl_boot {α : Type} (f : State → α → State) (l : List α) (s : State) (h : ∀ s x, (f s x).boot = s.boot) :
    (l.foldl f s).boot = s.boot := foldl_inv (fun t => t.boot = s.boot) f l s rfl fun b x e => (h b x).trans e
@[simp] theorem ite_mbx (c : Prop) [Decidable c] (s t : State) : (if c then s else t).mbx = if c then s.mbx else t.mbx := apply_ite _ _ _ _
@[simp] theorem foldl_mbx {α : Type} (f : State → α → State) (l : List α) (s : State) (h : ∀ s x, (f s x).mbx = s.mbx) :
    (l.foldl f s).mbx = s.mbx := foldl_inv (fun t => t.mbx = s.mbx) f l s rfl fun b x e => (h b x).trans e
@[simp] theorem ite_audit (c : Prop) [Decidable c] (s t : State) : (if c then s else t).audit = if c then s.audit else t.audit := apply_ite _ _ _ _
@[simp] theorem foldl_audit {α : Type} (f : State → α → State) (l : List α) (s : State) (h : ∀ s x, (f s x).audit = s.audit) :
    (l.foldl f s).audit = s.audit := foldl_inv (fun t => t.audit = s.audit) f l s rfl fun b x e => (h b x).trans e
@[simp] theorem ite_pins (c : Prop) [Decidable c] (s t : State) : (if c then s else t).pins = if c then s.pins else t.pins := apply_ite _ _ _ _
@[simp] theorem foldl_pins {α : Type} (f : State → α → State) (l : List α) (s : State) (h : ∀ s x, (f s x).pins = s.pins) :
    (l.foldl f s).pins = s.pins := foldl_inv (fun t => t.pins = s.pins) f l s rfl fun b x e => (h b x).trans e
@[simp] theorem ite_power (c : Prop) [Decidable c] (s t : State) : (if c then s else t).power = if c then s.power else t.power := apply_ite _ _ _ _
@[simp] theorem foldl_power {α : Type} (f : State → α → State) (l : List α) (s : State) (h : ∀ s x, (f s x).power = s.power) :
    (l.foldl f s).power = s.power := foldl_inv (fun t => t.power = s.power) f l s rfl fun b x e => (h b x).trans e
@[simp] theorem ite_port (c : Prop) [Decidable c] (s t : State) : (if c then s else t).port = if c then s.port else t.port := apply_ite _ _ _ _
@[simp] theorem foldl_port {α : Type} (f : State → α → State) (l : List α) (s : State) (h : ∀ s x, (f s x).port = s.port) :
    (l.foldl f s).port = s.port := foldl_inv (fun t => t.port = s.port) f l s rfl fun b x e => (h b x).trans e
@[simp] theorem ite_regs (c : Prop) [Decidable c] (s t : State) : (if c then s else t).regs = if c then s.regs else t.regs := apply_ite _ _ _ _
@[simp] theorem foldl_regs {α : Type} (f : State → α → State) (l : List α) (s : State) (h : ∀ s x, (f s x).regs = s.regs) :
    (l.foldl f s).regs = s.regs := foldl_inv (fun t => t.regs = s.regs) f l s rfl fun b x e => (h b x).trans e
@[simp] theorem ite_events (c : Prop) [Decidable c] (s t : State) : (if c then s else t).events = if c then s.events else t.events := apply_ite _ _ _ _
@[simp] theorem foldl_events {α : Type} (f : State → α → State) (l : List α) (s : State) (h : ∀ s x, (f s x).events = s.events) :
    (l.foldl f s).events = s.events := foldl_inv (fun t => t.events = s.events) f l s rfl fun b x e => (h b x).trans e
@[simp] theorem ite_fences (c : Prop) [Decidable c] (s t : State) : (if c then s else t).fences = if c then s.fences else t.fences := apply_ite _ _ _ _
@[simp] theorem foldl_fences {α : Type} (f : State → α → State) (l : List α) (s : State) (h : ∀ s x, (f s x).fences = s.fences) :
    (l.foldl f s).fences = s.fences := foldl_inv (fun t => t.fences = s.fences) f l s rfl fun b x e => (h b x).trans e
@[simp] theorem ite_heat (c : Prop) [Decidable c] (s t : State) : (if c then s else t).heat = if c then s.heat else t.heat := apply_ite _ _ _ _
@[simp] theorem foldl_heat {α : Type} (f : State → α → State) (l : List α) (s : State) (h : ∀ s x, (f s x).heat = s.heat) :
    (l.foldl f s).heat = s.heat := foldl_inv (fun t => t.heat = s.heat) f l s rfl fun b x e => (h b x).trans e
@[simp] theorem ite_ops (c : Prop) [Decidable c] (s t : State) : (if c then s else t).ops = if c then s.ops else t.ops := apply_ite _ _ _ _
@[simp] theorem foldl_ops {α : Type} (f : State → α → State) (l : List α) (s : State) (h : ∀ s x, (f s x).ops = s.ops) :
    (l.foldl f s).ops = s.ops := foldl_inv (fun t => t.ops = s.ops) f l s rfl fun b x e => (h b x).trans e
@[simp] theorem ite_ended (c : Prop) [Decidable c] (s t : State) : (if c then s else t).ended = if c then s.ended else t.ended := apply_ite _ _ _ _
@[simp] theorem foldl_ended {α : Type} (f : State → α → State) (l : List α) (s : State) (h : ∀ s x, (f s x).ended = s.ended) :
    (l.foldl f s).ended = s.ended := foldl_inv (fun t => t.ended = s.ended) f l s rfl fun b x e => (h b x).trans e
@[simp] theorem ite_fleet (c : Prop) [Decidable c] (s t : State) : (if c then s else t).fleet = if c then s.fleet else t.fleet := apply_ite _ _ _ _
@[simp] theorem foldl_fleet {α : Type} (f : State → α → State) (l : List α) (s : State) (h : ∀ s x, (f s x).fleet = s.fleet) :
    (l.foldl f s).fleet = s.fleet := foldl_inv (fun t => t.fleet = s.fleet) f l s rfl fun b x e => (h b x).trans e
@[simp] theorem ite_out (c : Prop) [Decidable c] (s t : State) : (if c then s else t).out = if c then s.out else t.out := apply_ite _ _ _ _
@[simp] theorem foldl_out {α : Type} (f : State → α → State) (l : List α) (s : State) (h : ∀ s x, (f s x).out = s.out) :
    (l.foldl f s).out = s.out := foldl_inv (fun t => t.out = s.out) f l s rfl fun b x e => (h b x).trans e
@[simp] theorem ite_freeCtr (c : Prop) [Decidable c] (s t : State) : (if c then s else t).freeCtr = if c then s.freeCtr else t.freeCtr := apply_ite _ _ _ _
@[simp] theorem foldl_freeCtr {α : Type} (f : State → α → State) (l : List α) (s : State) (h : ∀ s x, (f s x).freeCtr = s.freeCtr) :
    (l.foldl f s).freeCtr = s.freeCtr := foldl_inv (fun t => t.freeCtr = s.freeCtr) f l s rfl fun b x e => (h b x).trans e
@[simp] theorem ite_pending (c : Prop) [Decidable c] (s t : State) : (if c then s else t).pending = if c then s.pending else t.pending := apply_ite _ _ _ _
@[simp] theorem foldl_pending {α : Type} (f : State → α → State) (l : List α) (s : State) (h : ∀ s x, (f s x).pending = s.pending) :
    (l.foldl f s).pending = s.pending := foldl_inv (fun t => t.pending = s.pending) f l s rfl fun b x e => (h b x).trans e

/-! ## What the small updates put in place -/

@[simp] theorem State.emit_out (s : State) (o : Out) : (s.emit o).out = s.out ++ [o] := rfl
@[simp] theorem State.draw_fst (s : State) : s.draw.1 = s.freeCtr := rfl
@[simp] theorem State.draw_freeCtr (s : State) : s.draw.2.freeCtr = s.freeCtr + 1 := rfl
@[simp] theorem State.setOp_ops (s : State) (o : Op) : (s.setOp o).ops = s.ops.map fun x => if x.is o.ring o.id then o else x := rfl
@[simp] theorem State.setRing_port (s : State) (r : Nat) (f : Ring → Ring) :
    (s.setRing r f).port = { s.port with sq := setAt s.port.sq r f } := rfl
@[simp] theorem State.setRegs_regs (s : State) (f : Regs → Regs) : (s.setRegs f).regs = f s.regs := rfl
@[simp] theorem State.setSync_heat (s : State) (f : Sync → Sync) : (s.setSync f).heat = { s.heat with sync := f s.heat.sync } := rfl
@[simp] theorem State.setExch_fleet (s : State) (f : Exchange → Exchange) :
    (s.setExch f).fleet = { s.fleet with exch := f s.fleet.exch } := rfl
theorem State.moduleReset_groups (s : State) (cause : Nat) (b : List Byte) :
    (s.moduleReset cause b).port = port0 ∧ (s.moduleReset cause b).events = events0 ∧ (s.moduleReset cause b).fences = fences0 ∧
      (s.moduleReset cause b).ops = [] ∧ (s.moduleReset cause b).fleet = fleet0 := ⟨rfl, rfl, rfl, rfl, rfl⟩

/-! ## What they leave -/

@[simp] theorem State.emit_boot (s : State) (o) : (State.emit s o).boot = s.boot := rfl
@[simp] theorem State.emit_mbx (s : State) (o) : (State.emit s o).mbx = s.mbx := rfl
@[simp] theorem State.emit_audit (s : State) (o) : (State.emit s o).audit = s.audit := rfl
@[simp] theorem State.emit_pins (s : State) (o) : (State.emit s o).pins = s.pins := rfl
@[simp] theorem State.emit_power (s : State) (o) : (State.emit s o).power = s.power := rfl
@[simp] theorem State.emit_port (s : State) (o) : (State.emit s o).port = s.port := rfl
@[simp] theorem State.emit_regs (s : State) (o) : (State.emit s o).regs = s.regs := rfl
@[simp] theorem State.emit_events (s : State) (o) : (State.emit s o).events = s.events := rfl
@[simp] theorem State.emit_fences (s : State) (o) : (State.emit s o).fences = s.fences := rfl
@[simp] theorem State.emit_heat (s : State) (o) : (State.emit s o).heat = s.heat := rfl
@[simp] theorem State.emit_ops (s : State) (o) : (State.emit s o).ops = s.ops := rfl
@[simp] theorem State.emit_ended (s : State) (o) : (State.emit s o).ended = s.ended := rfl
@[simp] theorem State.emit_fleet (s : State) (o) : (State.emit s o).fleet = s.fleet := rfl
@[simp] theorem State.emit_freeCtr (s : State) (o) : (State.emit s o).freeCtr = s.freeCtr := rfl
@[simp] theorem State.emit_pending (s : State) (o) : (State.emit s o).pending = s.pending := rfl

@[simp] theorem State.draw_boot (s : State) : (State.draw s).2.boot = s.boot := rfl
@[simp] theorem State.draw_mbx (s : State) : (State.draw s).2.mbx = s.mbx := rfl
@[simp] theorem State.draw_audit (s : State) : (State.draw s).2.audit = s.audit := rfl
@[simp] theorem State.draw_pins (s : State) : (State.draw s).2.pins = s.pins := rfl
@[simp] theorem State.draw_power (s : State) : (State.draw s).2.power = s.power := rfl
@[simp] theorem State.draw_port (s : State) : (State.draw s).2.port = s.port := rfl
@[simp] theorem State.draw_regs (s : State) : (State.draw s).2.regs = s.regs := rfl
@[simp] theorem State.draw_events (s : State) : (State.draw s).2.events = s.events := rfl
@[simp] theorem State.draw_fences (s : State) : (State.draw s).2.fences = s.fences := rfl
@[simp] theorem State.draw_heat (s : State) : (State.draw s).2.heat = s.heat := rfl
@[simp] theorem State.draw_ops (s : State) : (State.draw s).2.ops = s.ops := rfl
@[simp] theorem State.draw_ended (s : State) : (State.draw s).2.ended = s.ended := rfl
@[simp] theorem State.draw_fleet (s : State) : (State.draw s).2.fleet = s.fleet := rfl
@[simp] theorem State.draw_out (s : State) : (State.draw s).2.out = s.out := rfl
@[simp] theorem State.draw_pending (s : State) : (State.draw s).2.pending = s.pending := rfl

@[simp] theorem State.snoop_boot (s : State) (n) (kind) (tensor) (blocks) : (State.snoop s n kind tensor blocks).boot = s.boot := by simp [State.snoop]
@[simp] theorem State.snoop_mbx (s : State) (n) (kind) (tensor) (blocks) : (State.snoop s n kind tensor blocks).mbx = s.mbx := by simp [State.snoop]
@[simp] theorem State.snoop_audit (s : State) (n) (kind) (tensor) (blocks) : (State.snoop s n kind tensor blocks).audit = s.audit := by simp [State.snoop]
@[simp] theorem State.snoop_pins (s : State) (n) (kind) (tensor) (blocks) : (State.snoop s n kind tensor blocks).pins = s.pins := by simp [State.snoop]
@[simp] theorem State.snoop_power (s : State) (n) (kind) (tensor) (blocks) : (State.snoop s n kind tensor blocks).power = s.power := by simp [State.snoop]
@[simp] theorem State.snoop_port (s : State) (n) (kind) (tensor) (blocks) : (State.snoop s n kind tensor blocks).port = s.port := by simp [State.snoop]
@[simp] theorem State.snoop_events (s : State) (n) (kind) (tensor) (blocks) : (State.snoop s n kind tensor blocks).events = s.events := by simp [State.snoop]
@[simp] theorem State.snoop_fences (s : State) (n) (kind) (tensor) (blocks) : (State.snoop s n kind tensor blocks).fences = s.fences := by simp [State.snoop]
@[simp] theorem State.snoop_heat (s : State) (n) (kind) (tensor) (blocks) : (State.snoop s n kind tensor blocks).heat = s.heat := by simp [State.snoop]
@[simp] theorem State.snoop_ops (s : State) (n) (kind) (tensor) (blocks) : (State.snoop s n kind tensor blocks).ops = s.ops := by simp [State.snoop]
@[simp] theorem State.snoop_ended (s : State) (n) (kind) (tensor) (blocks) : (State.snoop s n kind tensor blocks).ended = s.ended := by simp [State.snoop]
@[simp] theorem State.snoop_fleet (s : State) (n) (kind) (tensor) (blocks) : (State.snoop s n kind tensor blocks).fleet = s.fleet := by simp [State.snoop]
@[simp] theorem State.snoop_out (s : State) (n) (kind) (tensor) (blocks) : (State.snoop s n kind tensor blocks).out = s.out := by simp [State.snoop]
@[simp] theorem State.snoop_freeCtr (s : State) (n) (kind) (tensor) (blocks) : (State.snoop s n kind tensor blocks).freeCtr = s.freeCtr := by simp [State.snoop]
@[simp] theorem State.snoop_pending (s : State) (n) (kind) (tensor) (blocks) : (State.snoop s n kind tensor blocks).pending = s.pending := by simp [State.snoop]

@[simp] theorem State.hostRead_boot (s : State) (iova) (len) (p) : (State.hostRead s iova len p).boot = s.boot := rfl
@[simp] theorem State.hostRead_mbx (s : State) (iova) (len) (p) : (State.hostRead s iova len p).mbx = s.mbx := rfl
@[simp] theorem State.hostRead_audit (s : State) (iova) (len) (p) : (State.hostRead s iova len p).audit = s.audit := rfl
@[simp] theorem State.hostRead_pins (s : State) (iova) (len) (p) : (State.hostRead s iova len p).pins = s.pins := rfl
@[simp] theorem State.hostRead_power (s : State) (iova) (len) (p) : (State.hostRead s iova len p).power = s.power := rfl
@[simp] theorem State.hostRead_regs (s : State) (iova) (len) (p) : (State.hostRead s iova len p).regs = s.regs := rfl
@[simp] theorem State.hostRead_events (s : State) (iova) (len) (p) : (State.hostRead s iova len p).events = s.events := rfl
@[simp] theorem State.hostRead_fences (s : State) (iova) (len) (p) : (State.hostRead s iova len p).fences = s.fences := rfl
@[simp] theorem State.hostRead_heat (s : State) (iova) (len) (p) : (State.hostRead s iova len p).heat = s.heat := rfl
@[simp] theorem State.hostRead_ops (s : State) (iova) (len) (p) : (State.hostRead s iova len p).ops = s.ops := rfl
@[simp] theorem State.hostRead_ended (s : State) (iova) (len) (p) : (State.hostRead s iova len p).ended = s.ended := rfl
@[simp] theorem State.hostRead_fleet (s : State) (iova) (len) (p) : (State.hostRead s iova len p).fleet = s.fleet := rfl
@[simp] theorem State.hostRead_freeCtr (s : State) (iova) (len) (p) : (State.hostRead s iova len p).freeCtr = s.freeCtr := rfl
@[simp] theorem State.hostRead_pending (s : State) (iova) (len) (p) : (State.hostRead s iova len p).pending = s.pending := rfl

@[simp] theorem State.sendHostAs_boot (s : State) (iova) (bytes) (t) : (State.sendHostAs s iova bytes t).boot = s.boot := by simp [State.sendHostAs]
@[simp] theorem State.sendHostAs_mbx (s : State) (iova) (bytes) (t) : (State.sendHostAs s iova bytes t).mbx = s.mbx := by simp [State.sendHostAs]
@[simp] theorem State.sendHostAs_audit (s : State) (iova) (bytes) (t) : (State.sendHostAs s iova bytes t).audit = s.audit := by simp [State.sendHostAs]
@[simp] theorem State.sendHostAs_pins (s : State) (iova) (bytes) (t) : (State.sendHostAs s iova bytes t).pins = s.pins := by simp [State.sendHostAs]
@[simp] theorem State.sendHostAs_power (s : State) (iova) (bytes) (t) : (State.sendHostAs s iova bytes t).power = s.power := by simp [State.sendHostAs]
@[simp] theorem State.sendHostAs_port (s : State) (iova) (bytes) (t) : (State.sendHostAs s iova bytes t).port = s.port := by simp [State.sendHostAs]
@[simp] theorem State.sendHostAs_events (s : State) (iova) (bytes) (t) : (State.sendHostAs s iova bytes t).events = s.events := by simp [State.sendHostAs]
@[simp] theorem State.sendHostAs_fences (s : State) (iova) (bytes) (t) : (State.sendHostAs s iova bytes t).fences = s.fences := by simp [State.sendHostAs]
@[simp] theorem State.sendHostAs_heat (s : State) (iova) (bytes) (t) : (State.sendHostAs s iova bytes t).heat = s.heat := by simp [State.sendHostAs]
@[simp] theorem State.sendHostAs_ops (s : State) (iova) (bytes) (t) : (State.sendHostAs s iova bytes t).ops = s.ops := by simp [State.sendHostAs]
@[simp] theorem State.sendHostAs_ended (s : State) (iova) (bytes) (t) : (State.sendHostAs s iova bytes t).ended = s.ended := by simp [State.sendHostAs]
@[simp] theorem State.sendHostAs_fleet (s : State) (iova) (bytes) (t) : (State.sendHostAs s iova bytes t).fleet = s.fleet := by simp [State.sendHostAs]
@[simp] theorem State.sendHostAs_freeCtr (s : State) (iova) (bytes) (t) : (State.sendHostAs s iova bytes t).freeCtr = s.freeCtr := by simp [State.sendHostAs]
@[simp] theorem State.sendHostAs_pending (s : State) (iova) (bytes) (t) : (State.sendHostAs s iova bytes t).pending = s.pending := by simp [State.sendHostAs]

@[simp] theorem State.sendHost_boot (s : State) (iova) (bytes) : (State.sendHost s iova bytes).boot = s.boot := by simp [State.sendHost]
@[simp] theorem State.sendHost_mbx (s : State) (iova) (bytes) : (State.sendHost s iova bytes).mbx = s.mbx := by simp [State.sendHost]
@[simp] theorem State.sendHost_audit (s : State) (iova) (bytes) : (State.sendHost s iova bytes).audit = s.audit := by simp [State.sendHost]
@[simp] theorem State.sendHost_pins (s : State) (iova) (bytes) : (State.sendHost s iova bytes).pins = s.pins := by simp [State.sendHost]
@[simp] theorem State.sendHost_power (s : State) (iova) (bytes) : (State.sendHost s iova bytes).power = s.power := by simp [State.sendHost]
@[simp] theorem State.sendHost_port (s : State) (iova) (bytes) : (State.sendHost s iova bytes).port = s.port := by simp [State.sendHost]
@[simp] theorem State.sendHost_events (s : State) (iova) (bytes) : (State.sendHost s iova bytes).events = s.events := by simp [State.sendHost]
@[simp] theorem State.sendHost_fences (s : State) (iova) (bytes) : (State.sendHost s iova bytes).fences = s.fences := by simp [State.sendHost]
@[simp] theorem State.sendHost_heat (s : State) (iova) (bytes) : (State.sendHost s iova bytes).heat = s.heat := by simp [State.sendHost]
@[simp] theorem State.sendHost_ops (s : State) (iova) (bytes) : (State.sendHost s iova bytes).ops = s.ops := by simp [State.sendHost]
@[simp] theorem State.sendHost_ended (s : State) (iova) (bytes) : (State.sendHost s iova bytes).ended = s.ended := by simp [State.sendHost]
@[simp] theorem State.sendHost_fleet (s : State) (iova) (bytes) : (State.sendHost s iova bytes).fleet = s.fleet := by simp [State.sendHost]
@[simp] theorem State.sendHost_freeCtr (s : State) (iova) (bytes) : (State.sendHost s iova bytes).freeCtr = s.freeCtr := by simp [State.sendHost]
@[simp] theorem State.sendHost_pending (s : State) (iova) (bytes) : (State.sendHost s iova bytes).pending = s.pending := by simp [State.sendHost]

@[simp] theorem State.hostWriteAs_boot (s : State) (iova) (bytes) (p) (t) : (State.hostWriteAs s iova bytes p t).boot = s.boot := by simp [State.hostWriteAs]
@[simp] theorem State.hostWriteAs_mbx (s : State) (iova) (bytes) (p) (t) : (State.hostWriteAs s iova bytes p t).mbx = s.mbx := by simp [State.hostWriteAs]
@[simp] theorem State.hostWriteAs_audit (s : State) (iova) (bytes) (p) (t) : (State.hostWriteAs s iova bytes p t).audit = s.audit := by simp [State.hostWriteAs]
@[simp] theorem State.hostWriteAs_pins (s : State) (iova) (bytes) (p) (t) : (State.hostWriteAs s iova bytes p t).pins = s.pins := by simp [State.hostWriteAs]
@[simp] theorem State.hostWriteAs_power (s : State) (iova) (bytes) (p) (t) : (State.hostWriteAs s iova bytes p t).power = s.power := by simp [State.hostWriteAs]
@[simp] theorem State.hostWriteAs_events (s : State) (iova) (bytes) (p) (t) : (State.hostWriteAs s iova bytes p t).events = s.events := by simp [State.hostWriteAs]
@[simp] theorem State.hostWriteAs_fences (s : State) (iova) (bytes) (p) (t) : (State.hostWriteAs s iova bytes p t).fences = s.fences := by simp [State.hostWriteAs]
@[simp] theorem State.hostWriteAs_heat (s : State) (iova) (bytes) (p) (t) : (State.hostWriteAs s iova bytes p t).heat = s.heat := by simp [State.hostWriteAs]
@[simp] theorem State.hostWriteAs_ops (s : State) (iova) (bytes) (p) (t) : (State.hostWriteAs s iova bytes p t).ops = s.ops := by simp [State.hostWriteAs]
@[simp] theorem State.hostWriteAs_ended (s : State) (iova) (bytes) (p) (t) : (State.hostWriteAs s iova bytes p t).ended = s.ended := by simp [State.hostWriteAs]
@[simp] theorem State.hostWriteAs_fleet (s : State) (iova) (bytes) (p) (t) : (State.hostWriteAs s iova bytes p t).fleet = s.fleet := by simp [State.hostWriteAs]
@[simp] theorem State.hostWriteAs_freeCtr (s : State) (iova) (bytes) (p) (t) : (State.hostWriteAs s iova bytes p t).freeCtr = s.freeCtr := by simp [State.hostWriteAs]
@[simp] theorem State.hostWriteAs_pending (s : State) (iova) (bytes) (p) (t) : (State.hostWriteAs s iova bytes p t).pending = s.pending := by simp [State.hostWriteAs]

@[simp] theorem State.hostWrite_boot (s : State) (iova) (bytes) (p) : (State.hostWrite s iova bytes p).boot = s.boot := by simp [State.hostWrite]
@[simp] theorem State.hostWrite_mbx (s : State) (iova) (bytes) (p) : (State.hostWrite s iova bytes p).mbx = s.mbx := by simp [State.hostWrite]
@[simp] theorem State.hostWrite_audit (s : State) (iova) (bytes) (p) : (State.hostWrite s iova bytes p).audit = s.audit := by simp [State.hostWrite]
@[simp] theorem State.hostWrite_pins (s : State) (iova) (bytes) (p) : (State.hostWrite s iova bytes p).pins = s.pins := by simp [State.hostWrite]
@[simp] theorem State.hostWrite_power (s : State) (iova) (bytes) (p) : (State.hostWrite s iova bytes p).power = s.power := by simp [State.hostWrite]
@[simp] theorem State.hostWrite_events (s : State) (iova) (bytes) (p) : (State.hostWrite s iova bytes p).events = s.events := by simp [State.hostWrite]
@[simp] theorem State.hostWrite_fences (s : State) (iova) (bytes) (p) : (State.hostWrite s iova bytes p).fences = s.fences := by simp [State.hostWrite]
@[simp] theorem State.hostWrite_heat (s : State) (iova) (bytes) (p) : (State.hostWrite s iova bytes p).heat = s.heat := by simp [State.hostWrite]
@[simp] theorem State.hostWrite_ops (s : State) (iova) (bytes) (p) : (State.hostWrite s iova bytes p).ops = s.ops := by simp [State.hostWrite]
@[simp] theorem State.hostWrite_ended (s : State) (iova) (bytes) (p) : (State.hostWrite s iova bytes p).ended = s.ended := by simp [State.hostWrite]
@[simp] theorem State.hostWrite_fleet (s : State) (iova) (bytes) (p) : (State.hostWrite s iova bytes p).fleet = s.fleet := by simp [State.hostWrite]
@[simp] theorem State.hostWrite_freeCtr (s : State) (iova) (bytes) (p) : (State.hostWrite s iova bytes p).freeCtr = s.freeCtr := by simp [State.hostWrite]
@[simp] theorem State.hostWrite_pending (s : State) (iova) (bytes) (p) : (State.hostWrite s iova bytes p).pending = s.pending := by simp [State.hostWrite]

@[simp] theorem State.signal_boot (s : State) (v) : (State.signal s v).boot = s.boot := by simp [State.signal]
@[simp] theorem State.signal_mbx (s : State) (v) : (State.signal s v).mbx = s.mbx := by simp [State.signal]
@[simp] theorem State.signal_audit (s : State) (v) : (State.signal s v).audit = s.audit := by simp [State.signal]
@[simp] theorem State.signal_pins (s : State) (v) : (State.signal s v).pins = s.pins := by simp [State.signal]
@[simp] theorem State.signal_power (s : State) (v) : (State.signal s v).power = s.power := by simp [State.signal]
@[simp] theorem State.signal_regs (s : State) (v) : (State.signal s v).regs = s.regs := by simp [State.signal]
@[simp] theorem State.signal_events (s : State) (v) : (State.signal s v).events = s.events := by simp [State.signal]
@[simp] theorem State.signal_fences (s : State) (v) : (State.signal s v).fences = s.fences := by simp [State.signal]
@[simp] theorem State.signal_heat (s : State) (v) : (State.signal s v).heat = s.heat := by simp [State.signal]
@[simp] theorem State.signal_ops (s : State) (v) : (State.signal s v).ops = s.ops := by simp [State.signal]
@[simp] theorem State.signal_ended (s : State) (v) : (State.signal s v).ended = s.ended := by simp [State.signal]
@[simp] theorem State.signal_fleet (s : State) (v) : (State.signal s v).fleet = s.fleet := by simp [State.signal]
@[simp] theorem State.signal_out (s : State) (v) : (State.signal s v).out = s.out := by simp [State.signal]
@[simp] theorem State.signal_freeCtr (s : State) (v) : (State.signal s v).freeCtr = s.freeCtr := by simp [State.signal]
@[simp] theorem State.signal_pending (s : State) (v) : (State.signal s v).pending = s.pending := by simp [State.signal]

@[simp] theorem State.flushCq_boot (s : State) (x1) : (State.flushCq s x1).boot = s.boot := by
  induction x1 generalizing s with
  | zero => rfl
  | succ k ih => unfold State.flushCq; (repeat' split) <;> simp [ih]
@[simp] theorem State.flushCq_mbx (s : State) (x1) : (State.flushCq s x1).mbx = s.mbx := by
  induction x1 generalizing s with
  | zero => rfl
  | succ k ih => unfold State.flushCq; (repeat' split) <;> simp [ih]
@[simp] theorem State.flushCq_audit (s : State) (x1) : (State.flushCq s x1).audit = s.audit := by
  induction x1 generalizing s with
  | zero => rfl
  | succ k ih => unfold State.flushCq; (repeat' split) <;> simp [ih]
@[simp] theorem State.flushCq_pins (s : State) (x1) : (State.flushCq s x1).pins = s.pins := by
  induction x1 generalizing s with
  | zero => rfl
  | succ k ih => unfold State.flushCq; (repeat' split) <;> simp [ih]
@[simp] theorem State.flushCq_power (s : State) (x1) : (State.flushCq s x1).power = s.power := by
  induction x1 generalizing s with
  | zero => rfl
  | succ k ih => unfold State.flushCq; (repeat' split) <;> simp [ih]
@[simp] theorem State.flushCq_events (s : State) (x1) : (State.flushCq s x1).events = s.events := by
  induction x1 generalizing s with
  | zero => rfl
  | succ k ih => unfold State.flushCq; (repeat' split) <;> simp [ih]
@[simp] theorem State.flushCq_fences (s : State) (x1) : (State.flushCq s x1).fences = s.fences := by
  induction x1 generalizing s with
  | zero => rfl
  | succ k ih => unfold State.flushCq; (repeat' split) <;> simp [ih]
@[simp] theorem State.flushCq_heat (s : State) (x1) : (State.flushCq s x1).heat = s.heat := by
  induction x1 generalizing s with
  | zero => rfl
  | succ k ih => unfold State.flushCq; (repeat' split) <;> simp [ih]
@[simp] theorem State.flushCq_ops (s : State) (x1) : (State.flushCq s x1).ops = s.ops := by
  induction x1 generalizing s with
  | zero => rfl
  | succ k ih => unfold State.flushCq; (repeat' split) <;> simp [ih]
@[simp] theorem State.flushCq_ended (s : State) (x1) : (State.flushCq s x1).ended = s.ended := by
  induction x1 generalizing s with
  | zero => rfl
  | succ k ih => unfold State.flushCq; (repeat' split) <;> simp [ih]
@[simp] theorem State.flushCq_fleet (s : State) (x1) : (State.flushCq s x1).fleet = s.fleet := by
  induction x1 generalizing s with
  | zero => rfl
  | succ k ih => unfold State.flushCq; (repeat' split) <;> simp [ih]
@[simp] theorem State.flushCq_freeCtr (s : State) (x1) : (State.flushCq s x1).freeCtr = s.freeCtr := by
  induction x1 generalizing s with
  | zero => rfl
  | succ k ih => unfold State.flushCq; (repeat' split) <;> simp [ih]
@[simp] theorem State.flushCq_pending (s : State) (x1) : (State.flushCq s x1).pending = s.pending := by
  induction x1 generalizing s with
  | zero => rfl
  | succ k ih => unfold State.flushCq; (repeat' split) <;> simp [ih]

@[simp] theorem State.post_boot (s : State) (c) : (State.post s c).boot = s.boot := by simp [State.post]
@[simp] theorem State.post_mbx (s : State) (c) : (State.post s c).mbx = s.mbx := by simp [State.post]
@[simp] theorem State.post_audit (s : State) (c) : (State.post s c).audit = s.audit := by simp [State.post]
@[simp] theorem State.post_pins (s : State) (c) : (State.post s c).pins = s.pins := by simp [State.post]
@[simp] theorem State.post_power (s : State) (c) : (State.post s c).power = s.power := by simp [State.post]
@[simp] theorem State.post_events (s : State) (c) : (State.post s c).events = s.events := by simp [State.post]
@[simp] theorem State.post_fences (s : State) (c) : (State.post s c).fences = s.fences := by simp [State.post]
@[simp] theorem State.post_heat (s : State) (c) : (State.post s c).heat = s.heat := by simp [State.post]
@[simp] theorem State.post_ops (s : State) (c) : (State.post s c).ops = s.ops := by simp [State.post]
@[simp] theorem State.post_ended (s : State) (c) : (State.post s c).ended = s.ended := by simp [State.post]
@[simp] theorem State.post_fleet (s : State) (c) : (State.post s c).fleet = s.fleet := by simp [State.post]
@[simp] theorem State.post_freeCtr (s : State) (c) : (State.post s c).freeCtr = s.freeCtr := by simp [State.post]
@[simp] theorem State.post_pending (s : State) (c) : (State.post s c).pending = s.pending := by simp [State.post]

@[simp] theorem State.complete_boot (s : State) (c) (opc) (sqHead) (status) (d0) (d1) : (State.complete s c opc sqHead status d0 d1).boot = s.boot := by simp [State.complete]
@[simp] theorem State.complete_mbx (s : State) (c) (opc) (sqHead) (status) (d0) (d1) : (State.complete s c opc sqHead status d0 d1).mbx = s.mbx := by simp [State.complete]
@[simp] theorem State.complete_audit (s : State) (c) (opc) (sqHead) (status) (d0) (d1) : (State.complete s c opc sqHead status d0 d1).audit = s.audit := by simp [State.complete]
@[simp] theorem State.complete_pins (s : State) (c) (opc) (sqHead) (status) (d0) (d1) : (State.complete s c opc sqHead status d0 d1).pins = s.pins := by simp [State.complete]
@[simp] theorem State.complete_power (s : State) (c) (opc) (sqHead) (status) (d0) (d1) : (State.complete s c opc sqHead status d0 d1).power = s.power := by simp [State.complete]
@[simp] theorem State.complete_events (s : State) (c) (opc) (sqHead) (status) (d0) (d1) : (State.complete s c opc sqHead status d0 d1).events = s.events := by simp [State.complete]
@[simp] theorem State.complete_fences (s : State) (c) (opc) (sqHead) (status) (d0) (d1) : (State.complete s c opc sqHead status d0 d1).fences = s.fences := by simp [State.complete]
@[simp] theorem State.complete_heat (s : State) (c) (opc) (sqHead) (status) (d0) (d1) : (State.complete s c opc sqHead status d0 d1).heat = s.heat := by simp [State.complete]
@[simp] theorem State.complete_ops (s : State) (c) (opc) (sqHead) (status) (d0) (d1) : (State.complete s c opc sqHead status d0 d1).ops = s.ops := by simp [State.complete]
@[simp] theorem State.complete_ended (s : State) (c) (opc) (sqHead) (status) (d0) (d1) : (State.complete s c opc sqHead status d0 d1).ended = s.ended := by simp [State.complete]
@[simp] theorem State.complete_fleet (s : State) (c) (opc) (sqHead) (status) (d0) (d1) : (State.complete s c opc sqHead status d0 d1).fleet = s.fleet := by simp [State.complete]
@[simp] theorem State.complete_freeCtr (s : State) (c) (opc) (sqHead) (status) (d0) (d1) : (State.complete s c opc sqHead status d0 d1).freeCtr = s.freeCtr := by simp [State.complete]
@[simp] theorem State.complete_pending (s : State) (c) (opc) (sqHead) (status) (d0) (d1) : (State.complete s c opc sqHead status d0 d1).pending = s.pending := by simp [State.complete]

@[simp] theorem State.flushEq_boot (s : State) (x1) : (State.flushEq s x1).boot = s.boot := by
  induction x1 generalizing s with
  | zero => rfl
  | succ k ih => unfold State.flushEq; dsimp only; (repeat' split) <;> simp [ih] <;> split <;> simp
@[simp] theorem State.flushEq_mbx (s : State) (x1) : (State.flushEq s x1).mbx = s.mbx := by
  induction x1 generalizing s with
  | zero => rfl
  | succ k ih => unfold State.flushEq; dsimp only; (repeat' split) <;> simp [ih] <;> split <;> simp
@[simp] theorem State.flushEq_audit (s : State) (x1) : (State.flushEq s x1).audit = s.audit := by
  induction x1 generalizing s with
  | zero => rfl
  | succ k ih => unfold State.flushEq; dsimp only; (repeat' split) <;> simp [ih] <;> split <;> simp
@[simp] theorem State.flushEq_pins (s : State) (x1) : (State.flushEq s x1).pins = s.pins := by
  induction x1 generalizing s with
  | zero => rfl
  | succ k ih => unfold State.flushEq; dsimp only; (repeat' split) <;> simp [ih] <;> split <;> simp
@[simp] theorem State.flushEq_power (s : State) (x1) : (State.flushEq s x1).power = s.power := by
  induction x1 generalizing s with
  | zero => rfl
  | succ k ih => unfold State.flushEq; dsimp only; (repeat' split) <;> simp [ih] <;> split <;> simp
@[simp] theorem State.flushEq_events (s : State) (x1) : (State.flushEq s x1).events = s.events := by
  induction x1 generalizing s with
  | zero => rfl
  | succ k ih => unfold State.flushEq; dsimp only; (repeat' split) <;> simp [ih] <;> split <;> simp
@[simp] theorem State.flushEq_fences (s : State) (x1) : (State.flushEq s x1).fences = s.fences := by
  induction x1 generalizing s with
  | zero => rfl
  | succ k ih => unfold State.flushEq; dsimp only; (repeat' split) <;> simp [ih] <;> split <;> simp
@[simp] theorem State.flushEq_heat (s : State) (x1) : (State.flushEq s x1).heat = s.heat := by
  induction x1 generalizing s with
  | zero => rfl
  | succ k ih => unfold State.flushEq; dsimp only; (repeat' split) <;> simp [ih] <;> split <;> simp
@[simp] theorem State.flushEq_ops (s : State) (x1) : (State.flushEq s x1).ops = s.ops := by
  induction x1 generalizing s with
  | zero => rfl
  | succ k ih => unfold State.flushEq; dsimp only; (repeat' split) <;> simp [ih] <;> split <;> simp
@[simp] theorem State.flushEq_ended (s : State) (x1) : (State.flushEq s x1).ended = s.ended := by
  induction x1 generalizing s with
  | zero => rfl
  | succ k ih => unfold State.flushEq; dsimp only; (repeat' split) <;> simp [ih] <;> split <;> simp
@[simp] theorem State.flushEq_fleet (s : State) (x1) : (State.flushEq s x1).fleet = s.fleet := by
  induction x1 generalizing s with
  | zero => rfl
  | succ k ih => unfold State.flushEq; dsimp only; (repeat' split) <;> simp [ih] <;> split <;> simp
@[simp] theorem State.flushEq_freeCtr (s : State) (x1) : (State.flushEq s x1).freeCtr = s.freeCtr := by
  induction x1 generalizing s with
  | zero => rfl
  | succ k ih => unfold State.flushEq; dsimp only; (repeat' split) <;> simp [ih] <;> split <;> simp
@[simp] theorem State.flushEq_pending (s : State) (x1) : (State.flushEq s x1).pending = s.pending := by
  induction x1 generalizing s with
  | zero => rfl
  | succ k ih => unfold State.flushEq; dsimp only; (repeat' split) <;> simp [ih] <;> split <;> simp

@[simp] theorem State.postEvent_boot (s : State) (e) : (State.postEvent s e).boot = s.boot := by simp [State.postEvent]
@[simp] theorem State.postEvent_mbx (s : State) (e) : (State.postEvent s e).mbx = s.mbx := by simp [State.postEvent]
@[simp] theorem State.postEvent_audit (s : State) (e) : (State.postEvent s e).audit = s.audit := by simp [State.postEvent]
@[simp] theorem State.postEvent_pins (s : State) (e) : (State.postEvent s e).pins = s.pins := by simp [State.postEvent]
@[simp] theorem State.postEvent_power (s : State) (e) : (State.postEvent s e).power = s.power := by simp [State.postEvent]
@[simp] theorem State.postEvent_fences (s : State) (e) : (State.postEvent s e).fences = s.fences := by simp [State.postEvent]
@[simp] theorem State.postEvent_heat (s : State) (e) : (State.postEvent s e).heat = s.heat := by simp [State.postEvent]
@[simp] theorem State.postEvent_ops (s : State) (e) : (State.postEvent s e).ops = s.ops := by simp [State.postEvent]
@[simp] theorem State.postEvent_ended (s : State) (e) : (State.postEvent s e).ended = s.ended := by simp [State.postEvent]
@[simp] theorem State.postEvent_fleet (s : State) (e) : (State.postEvent s e).fleet = s.fleet := by simp [State.postEvent]
@[simp] theorem State.postEvent_freeCtr (s : State) (e) : (State.postEvent s e).freeCtr = s.freeCtr := by simp [State.postEvent]
@[simp] theorem State.postEvent_pending (s : State) (e) : (State.postEvent s e).pending = s.pending := by simp [State.postEvent]

@[simp] theorem State.closeEvents_boot (s : State) (f) : (State.closeEvents s f).boot = s.boot := by simp [State.closeEvents]
@[simp] theorem State.closeEvents_mbx (s : State) (f) : (State.closeEvents s f).mbx = s.mbx := by simp [State.closeEvents]
@[simp] theorem State.closeEvents_audit (s : State) (f) : (State.closeEvents s f).audit = s.audit := by simp [State.closeEvents]
@[simp] theorem State.closeEvents_pins (s : State) (f) : (State.closeEvents s f).pins = s.pins := by simp [State.closeEvents]
@[simp] theorem State.closeEvents_power (s : State) (f) : (State.closeEvents s f).power = s.power := by simp [State.closeEvents]
@[simp] theorem State.closeEvents_fences (s : State) (f) : (State.closeEvents s f).fences = s.fences := by simp [State.closeEvents]
@[simp] theorem State.closeEvents_heat (s : State) (f) : (State.closeEvents s f).heat = s.heat := by simp [State.closeEvents]
@[simp] theorem State.closeEvents_ops (s : State) (f) : (State.closeEvents s f).ops = s.ops := by simp [State.closeEvents]
@[simp] theorem State.closeEvents_ended (s : State) (f) : (State.closeEvents s f).ended = s.ended := by simp [State.closeEvents]
@[simp] theorem State.closeEvents_fleet (s : State) (f) : (State.closeEvents s f).fleet = s.fleet := by simp [State.closeEvents]
@[simp] theorem State.closeEvents_freeCtr (s : State) (f) : (State.closeEvents s f).freeCtr = s.freeCtr := by simp [State.closeEvents]
@[simp] theorem State.closeEvents_pending (s : State) (f) : (State.closeEvents s f).pending = s.pending := by simp [State.closeEvents]

@[simp] theorem State.checkpoint_boot (s : State) : (State.checkpoint s).boot = s.boot := rfl
@[simp] theorem State.checkpoint_mbx (s : State) : (State.checkpoint s).mbx = s.mbx := rfl
@[simp] theorem State.checkpoint_pins (s : State) : (State.checkpoint s).pins = s.pins := rfl
@[simp] theorem State.checkpoint_power (s : State) : (State.checkpoint s).power = s.power := rfl
@[simp] theorem State.checkpoint_port (s : State) : (State.checkpoint s).port = s.port := rfl
@[simp] theorem State.checkpoint_regs (s : State) : (State.checkpoint s).regs = s.regs := rfl
@[simp] theorem State.checkpoint_events (s : State) : (State.checkpoint s).events = s.events := rfl
@[simp] theorem State.checkpoint_fences (s : State) : (State.checkpoint s).fences = s.fences := rfl
@[simp] theorem State.checkpoint_heat (s : State) : (State.checkpoint s).heat = s.heat := rfl
@[simp] theorem State.checkpoint_ops (s : State) : (State.checkpoint s).ops = s.ops := rfl
@[simp] theorem State.checkpoint_ended (s : State) : (State.checkpoint s).ended = s.ended := rfl
@[simp] theorem State.checkpoint_fleet (s : State) : (State.checkpoint s).fleet = s.fleet := rfl
@[simp] theorem State.checkpoint_out (s : State) : (State.checkpoint s).out = s.out := rfl
@[simp] theorem State.checkpoint_pending (s : State) : (State.checkpoint s).pending = s.pending := rfl

@[simp] theorem State.auditAppend_boot (s : State) (action) (role) (status) (key) (object) : (State.auditAppend s action role status key object).boot = s.boot := by simp [State.auditAppend]
@[simp] theorem State.auditAppend_mbx (s : State) (action) (role) (status) (key) (object) : (State.auditAppend s action role status key object).mbx = s.mbx := by simp [State.auditAppend]
@[simp] theorem State.auditAppend_pins (s : State) (action) (role) (status) (key) (object) : (State.auditAppend s action role status key object).pins = s.pins := by simp [State.auditAppend]
@[simp] theorem State.auditAppend_power (s : State) (action) (role) (status) (key) (object) : (State.auditAppend s action role status key object).power = s.power := by simp [State.auditAppend]
@[simp] theorem State.auditAppend_port (s : State) (action) (role) (status) (key) (object) : (State.auditAppend s action role status key object).port = s.port := by simp [State.auditAppend]
@[simp] theorem State.auditAppend_regs (s : State) (action) (role) (status) (key) (object) : (State.auditAppend s action role status key object).regs = s.regs := by simp [State.auditAppend]
@[simp] theorem State.auditAppend_events (s : State) (action) (role) (status) (key) (object) : (State.auditAppend s action role status key object).events = s.events := by simp [State.auditAppend]
@[simp] theorem State.auditAppend_fences (s : State) (action) (role) (status) (key) (object) : (State.auditAppend s action role status key object).fences = s.fences := by simp [State.auditAppend]
@[simp] theorem State.auditAppend_heat (s : State) (action) (role) (status) (key) (object) : (State.auditAppend s action role status key object).heat = s.heat := by simp [State.auditAppend]
@[simp] theorem State.auditAppend_ops (s : State) (action) (role) (status) (key) (object) : (State.auditAppend s action role status key object).ops = s.ops := by simp [State.auditAppend]
@[simp] theorem State.auditAppend_ended (s : State) (action) (role) (status) (key) (object) : (State.auditAppend s action role status key object).ended = s.ended := by simp [State.auditAppend]
@[simp] theorem State.auditAppend_fleet (s : State) (action) (role) (status) (key) (object) : (State.auditAppend s action role status key object).fleet = s.fleet := by simp [State.auditAppend]
@[simp] theorem State.auditAppend_out (s : State) (action) (role) (status) (key) (object) : (State.auditAppend s action role status key object).out = s.out := by simp [State.auditAppend]
@[simp] theorem State.auditAppend_pending (s : State) (action) (role) (status) (key) (object) : (State.auditAppend s action role status key object).pending = s.pending := by simp [State.auditAppend]

@[simp] theorem State.auditLate_boot (s : State) (action) (role) (status) (key) (object) : (State.auditLate s action role status key object).boot = s.boot := by simp [State.auditLate]
@[simp] theorem State.auditLate_mbx (s : State) (action) (role) (status) (key) (object) : (State.auditLate s action role status key object).mbx = s.mbx := by simp [State.auditLate]
@[simp] theorem State.auditLate_pins (s : State) (action) (role) (status) (key) (object) : (State.auditLate s action role status key object).pins = s.pins := by simp [State.auditLate]
@[simp] theorem State.auditLate_power (s : State) (action) (role) (status) (key) (object) : (State.auditLate s action role status key object).power = s.power := by simp [State.auditLate]
@[simp] theorem State.auditLate_port (s : State) (action) (role) (status) (key) (object) : (State.auditLate s action role status key object).port = s.port := by simp [State.auditLate]
@[simp] theorem State.auditLate_regs (s : State) (action) (role) (status) (key) (object) : (State.auditLate s action role status key object).regs = s.regs := by simp [State.auditLate]
@[simp] theorem State.auditLate_events (s : State) (action) (role) (status) (key) (object) : (State.auditLate s action role status key object).events = s.events := by simp [State.auditLate]
@[simp] theorem State.auditLate_fences (s : State) (action) (role) (status) (key) (object) : (State.auditLate s action role status key object).fences = s.fences := by simp [State.auditLate]
@[simp] theorem State.auditLate_heat (s : State) (action) (role) (status) (key) (object) : (State.auditLate s action role status key object).heat = s.heat := by simp [State.auditLate]
@[simp] theorem State.auditLate_ops (s : State) (action) (role) (status) (key) (object) : (State.auditLate s action role status key object).ops = s.ops := by simp [State.auditLate]
@[simp] theorem State.auditLate_ended (s : State) (action) (role) (status) (key) (object) : (State.auditLate s action role status key object).ended = s.ended := by simp [State.auditLate]
@[simp] theorem State.auditLate_fleet (s : State) (action) (role) (status) (key) (object) : (State.auditLate s action role status key object).fleet = s.fleet := by simp [State.auditLate]
@[simp] theorem State.auditLate_out (s : State) (action) (role) (status) (key) (object) : (State.auditLate s action role status key object).out = s.out := by simp [State.auditLate]
@[simp] theorem State.auditLate_pending (s : State) (action) (role) (status) (key) (object) : (State.auditLate s action role status key object).pending = s.pending := by simp [State.auditLate]

@[simp] theorem State.endRole_boot (s : State) (r) : (State.endRole s r).boot = s.boot := by simp [State.endRole]
@[simp] theorem State.endRole_mbx (s : State) (r) : (State.endRole s r).mbx = s.mbx := by simp [State.endRole]
@[simp] theorem State.endRole_pins (s : State) (r) : (State.endRole s r).pins = s.pins := by simp [State.endRole]
@[simp] theorem State.endRole_power (s : State) (r) : (State.endRole s r).power = s.power := by simp [State.endRole]
@[simp] theorem State.endRole_regs (s : State) (r) : (State.endRole s r).regs = s.regs := by simp [State.endRole]
@[simp] theorem State.endRole_events (s : State) (r) : (State.endRole s r).events = s.events := by simp [State.endRole]
@[simp] theorem State.endRole_fences (s : State) (r) : (State.endRole s r).fences = s.fences := by simp [State.endRole]
@[simp] theorem State.endRole_heat (s : State) (r) : (State.endRole s r).heat = s.heat := by simp [State.endRole]
@[simp] theorem State.endRole_ops (s : State) (r) : (State.endRole s r).ops = s.ops := by simp [State.endRole]
@[simp] theorem State.endRole_ended (s : State) (r) : (State.endRole s r).ended = s.ended := by simp [State.endRole]
@[simp] theorem State.endRole_fleet (s : State) (r) : (State.endRole s r).fleet = s.fleet := by simp [State.endRole]
@[simp] theorem State.endRole_out (s : State) (r) : (State.endRole s r).out = s.out := by simp [State.endRole]
@[simp] theorem State.endRole_pending (s : State) (r) : (State.endRole s r).pending = s.pending := by simp [State.endRole]

@[simp] theorem State.endSession_boot (s : State) (mask) : (State.endSession s mask).boot = s.boot := by simp [State.endSession]
@[simp] theorem State.endSession_pins (s : State) (mask) : (State.endSession s mask).pins = s.pins := by simp [State.endSession]
@[simp] theorem State.endSession_power (s : State) (mask) : (State.endSession s mask).power = s.power := by simp [State.endSession]
@[simp] theorem State.endSession_regs (s : State) (mask) : (State.endSession s mask).regs = s.regs := by simp [State.endSession]
@[simp] theorem State.endSession_events (s : State) (mask) : (State.endSession s mask).events = s.events := by simp [State.endSession]
@[simp] theorem State.endSession_fences (s : State) (mask) : (State.endSession s mask).fences = s.fences := by simp [State.endSession]
@[simp] theorem State.endSession_heat (s : State) (mask) : (State.endSession s mask).heat = s.heat := by simp [State.endSession]
@[simp] theorem State.endSession_ops (s : State) (mask) : (State.endSession s mask).ops = s.ops := by simp [State.endSession]
@[simp] theorem State.endSession_ended (s : State) (mask) : (State.endSession s mask).ended = s.ended := by simp [State.endSession]
@[simp] theorem State.endSession_fleet (s : State) (mask) : (State.endSession s mask).fleet = s.fleet := by simp [State.endSession]
@[simp] theorem State.endSession_out (s : State) (mask) : (State.endSession s mask).out = s.out := by simp [State.endSession]
@[simp] theorem State.endSession_pending (s : State) (mask) : (State.endSession s mask).pending = s.pending := by simp [State.endSession]

@[simp] theorem State.recordSticky_mbx (s : State) (u) : (State.recordSticky s u).mbx = s.mbx := by simp [State.recordSticky]
@[simp] theorem State.recordSticky_audit (s : State) (u) : (State.recordSticky s u).audit = s.audit := by simp [State.recordSticky]
@[simp] theorem State.recordSticky_pins (s : State) (u) : (State.recordSticky s u).pins = s.pins := by simp [State.recordSticky]
@[simp] theorem State.recordSticky_power (s : State) (u) : (State.recordSticky s u).power = s.power := by simp [State.recordSticky]
@[simp] theorem State.recordSticky_port (s : State) (u) : (State.recordSticky s u).port = s.port := by simp [State.recordSticky]
@[simp] theorem State.recordSticky_regs (s : State) (u) : (State.recordSticky s u).regs = s.regs := by simp [State.recordSticky]
@[simp] theorem State.recordSticky_events (s : State) (u) : (State.recordSticky s u).events = s.events := by simp [State.recordSticky]
@[simp] theorem State.recordSticky_fences (s : State) (u) : (State.recordSticky s u).fences = s.fences := by simp [State.recordSticky]
@[simp] theorem State.recordSticky_heat (s : State) (u) : (State.recordSticky s u).heat = s.heat := by simp [State.recordSticky]
@[simp] theorem State.recordSticky_ops (s : State) (u) : (State.recordSticky s u).ops = s.ops := by simp [State.recordSticky]
@[simp] theorem State.recordSticky_ended (s : State) (u) : (State.recordSticky s u).ended = s.ended := by simp [State.recordSticky]
@[simp] theorem State.recordSticky_fleet (s : State) (u) : (State.recordSticky s u).fleet = s.fleet := by simp [State.recordSticky]
@[simp] theorem State.recordSticky_out (s : State) (u) : (State.recordSticky s u).out = s.out := by simp [State.recordSticky]
@[simp] theorem State.recordSticky_freeCtr (s : State) (u) : (State.recordSticky s u).freeCtr = s.freeCtr := by simp [State.recordSticky]
@[simp] theorem State.recordSticky_pending (s : State) (u) : (State.recordSticky s u).pending = s.pending := by simp [State.recordSticky]

@[simp] theorem State.fenceMark_mbx (s : State) (u) (cause) : (State.fenceMark s u cause).mbx = s.mbx := by simp [State.fenceMark]
@[simp] theorem State.fenceMark_pins (s : State) (u) (cause) : (State.fenceMark s u cause).pins = s.pins := by simp [State.fenceMark]
@[simp] theorem State.fenceMark_power (s : State) (u) (cause) : (State.fenceMark s u cause).power = s.power := by simp [State.fenceMark]
@[simp] theorem State.fenceMark_port (s : State) (u) (cause) : (State.fenceMark s u cause).port = s.port := by simp [State.fenceMark]
@[simp] theorem State.fenceMark_regs (s : State) (u) (cause) : (State.fenceMark s u cause).regs = s.regs := by simp [State.fenceMark]
@[simp] theorem State.fenceMark_events (s : State) (u) (cause) : (State.fenceMark s u cause).events = s.events := by simp [State.fenceMark]
@[simp] theorem State.fenceMark_heat (s : State) (u) (cause) : (State.fenceMark s u cause).heat = s.heat := by simp [State.fenceMark]
@[simp] theorem State.fenceMark_ops (s : State) (u) (cause) : (State.fenceMark s u cause).ops = s.ops := by simp [State.fenceMark]
@[simp] theorem State.fenceMark_ended (s : State) (u) (cause) : (State.fenceMark s u cause).ended = s.ended := by simp [State.fenceMark]
@[simp] theorem State.fenceMark_fleet (s : State) (u) (cause) : (State.fenceMark s u cause).fleet = s.fleet := by simp [State.fenceMark]
@[simp] theorem State.fenceMark_out (s : State) (u) (cause) : (State.fenceMark s u cause).out = s.out := by simp [State.fenceMark]
@[simp] theorem State.fenceMark_pending (s : State) (u) (cause) : (State.fenceMark s u cause).pending = s.pending := by simp [State.fenceMark]

@[simp] theorem State.fenceStart_mbx (s : State) (u) (cause) : (State.fenceStart s u cause).mbx = s.mbx := by
  unfold State.fenceStart; (repeat' split) <;> simp
@[simp] theorem State.fenceStart_pins (s : State) (u) (cause) : (State.fenceStart s u cause).pins = s.pins := by
  unfold State.fenceStart; (repeat' split) <;> simp
@[simp] theorem State.fenceStart_power (s : State) (u) (cause) : (State.fenceStart s u cause).power = s.power := by
  unfold State.fenceStart; (repeat' split) <;> simp
@[simp] theorem State.fenceStart_port (s : State) (u) (cause) : (State.fenceStart s u cause).port = s.port := by
  unfold State.fenceStart; (repeat' split) <;> simp
@[simp] theorem State.fenceStart_regs (s : State) (u) (cause) : (State.fenceStart s u cause).regs = s.regs := by
  unfold State.fenceStart; (repeat' split) <;> simp
@[simp] theorem State.fenceStart_events (s : State) (u) (cause) : (State.fenceStart s u cause).events = s.events := by
  unfold State.fenceStart; (repeat' split) <;> simp
@[simp] theorem State.fenceStart_heat (s : State) (u) (cause) : (State.fenceStart s u cause).heat = s.heat := by
  unfold State.fenceStart; (repeat' split) <;> simp
@[simp] theorem State.fenceStart_ops (s : State) (u) (cause) : (State.fenceStart s u cause).ops = s.ops := by
  unfold State.fenceStart; (repeat' split) <;> simp
@[simp] theorem State.fenceStart_ended (s : State) (u) (cause) : (State.fenceStart s u cause).ended = s.ended := by
  unfold State.fenceStart; (repeat' split) <;> simp
@[simp] theorem State.fenceStart_fleet (s : State) (u) (cause) : (State.fenceStart s u cause).fleet = s.fleet := by
  unfold State.fenceStart; (repeat' split) <;> simp
@[simp] theorem State.fenceStart_out (s : State) (u) (cause) : (State.fenceStart s u cause).out = s.out := by
  unfold State.fenceStart; (repeat' split) <;> simp
@[simp] theorem State.fenceStart_pending (s : State) (u) (cause) : (State.fenceStart s u cause).pending = s.pending := by
  unfold State.fenceStart; (repeat' split) <;> simp

@[simp] theorem State.applyFences_mbx (s : State) (l) : (State.applyFences s l).mbx = s.mbx := by simp [State.applyFences]
@[simp] theorem State.applyFences_pins (s : State) (l) : (State.applyFences s l).pins = s.pins := by simp [State.applyFences]
@[simp] theorem State.applyFences_power (s : State) (l) : (State.applyFences s l).power = s.power := by simp [State.applyFences]
@[simp] theorem State.applyFences_port (s : State) (l) : (State.applyFences s l).port = s.port := by simp [State.applyFences]
@[simp] theorem State.applyFences_regs (s : State) (l) : (State.applyFences s l).regs = s.regs := by simp [State.applyFences]
@[simp] theorem State.applyFences_events (s : State) (l) : (State.applyFences s l).events = s.events := by simp [State.applyFences]
@[simp] theorem State.applyFences_heat (s : State) (l) : (State.applyFences s l).heat = s.heat := by simp [State.applyFences]
@[simp] theorem State.applyFences_ops (s : State) (l) : (State.applyFences s l).ops = s.ops := by simp [State.applyFences]
@[simp] theorem State.applyFences_ended (s : State) (l) : (State.applyFences s l).ended = s.ended := by simp [State.applyFences]
@[simp] theorem State.applyFences_fleet (s : State) (l) : (State.applyFences s l).fleet = s.fleet := by simp [State.applyFences]
@[simp] theorem State.applyFences_out (s : State) (l) : (State.applyFences s l).out = s.out := by simp [State.applyFences]
@[simp] theorem State.applyFences_pending (s : State) (l) : (State.applyFences s l).pending = s.pending := by simp [State.applyFences]

@[simp] theorem State.noteEnded_boot (s : State) (ring) (tag) (opc) (link) : (State.noteEnded s ring tag opc link).boot = s.boot := rfl
@[simp] theorem State.noteEnded_mbx (s : State) (ring) (tag) (opc) (link) : (State.noteEnded s ring tag opc link).mbx = s.mbx := rfl
@[simp] theorem State.noteEnded_audit (s : State) (ring) (tag) (opc) (link) : (State.noteEnded s ring tag opc link).audit = s.audit := rfl
@[simp] theorem State.noteEnded_pins (s : State) (ring) (tag) (opc) (link) : (State.noteEnded s ring tag opc link).pins = s.pins := rfl
@[simp] theorem State.noteEnded_power (s : State) (ring) (tag) (opc) (link) : (State.noteEnded s ring tag opc link).power = s.power := rfl
@[simp] theorem State.noteEnded_port (s : State) (ring) (tag) (opc) (link) : (State.noteEnded s ring tag opc link).port = s.port := rfl
@[simp] theorem State.noteEnded_regs (s : State) (ring) (tag) (opc) (link) : (State.noteEnded s ring tag opc link).regs = s.regs := rfl
@[simp] theorem State.noteEnded_events (s : State) (ring) (tag) (opc) (link) : (State.noteEnded s ring tag opc link).events = s.events := rfl
@[simp] theorem State.noteEnded_fences (s : State) (ring) (tag) (opc) (link) : (State.noteEnded s ring tag opc link).fences = s.fences := rfl
@[simp] theorem State.noteEnded_heat (s : State) (ring) (tag) (opc) (link) : (State.noteEnded s ring tag opc link).heat = s.heat := rfl
@[simp] theorem State.noteEnded_ops (s : State) (ring) (tag) (opc) (link) : (State.noteEnded s ring tag opc link).ops = s.ops := rfl
@[simp] theorem State.noteEnded_fleet (s : State) (ring) (tag) (opc) (link) : (State.noteEnded s ring tag opc link).fleet = s.fleet := rfl
@[simp] theorem State.noteEnded_out (s : State) (ring) (tag) (opc) (link) : (State.noteEnded s ring tag opc link).out = s.out := rfl
@[simp] theorem State.noteEnded_freeCtr (s : State) (ring) (tag) (opc) (link) : (State.noteEnded s ring tag opc link).freeCtr = s.freeCtr := rfl
@[simp] theorem State.noteEnded_pending (s : State) (ring) (tag) (opc) (link) : (State.noteEnded s ring tag opc link).pending = s.pending := rfl

@[simp] theorem State.finishOp_boot (s : State) (o) (status) (d0) (d1) : (State.finishOp s o status d0 d1).boot = s.boot := by
  simp only [State.finishOp]; (repeat' split) <;> simp
@[simp] theorem State.finishOp_mbx (s : State) (o) (status) (d0) (d1) : (State.finishOp s o status d0 d1).mbx = s.mbx := by
  simp only [State.finishOp]; (repeat' split) <;> simp
@[simp] theorem State.finishOp_audit (s : State) (o) (status) (d0) (d1) : (State.finishOp s o status d0 d1).audit = s.audit := by
  simp only [State.finishOp]; (repeat' split) <;> simp
@[simp] theorem State.finishOp_pins (s : State) (o) (status) (d0) (d1) : (State.finishOp s o status d0 d1).pins = s.pins := by
  simp only [State.finishOp]; (repeat' split) <;> simp
@[simp] theorem State.finishOp_power (s : State) (o) (status) (d0) (d1) : (State.finishOp s o status d0 d1).power = s.power := by
  simp only [State.finishOp]; (repeat' split) <;> simp
@[simp] theorem State.finishOp_events (s : State) (o) (status) (d0) (d1) : (State.finishOp s o status d0 d1).events = s.events := by
  simp only [State.finishOp]; (repeat' split) <;> simp
@[simp] theorem State.finishOp_fences (s : State) (o) (status) (d0) (d1) : (State.finishOp s o status d0 d1).fences = s.fences := by
  simp only [State.finishOp]; (repeat' split) <;> simp
@[simp] theorem State.finishOp_heat (s : State) (o) (status) (d0) (d1) : (State.finishOp s o status d0 d1).heat = s.heat := by
  simp only [State.finishOp]; (repeat' split) <;> simp
@[simp] theorem State.finishOp_fleet (s : State) (o) (status) (d0) (d1) : (State.finishOp s o status d0 d1).fleet = s.fleet := by
  simp only [State.finishOp]; (repeat' split) <;> simp
@[simp] theorem State.finishOp_freeCtr (s : State) (o) (status) (d0) (d1) : (State.finishOp s o status d0 d1).freeCtr = s.freeCtr := by
  simp only [State.finishOp]; (repeat' split) <;> simp
@[simp] theorem State.finishOp_pending (s : State) (o) (status) (d0) (d1) : (State.finishOp s o status d0 d1).pending = s.pending := by
  simp only [State.finishOp]; (repeat' split) <;> simp

@[simp] theorem State.setOp_boot (s : State) (o) : (State.setOp s o).boot = s.boot := rfl
@[simp] theorem State.setOp_mbx (s : State) (o) : (State.setOp s o).mbx = s.mbx := rfl
@[simp] theorem State.setOp_audit (s : State) (o) : (State.setOp s o).audit = s.audit := rfl
@[simp] theorem State.setOp_pins (s : State) (o) : (State.setOp s o).pins = s.pins := rfl
@[simp] theorem State.setOp_power (s : State) (o) : (State.setOp s o).power = s.power := rfl
@[simp] theorem State.setOp_port (s : State) (o) : (State.setOp s o).port = s.port := rfl
@[simp] theorem State.setOp_regs (s : State) (o) : (State.setOp s o).regs = s.regs := rfl
@[simp] theorem State.setOp_events (s : State) (o) : (State.setOp s o).events = s.events := rfl
@[simp] theorem State.setOp_fences (s : State) (o) : (State.setOp s o).fences = s.fences := rfl
@[simp] theorem State.setOp_heat (s : State) (o) : (State.setOp s o).heat = s.heat := rfl
@[simp] theorem State.setOp_ended (s : State) (o) : (State.setOp s o).ended = s.ended := rfl
@[simp] theorem State.setOp_fleet (s : State) (o) : (State.setOp s o).fleet = s.fleet := rfl
@[simp] theorem State.setOp_out (s : State) (o) : (State.setOp s o).out = s.out := rfl
@[simp] theorem State.setOp_freeCtr (s : State) (o) : (State.setOp s o).freeCtr = s.freeCtr := rfl
@[simp] theorem State.setOp_pending (s : State) (o) : (State.setOp s o).pending = s.pending := rfl

@[simp] theorem State.endOp_boot (s : State) (o) (status) : (State.endOp s o status).boot = s.boot := by
  unfold State.endOp; (repeat' split) <;> simp
@[simp] theorem State.endOp_mbx (s : State) (o) (status) : (State.endOp s o status).mbx = s.mbx := by
  unfold State.endOp; (repeat' split) <;> simp
@[simp] theorem State.endOp_audit (s : State) (o) (status) : (State.endOp s o status).audit = s.audit := by
  unfold State.endOp; (repeat' split) <;> simp
@[simp] theorem State.endOp_pins (s : State) (o) (status) : (State.endOp s o status).pins = s.pins := by
  unfold State.endOp; (repeat' split) <;> simp
@[simp] theorem State.endOp_power (s : State) (o) (status) : (State.endOp s o status).power = s.power := by
  unfold State.endOp; (repeat' split) <;> simp
@[simp] theorem State.endOp_events (s : State) (o) (status) : (State.endOp s o status).events = s.events := by
  unfold State.endOp; (repeat' split) <;> simp
@[simp] theorem State.endOp_fences (s : State) (o) (status) : (State.endOp s o status).fences = s.fences := by
  unfold State.endOp; (repeat' split) <;> simp
@[simp] theorem State.endOp_heat (s : State) (o) (status) : (State.endOp s o status).heat = s.heat := by
  unfold State.endOp; (repeat' split) <;> simp
@[simp] theorem State.endOp_fleet (s : State) (o) (status) : (State.endOp s o status).fleet = s.fleet := by
  unfold State.endOp; (repeat' split) <;> simp
@[simp] theorem State.endOp_freeCtr (s : State) (o) (status) : (State.endOp s o status).freeCtr = s.freeCtr := by
  unfold State.endOp; (repeat' split) <;> simp
@[simp] theorem State.endOp_pending (s : State) (o) (status) : (State.endOp s o status).pending = s.pending := by
  unfold State.endOp; (repeat' split) <;> simp

@[simp] theorem State.cause_boot (s : State) (unit) (bit) : (State.cause s unit bit).boot = s.boot := by
  unfold State.cause; (repeat' split) <;> simp
@[simp] theorem State.cause_mbx (s : State) (unit) (bit) : (State.cause s unit bit).mbx = s.mbx := by
  unfold State.cause; (repeat' split) <;> simp
@[simp] theorem State.cause_audit (s : State) (unit) (bit) : (State.cause s unit bit).audit = s.audit := by
  unfold State.cause; (repeat' split) <;> simp
@[simp] theorem State.cause_pins (s : State) (unit) (bit) : (State.cause s unit bit).pins = s.pins := by
  unfold State.cause; (repeat' split) <;> simp
@[simp] theorem State.cause_power (s : State) (unit) (bit) : (State.cause s unit bit).power = s.power := by
  unfold State.cause; (repeat' split) <;> simp
@[simp] theorem State.cause_port (s : State) (unit) (bit) : (State.cause s unit bit).port = s.port := by
  unfold State.cause; (repeat' split) <;> simp
@[simp] theorem State.cause_regs (s : State) (unit) (bit) : (State.cause s unit bit).regs = s.regs := by
  unfold State.cause; (repeat' split) <;> simp
@[simp] theorem State.cause_events (s : State) (unit) (bit) : (State.cause s unit bit).events = s.events := by
  unfold State.cause; (repeat' split) <;> simp
@[simp] theorem State.cause_fences (s : State) (unit) (bit) : (State.cause s unit bit).fences = s.fences := by
  unfold State.cause; (repeat' split) <;> simp
@[simp] theorem State.cause_ops (s : State) (unit) (bit) : (State.cause s unit bit).ops = s.ops := by
  unfold State.cause; (repeat' split) <;> simp
@[simp] theorem State.cause_ended (s : State) (unit) (bit) : (State.cause s unit bit).ended = s.ended := by
  unfold State.cause; (repeat' split) <;> simp
@[simp] theorem State.cause_fleet (s : State) (unit) (bit) : (State.cause s unit bit).fleet = s.fleet := by
  unfold State.cause; (repeat' split) <;> simp
@[simp] theorem State.cause_out (s : State) (unit) (bit) : (State.cause s unit bit).out = s.out := by
  unfold State.cause; (repeat' split) <;> simp
@[simp] theorem State.cause_freeCtr (s : State) (unit) (bit) : (State.cause s unit bit).freeCtr = s.freeCtr := by
  unfold State.cause; (repeat' split) <;> simp
@[simp] theorem State.cause_pending (s : State) (unit) (bit) : (State.cause s unit bit).pending = s.pending := by
  unfold State.cause; (repeat' split) <;> simp

@[simp] theorem State.markRetired_mbx (s : State) (frame) : (State.markRetired s frame).mbx = s.mbx := by simp [State.markRetired]
@[simp] theorem State.markRetired_pins (s : State) (frame) : (State.markRetired s frame).pins = s.pins := by simp [State.markRetired]
@[simp] theorem State.markRetired_power (s : State) (frame) : (State.markRetired s frame).power = s.power := by simp [State.markRetired]
@[simp] theorem State.markRetired_port (s : State) (frame) : (State.markRetired s frame).port = s.port := by simp [State.markRetired]
@[simp] theorem State.markRetired_regs (s : State) (frame) : (State.markRetired s frame).regs = s.regs := by simp [State.markRetired]
@[simp] theorem State.markRetired_events (s : State) (frame) : (State.markRetired s frame).events = s.events := by simp [State.markRetired]
@[simp] theorem State.markRetired_heat (s : State) (frame) : (State.markRetired s frame).heat = s.heat := by simp [State.markRetired]
@[simp] theorem State.markRetired_ops (s : State) (frame) : (State.markRetired s frame).ops = s.ops := by simp [State.markRetired]
@[simp] theorem State.markRetired_ended (s : State) (frame) : (State.markRetired s frame).ended = s.ended := by simp [State.markRetired]
@[simp] theorem State.markRetired_fleet (s : State) (frame) : (State.markRetired s frame).fleet = s.fleet := by simp [State.markRetired]
@[simp] theorem State.markRetired_out (s : State) (frame) : (State.markRetired s frame).out = s.out := by simp [State.markRetired]
@[simp] theorem State.markRetired_pending (s : State) (frame) : (State.markRetired s frame).pending = s.pending := by simp [State.markRetired]

@[simp] theorem State.setRing_boot (s : State) (r) (f) : (State.setRing s r f).boot = s.boot := rfl
@[simp] theorem State.setRing_mbx (s : State) (r) (f) : (State.setRing s r f).mbx = s.mbx := rfl
@[simp] theorem State.setRing_audit (s : State) (r) (f) : (State.setRing s r f).audit = s.audit := rfl
@[simp] theorem State.setRing_pins (s : State) (r) (f) : (State.setRing s r f).pins = s.pins := rfl
@[simp] theorem State.setRing_power (s : State) (r) (f) : (State.setRing s r f).power = s.power := rfl
@[simp] theorem State.setRing_regs (s : State) (r) (f) : (State.setRing s r f).regs = s.regs := rfl
@[simp] theorem State.setRing_events (s : State) (r) (f) : (State.setRing s r f).events = s.events := rfl
@[simp] theorem State.setRing_fences (s : State) (r) (f) : (State.setRing s r f).fences = s.fences := rfl
@[simp] theorem State.setRing_heat (s : State) (r) (f) : (State.setRing s r f).heat = s.heat := rfl
@[simp] theorem State.setRing_ops (s : State) (r) (f) : (State.setRing s r f).ops = s.ops := rfl
@[simp] theorem State.setRing_ended (s : State) (r) (f) : (State.setRing s r f).ended = s.ended := rfl
@[simp] theorem State.setRing_fleet (s : State) (r) (f) : (State.setRing s r f).fleet = s.fleet := rfl
@[simp] theorem State.setRing_out (s : State) (r) (f) : (State.setRing s r f).out = s.out := rfl
@[simp] theorem State.setRing_freeCtr (s : State) (r) (f) : (State.setRing s r f).freeCtr = s.freeCtr := rfl
@[simp] theorem State.setRing_pending (s : State) (r) (f) : (State.setRing s r f).pending = s.pending := rfl

@[simp] theorem State.setRegs_boot (s : State) (f) : (State.setRegs s f).boot = s.boot := rfl
@[simp] theorem State.setRegs_mbx (s : State) (f) : (State.setRegs s f).mbx = s.mbx := rfl
@[simp] theorem State.setRegs_audit (s : State) (f) : (State.setRegs s f).audit = s.audit := rfl
@[simp] theorem State.setRegs_pins (s : State) (f) : (State.setRegs s f).pins = s.pins := rfl
@[simp] theorem State.setRegs_power (s : State) (f) : (State.setRegs s f).power = s.power := rfl
@[simp] theorem State.setRegs_port (s : State) (f) : (State.setRegs s f).port = s.port := rfl
@[simp] theorem State.setRegs_events (s : State) (f) : (State.setRegs s f).events = s.events := rfl
@[simp] theorem State.setRegs_fences (s : State) (f) : (State.setRegs s f).fences = s.fences := rfl
@[simp] theorem State.setRegs_heat (s : State) (f) : (State.setRegs s f).heat = s.heat := rfl
@[simp] theorem State.setRegs_ops (s : State) (f) : (State.setRegs s f).ops = s.ops := rfl
@[simp] theorem State.setRegs_ended (s : State) (f) : (State.setRegs s f).ended = s.ended := rfl
@[simp] theorem State.setRegs_fleet (s : State) (f) : (State.setRegs s f).fleet = s.fleet := rfl
@[simp] theorem State.setRegs_out (s : State) (f) : (State.setRegs s f).out = s.out := rfl
@[simp] theorem State.setRegs_freeCtr (s : State) (f) : (State.setRegs s f).freeCtr = s.freeCtr := rfl
@[simp] theorem State.setRegs_pending (s : State) (f) : (State.setRegs s f).pending = s.pending := rfl

@[simp] theorem State.accessError_boot (s : State) : (State.accessError s).boot = s.boot := rfl
@[simp] theorem State.accessError_mbx (s : State) : (State.accessError s).mbx = s.mbx := rfl
@[simp] theorem State.accessError_audit (s : State) : (State.accessError s).audit = s.audit := rfl
@[simp] theorem State.accessError_pins (s : State) : (State.accessError s).pins = s.pins := rfl
@[simp] theorem State.accessError_power (s : State) : (State.accessError s).power = s.power := rfl
@[simp] theorem State.accessError_port (s : State) : (State.accessError s).port = s.port := rfl
@[simp] theorem State.accessError_events (s : State) : (State.accessError s).events = s.events := rfl
@[simp] theorem State.accessError_fences (s : State) : (State.accessError s).fences = s.fences := rfl
@[simp] theorem State.accessError_heat (s : State) : (State.accessError s).heat = s.heat := rfl
@[simp] theorem State.accessError_ops (s : State) : (State.accessError s).ops = s.ops := rfl
@[simp] theorem State.accessError_ended (s : State) : (State.accessError s).ended = s.ended := rfl
@[simp] theorem State.accessError_fleet (s : State) : (State.accessError s).fleet = s.fleet := rfl
@[simp] theorem State.accessError_out (s : State) : (State.accessError s).out = s.out := rfl
@[simp] theorem State.accessError_freeCtr (s : State) : (State.accessError s).freeCtr = s.freeCtr := rfl
@[simp] theorem State.accessError_pending (s : State) : (State.accessError s).pending = s.pending := rfl

@[simp] theorem State.rightsError_boot (s : State) : (State.rightsError s).boot = s.boot := rfl
@[simp] theorem State.rightsError_mbx (s : State) : (State.rightsError s).mbx = s.mbx := rfl
@[simp] theorem State.rightsError_audit (s : State) : (State.rightsError s).audit = s.audit := rfl
@[simp] theorem State.rightsError_pins (s : State) : (State.rightsError s).pins = s.pins := rfl
@[simp] theorem State.rightsError_power (s : State) : (State.rightsError s).power = s.power := rfl
@[simp] theorem State.rightsError_port (s : State) : (State.rightsError s).port = s.port := rfl
@[simp] theorem State.rightsError_events (s : State) : (State.rightsError s).events = s.events := rfl
@[simp] theorem State.rightsError_fences (s : State) : (State.rightsError s).fences = s.fences := rfl
@[simp] theorem State.rightsError_heat (s : State) : (State.rightsError s).heat = s.heat := rfl
@[simp] theorem State.rightsError_ops (s : State) : (State.rightsError s).ops = s.ops := rfl
@[simp] theorem State.rightsError_ended (s : State) : (State.rightsError s).ended = s.ended := rfl
@[simp] theorem State.rightsError_fleet (s : State) : (State.rightsError s).fleet = s.fleet := rfl
@[simp] theorem State.rightsError_out (s : State) : (State.rightsError s).out = s.out := rfl
@[simp] theorem State.rightsError_freeCtr (s : State) : (State.rightsError s).freeCtr = s.freeCtr := rfl
@[simp] theorem State.rightsError_pending (s : State) : (State.rightsError s).pending = s.pending := rfl

@[simp] theorem State.clearDue_boot (s : State) : (State.clearDue s).boot = s.boot := rfl
@[simp] theorem State.clearDue_mbx (s : State) : (State.clearDue s).mbx = s.mbx := rfl
@[simp] theorem State.clearDue_audit (s : State) : (State.clearDue s).audit = s.audit := rfl
@[simp] theorem State.clearDue_pins (s : State) : (State.clearDue s).pins = s.pins := rfl
@[simp] theorem State.clearDue_power (s : State) : (State.clearDue s).power = s.power := rfl
@[simp] theorem State.clearDue_port (s : State) : (State.clearDue s).port = s.port := rfl
@[simp] theorem State.clearDue_regs (s : State) : (State.clearDue s).regs = s.regs := rfl
@[simp] theorem State.clearDue_events (s : State) : (State.clearDue s).events = s.events := rfl
@[simp] theorem State.clearDue_heat (s : State) : (State.clearDue s).heat = s.heat := rfl
@[simp] theorem State.clearDue_ops (s : State) : (State.clearDue s).ops = s.ops := rfl
@[simp] theorem State.clearDue_ended (s : State) : (State.clearDue s).ended = s.ended := rfl
@[simp] theorem State.clearDue_fleet (s : State) : (State.clearDue s).fleet = s.fleet := rfl
@[simp] theorem State.clearDue_out (s : State) : (State.clearDue s).out = s.out := rfl
@[simp] theorem State.clearDue_freeCtr (s : State) : (State.clearDue s).freeCtr = s.freeCtr := rfl
@[simp] theorem State.clearDue_pending (s : State) : (State.clearDue s).pending = s.pending := rfl

@[simp] theorem State.respond_boot (s : State) (st) (bytes) : (State.respond s st bytes).boot = s.boot := by simp [State.respond]
@[simp] theorem State.respond_audit (s : State) (st) (bytes) : (State.respond s st bytes).audit = s.audit := by simp [State.respond]
@[simp] theorem State.respond_pins (s : State) (st) (bytes) : (State.respond s st bytes).pins = s.pins := by simp [State.respond]
@[simp] theorem State.respond_power (s : State) (st) (bytes) : (State.respond s st bytes).power = s.power := by simp [State.respond]
@[simp] theorem State.respond_regs (s : State) (st) (bytes) : (State.respond s st bytes).regs = s.regs := by simp [State.respond]
@[simp] theorem State.respond_events (s : State) (st) (bytes) : (State.respond s st bytes).events = s.events := by simp [State.respond]
@[simp] theorem State.respond_fences (s : State) (st) (bytes) : (State.respond s st bytes).fences = s.fences := by simp [State.respond]
@[simp] theorem State.respond_heat (s : State) (st) (bytes) : (State.respond s st bytes).heat = s.heat := by simp [State.respond]
@[simp] theorem State.respond_ops (s : State) (st) (bytes) : (State.respond s st bytes).ops = s.ops := by simp [State.respond]
@[simp] theorem State.respond_ended (s : State) (st) (bytes) : (State.respond s st bytes).ended = s.ended := by simp [State.respond]
@[simp] theorem State.respond_fleet (s : State) (st) (bytes) : (State.respond s st bytes).fleet = s.fleet := by simp [State.respond]
@[simp] theorem State.respond_out (s : State) (st) (bytes) : (State.respond s st bytes).out = s.out := by simp [State.respond]
@[simp] theorem State.respond_freeCtr (s : State) (st) (bytes) : (State.respond s st bytes).freeCtr = s.freeCtr := by simp [State.respond]
@[simp] theorem State.respond_pending (s : State) (st) (bytes) : (State.respond s st bytes).pending = s.pending := by simp [State.respond]

@[simp] theorem State.takeRequest_boot (s : State) (code) (req) : (State.takeRequest s code req).boot = s.boot := rfl
@[simp] theorem State.takeRequest_audit (s : State) (code) (req) : (State.takeRequest s code req).audit = s.audit := rfl
@[simp] theorem State.takeRequest_pins (s : State) (code) (req) : (State.takeRequest s code req).pins = s.pins := rfl
@[simp] theorem State.takeRequest_power (s : State) (code) (req) : (State.takeRequest s code req).power = s.power := rfl
@[simp] theorem State.takeRequest_port (s : State) (code) (req) : (State.takeRequest s code req).port = s.port := rfl
@[simp] theorem State.takeRequest_regs (s : State) (code) (req) : (State.takeRequest s code req).regs = s.regs := rfl
@[simp] theorem State.takeRequest_events (s : State) (code) (req) : (State.takeRequest s code req).events = s.events := rfl
@[simp] theorem State.takeRequest_fences (s : State) (code) (req) : (State.takeRequest s code req).fences = s.fences := rfl
@[simp] theorem State.takeRequest_heat (s : State) (code) (req) : (State.takeRequest s code req).heat = s.heat := rfl
@[simp] theorem State.takeRequest_ops (s : State) (code) (req) : (State.takeRequest s code req).ops = s.ops := rfl
@[simp] theorem State.takeRequest_ended (s : State) (code) (req) : (State.takeRequest s code req).ended = s.ended := rfl
@[simp] theorem State.takeRequest_fleet (s : State) (code) (req) : (State.takeRequest s code req).fleet = s.fleet := rfl
@[simp] theorem State.takeRequest_out (s : State) (code) (req) : (State.takeRequest s code req).out = s.out := rfl
@[simp] theorem State.takeRequest_freeCtr (s : State) (code) (req) : (State.takeRequest s code req).freeCtr = s.freeCtr := rfl
@[simp] theorem State.takeRequest_pending (s : State) (code) (req) : (State.takeRequest s code req).pending = s.pending := rfl

@[simp] theorem State.auditMbx_boot (s : State) (action) (st) (object) : (State.auditMbx s action st object).boot = s.boot := by simp [State.auditMbx]
@[simp] theorem State.auditMbx_mbx (s : State) (action) (st) (object) : (State.auditMbx s action st object).mbx = s.mbx := by simp [State.auditMbx]
@[simp] theorem State.auditMbx_pins (s : State) (action) (st) (object) : (State.auditMbx s action st object).pins = s.pins := by simp [State.auditMbx]
@[simp] theorem State.auditMbx_power (s : State) (action) (st) (object) : (State.auditMbx s action st object).power = s.power := by simp [State.auditMbx]
@[simp] theorem State.auditMbx_port (s : State) (action) (st) (object) : (State.auditMbx s action st object).port = s.port := by simp [State.auditMbx]
@[simp] theorem State.auditMbx_regs (s : State) (action) (st) (object) : (State.auditMbx s action st object).regs = s.regs := by simp [State.auditMbx]
@[simp] theorem State.auditMbx_events (s : State) (action) (st) (object) : (State.auditMbx s action st object).events = s.events := by simp [State.auditMbx]
@[simp] theorem State.auditMbx_fences (s : State) (action) (st) (object) : (State.auditMbx s action st object).fences = s.fences := by simp [State.auditMbx]
@[simp] theorem State.auditMbx_heat (s : State) (action) (st) (object) : (State.auditMbx s action st object).heat = s.heat := by simp [State.auditMbx]
@[simp] theorem State.auditMbx_ops (s : State) (action) (st) (object) : (State.auditMbx s action st object).ops = s.ops := by simp [State.auditMbx]
@[simp] theorem State.auditMbx_ended (s : State) (action) (st) (object) : (State.auditMbx s action st object).ended = s.ended := by simp [State.auditMbx]
@[simp] theorem State.auditMbx_fleet (s : State) (action) (st) (object) : (State.auditMbx s action st object).fleet = s.fleet := by simp [State.auditMbx]
@[simp] theorem State.auditMbx_out (s : State) (action) (st) (object) : (State.auditMbx s action st object).out = s.out := by simp [State.auditMbx]
@[simp] theorem State.auditMbx_pending (s : State) (action) (st) (object) : (State.auditMbx s action st object).pending = s.pending := by simp [State.auditMbx]

@[simp] theorem State.linkTrained_boot (s : State) (speed) (width) : (State.linkTrained s speed width).boot = s.boot := by simp [State.linkTrained]
@[simp] theorem State.linkTrained_mbx (s : State) (speed) (width) : (State.linkTrained s speed width).mbx = s.mbx := by simp [State.linkTrained]
@[simp] theorem State.linkTrained_audit (s : State) (speed) (width) : (State.linkTrained s speed width).audit = s.audit := by simp [State.linkTrained]
@[simp] theorem State.linkTrained_pins (s : State) (speed) (width) : (State.linkTrained s speed width).pins = s.pins := by simp [State.linkTrained]
@[simp] theorem State.linkTrained_power (s : State) (speed) (width) : (State.linkTrained s speed width).power = s.power := by simp [State.linkTrained]
@[simp] theorem State.linkTrained_regs (s : State) (speed) (width) : (State.linkTrained s speed width).regs = s.regs := by simp [State.linkTrained]
@[simp] theorem State.linkTrained_events (s : State) (speed) (width) : (State.linkTrained s speed width).events = s.events := by simp [State.linkTrained]
@[simp] theorem State.linkTrained_fences (s : State) (speed) (width) : (State.linkTrained s speed width).fences = s.fences := by simp [State.linkTrained]
@[simp] theorem State.linkTrained_heat (s : State) (speed) (width) : (State.linkTrained s speed width).heat = s.heat := by simp [State.linkTrained]
@[simp] theorem State.linkTrained_ops (s : State) (speed) (width) : (State.linkTrained s speed width).ops = s.ops := by simp [State.linkTrained]
@[simp] theorem State.linkTrained_ended (s : State) (speed) (width) : (State.linkTrained s speed width).ended = s.ended := by simp [State.linkTrained]
@[simp] theorem State.linkTrained_fleet (s : State) (speed) (width) : (State.linkTrained s speed width).fleet = s.fleet := by simp [State.linkTrained]
@[simp] theorem State.linkTrained_out (s : State) (speed) (width) : (State.linkTrained s speed width).out = s.out := by simp [State.linkTrained]
@[simp] theorem State.linkTrained_freeCtr (s : State) (speed) (width) : (State.linkTrained s speed width).freeCtr = s.freeCtr := by simp [State.linkTrained]
@[simp] theorem State.linkTrained_pending (s : State) (speed) (width) : (State.linkTrained s speed width).pending = s.pending := by simp [State.linkTrained]

@[simp] theorem State.noteFailure_mbx (s : State) (cause) (unit) : (State.noteFailure s cause unit).mbx = s.mbx := by simp [State.noteFailure]
@[simp] theorem State.noteFailure_pins (s : State) (cause) (unit) : (State.noteFailure s cause unit).pins = s.pins := by simp [State.noteFailure]
@[simp] theorem State.noteFailure_power (s : State) (cause) (unit) : (State.noteFailure s cause unit).power = s.power := by simp [State.noteFailure]
@[simp] theorem State.noteFailure_port (s : State) (cause) (unit) : (State.noteFailure s cause unit).port = s.port := by simp [State.noteFailure]
@[simp] theorem State.noteFailure_regs (s : State) (cause) (unit) : (State.noteFailure s cause unit).regs = s.regs := by simp [State.noteFailure]
@[simp] theorem State.noteFailure_events (s : State) (cause) (unit) : (State.noteFailure s cause unit).events = s.events := by simp [State.noteFailure]
@[simp] theorem State.noteFailure_fences (s : State) (cause) (unit) : (State.noteFailure s cause unit).fences = s.fences := by simp [State.noteFailure]
@[simp] theorem State.noteFailure_heat (s : State) (cause) (unit) : (State.noteFailure s cause unit).heat = s.heat := by simp [State.noteFailure]
@[simp] theorem State.noteFailure_ops (s : State) (cause) (unit) : (State.noteFailure s cause unit).ops = s.ops := by simp [State.noteFailure]
@[simp] theorem State.noteFailure_ended (s : State) (cause) (unit) : (State.noteFailure s cause unit).ended = s.ended := by simp [State.noteFailure]
@[simp] theorem State.noteFailure_fleet (s : State) (cause) (unit) : (State.noteFailure s cause unit).fleet = s.fleet := by simp [State.noteFailure]
@[simp] theorem State.noteFailure_pending (s : State) (cause) (unit) : (State.noteFailure s cause unit).pending = s.pending := by simp [State.noteFailure]

@[simp] theorem State.fenceAtStart_boot (s : State) (u) : (State.fenceAtStart s u).boot = s.boot := by simp [State.fenceAtStart]
@[simp] theorem State.fenceAtStart_mbx (s : State) (u) : (State.fenceAtStart s u).mbx = s.mbx := by simp [State.fenceAtStart]
@[simp] theorem State.fenceAtStart_pins (s : State) (u) : (State.fenceAtStart s u).pins = s.pins := by simp [State.fenceAtStart]
@[simp] theorem State.fenceAtStart_power (s : State) (u) : (State.fenceAtStart s u).power = s.power := by simp [State.fenceAtStart]
@[simp] theorem State.fenceAtStart_port (s : State) (u) : (State.fenceAtStart s u).port = s.port := by simp [State.fenceAtStart]
@[simp] theorem State.fenceAtStart_regs (s : State) (u) : (State.fenceAtStart s u).regs = s.regs := by simp [State.fenceAtStart]
@[simp] theorem State.fenceAtStart_events (s : State) (u) : (State.fenceAtStart s u).events = s.events := by simp [State.fenceAtStart]
@[simp] theorem State.fenceAtStart_heat (s : State) (u) : (State.fenceAtStart s u).heat = s.heat := by simp [State.fenceAtStart]
@[simp] theorem State.fenceAtStart_ops (s : State) (u) : (State.fenceAtStart s u).ops = s.ops := by simp [State.fenceAtStart]
@[simp] theorem State.fenceAtStart_ended (s : State) (u) : (State.fenceAtStart s u).ended = s.ended := by simp [State.fenceAtStart]
@[simp] theorem State.fenceAtStart_fleet (s : State) (u) : (State.fenceAtStart s u).fleet = s.fleet := by simp [State.fenceAtStart]
@[simp] theorem State.fenceAtStart_out (s : State) (u) : (State.fenceAtStart s u).out = s.out := by simp [State.fenceAtStart]
@[simp] theorem State.fenceAtStart_pending (s : State) (u) : (State.fenceAtStart s u).pending = s.pending := by simp [State.fenceAtStart]

@[simp] theorem State.concern_boot (s : State) (layer) (code) (L) : (State.concern s layer code L).boot = s.boot := rfl
@[simp] theorem State.concern_mbx (s : State) (layer) (code) (L) : (State.concern s layer code L).mbx = s.mbx := rfl
@[simp] theorem State.concern_audit (s : State) (layer) (code) (L) : (State.concern s layer code L).audit = s.audit := rfl
@[simp] theorem State.concern_pins (s : State) (layer) (code) (L) : (State.concern s layer code L).pins = s.pins := rfl
@[simp] theorem State.concern_power (s : State) (layer) (code) (L) : (State.concern s layer code L).power = s.power := rfl
@[simp] theorem State.concern_port (s : State) (layer) (code) (L) : (State.concern s layer code L).port = s.port := rfl
@[simp] theorem State.concern_regs (s : State) (layer) (code) (L) : (State.concern s layer code L).regs = s.regs := rfl
@[simp] theorem State.concern_events (s : State) (layer) (code) (L) : (State.concern s layer code L).events = s.events := rfl
@[simp] theorem State.concern_fences (s : State) (layer) (code) (L) : (State.concern s layer code L).fences = s.fences := rfl
@[simp] theorem State.concern_ops (s : State) (layer) (code) (L) : (State.concern s layer code L).ops = s.ops := rfl
@[simp] theorem State.concern_ended (s : State) (layer) (code) (L) : (State.concern s layer code L).ended = s.ended := rfl
@[simp] theorem State.concern_fleet (s : State) (layer) (code) (L) : (State.concern s layer code L).fleet = s.fleet := rfl
@[simp] theorem State.concern_out (s : State) (layer) (code) (L) : (State.concern s layer code L).out = s.out := rfl
@[simp] theorem State.concern_freeCtr (s : State) (layer) (code) (L) : (State.concern s layer code L).freeCtr = s.freeCtr := rfl
@[simp] theorem State.concern_pending (s : State) (layer) (code) (L) : (State.concern s layer code L).pending = s.pending := rfl
@[simp] theorem State.settleTile_boot (s : State) (t) (L) : (State.settleTile s t L).boot = s.boot := rfl
@[simp] theorem State.settleTile_mbx (s : State) (t) (L) : (State.settleTile s t L).mbx = s.mbx := rfl
@[simp] theorem State.settleTile_audit (s : State) (t) (L) : (State.settleTile s t L).audit = s.audit := rfl
@[simp] theorem State.settleTile_pins (s : State) (t) (L) : (State.settleTile s t L).pins = s.pins := rfl
@[simp] theorem State.settleTile_power (s : State) (t) (L) : (State.settleTile s t L).power = s.power := rfl
@[simp] theorem State.settleTile_port (s : State) (t) (L) : (State.settleTile s t L).port = s.port := rfl
@[simp] theorem State.settleTile_regs (s : State) (t) (L) : (State.settleTile s t L).regs = s.regs := rfl
@[simp] theorem State.settleTile_events (s : State) (t) (L) : (State.settleTile s t L).events = s.events := rfl
@[simp] theorem State.settleTile_fences (s : State) (t) (L) : (State.settleTile s t L).fences = s.fences := rfl
@[simp] theorem State.settleTile_ops (s : State) (t) (L) : (State.settleTile s t L).ops = s.ops := rfl
@[simp] theorem State.settleTile_ended (s : State) (t) (L) : (State.settleTile s t L).ended = s.ended := rfl
@[simp] theorem State.settleTile_fleet (s : State) (t) (L) : (State.settleTile s t L).fleet = s.fleet := rfl
@[simp] theorem State.settleTile_out (s : State) (t) (L) : (State.settleTile s t L).out = s.out := rfl
@[simp] theorem State.settleTile_freeCtr (s : State) (t) (L) : (State.settleTile s t L).freeCtr = s.freeCtr := rfl
@[simp] theorem State.settleTile_pending (s : State) (t) (L) : (State.settleTile s t L).pending = s.pending := rfl

@[simp] theorem State.markInvalid_boot (s : State) (l) : (State.markInvalid s l).boot = s.boot := rfl
@[simp] theorem State.markInvalid_mbx (s : State) (l) : (State.markInvalid s l).mbx = s.mbx := rfl
@[simp] theorem State.markInvalid_audit (s : State) (l) : (State.markInvalid s l).audit = s.audit := rfl
@[simp] theorem State.markInvalid_pins (s : State) (l) : (State.markInvalid s l).pins = s.pins := rfl
@[simp] theorem State.markInvalid_power (s : State) (l) : (State.markInvalid s l).power = s.power := rfl
@[simp] theorem State.markInvalid_port (s : State) (l) : (State.markInvalid s l).port = s.port := rfl
@[simp] theorem State.markInvalid_regs (s : State) (l) : (State.markInvalid s l).regs = s.regs := rfl
@[simp] theorem State.markInvalid_events (s : State) (l) : (State.markInvalid s l).events = s.events := rfl
@[simp] theorem State.markInvalid_fences (s : State) (l) : (State.markInvalid s l).fences = s.fences := rfl
@[simp] theorem State.markInvalid_ops (s : State) (l) : (State.markInvalid s l).ops = s.ops := rfl
@[simp] theorem State.markInvalid_ended (s : State) (l) : (State.markInvalid s l).ended = s.ended := rfl
@[simp] theorem State.markInvalid_fleet (s : State) (l) : (State.markInvalid s l).fleet = s.fleet := rfl
@[simp] theorem State.markInvalid_out (s : State) (l) : (State.markInvalid s l).out = s.out := rfl
@[simp] theorem State.markInvalid_freeCtr (s : State) (l) : (State.markInvalid s l).freeCtr = s.freeCtr := rfl
@[simp] theorem State.markInvalid_pending (s : State) (l) : (State.markInvalid s l).pending = s.pending := rfl

@[simp] theorem State.setCore_boot (s : State) (x) : (State.setCore s x).boot = s.boot := rfl
@[simp] theorem State.setCore_mbx (s : State) (x) : (State.setCore s x).mbx = s.mbx := rfl
@[simp] theorem State.setCore_audit (s : State) (x) : (State.setCore s x).audit = s.audit := rfl
@[simp] theorem State.setCore_pins (s : State) (x) : (State.setCore s x).pins = s.pins := rfl
@[simp] theorem State.setCore_power (s : State) (x) : (State.setCore s x).power = s.power := rfl
@[simp] theorem State.setCore_port (s : State) (x) : (State.setCore s x).port = s.port := rfl
@[simp] theorem State.setCore_regs (s : State) (x) : (State.setCore s x).regs = s.regs := rfl
@[simp] theorem State.setCore_events (s : State) (x) : (State.setCore s x).events = s.events := rfl
@[simp] theorem State.setCore_fences (s : State) (x) : (State.setCore s x).fences = s.fences := rfl
@[simp] theorem State.setCore_ops (s : State) (x) : (State.setCore s x).ops = s.ops := rfl
@[simp] theorem State.setCore_ended (s : State) (x) : (State.setCore s x).ended = s.ended := rfl
@[simp] theorem State.setCore_fleet (s : State) (x) : (State.setCore s x).fleet = s.fleet := rfl
@[simp] theorem State.setCore_out (s : State) (x) : (State.setCore s x).out = s.out := rfl
@[simp] theorem State.setCore_freeCtr (s : State) (x) : (State.setCore s x).freeCtr = s.freeCtr := rfl
@[simp] theorem State.setCore_pending (s : State) (x) : (State.setCore s x).pending = s.pending := rfl

@[simp] theorem State.setSeq_boot (s : State) (x) : (State.setSeq s x).boot = s.boot := rfl
@[simp] theorem State.setSeq_mbx (s : State) (x) : (State.setSeq s x).mbx = s.mbx := rfl
@[simp] theorem State.setSeq_audit (s : State) (x) : (State.setSeq s x).audit = s.audit := rfl
@[simp] theorem State.setSeq_pins (s : State) (x) : (State.setSeq s x).pins = s.pins := rfl
@[simp] theorem State.setSeq_power (s : State) (x) : (State.setSeq s x).power = s.power := rfl
@[simp] theorem State.setSeq_port (s : State) (x) : (State.setSeq s x).port = s.port := rfl
@[simp] theorem State.setSeq_regs (s : State) (x) : (State.setSeq s x).regs = s.regs := rfl
@[simp] theorem State.setSeq_events (s : State) (x) : (State.setSeq s x).events = s.events := rfl
@[simp] theorem State.setSeq_fences (s : State) (x) : (State.setSeq s x).fences = s.fences := rfl
@[simp] theorem State.setSeq_ops (s : State) (x) : (State.setSeq s x).ops = s.ops := rfl
@[simp] theorem State.setSeq_ended (s : State) (x) : (State.setSeq s x).ended = s.ended := rfl
@[simp] theorem State.setSeq_fleet (s : State) (x) : (State.setSeq s x).fleet = s.fleet := rfl
@[simp] theorem State.setSeq_out (s : State) (x) : (State.setSeq s x).out = s.out := rfl
@[simp] theorem State.setSeq_freeCtr (s : State) (x) : (State.setSeq s x).freeCtr = s.freeCtr := rfl
@[simp] theorem State.setSeq_pending (s : State) (x) : (State.setSeq s x).pending = s.pending := rfl

@[simp] theorem State.setExch_boot (s : State) (f) : (State.setExch s f).boot = s.boot := rfl
@[simp] theorem State.setExch_mbx (s : State) (f) : (State.setExch s f).mbx = s.mbx := rfl
@[simp] theorem State.setExch_audit (s : State) (f) : (State.setExch s f).audit = s.audit := rfl
@[simp] theorem State.setExch_pins (s : State) (f) : (State.setExch s f).pins = s.pins := rfl
@[simp] theorem State.setExch_power (s : State) (f) : (State.setExch s f).power = s.power := rfl
@[simp] theorem State.setExch_port (s : State) (f) : (State.setExch s f).port = s.port := rfl
@[simp] theorem State.setExch_regs (s : State) (f) : (State.setExch s f).regs = s.regs := rfl
@[simp] theorem State.setExch_events (s : State) (f) : (State.setExch s f).events = s.events := rfl
@[simp] theorem State.setExch_fences (s : State) (f) : (State.setExch s f).fences = s.fences := rfl
@[simp] theorem State.setExch_heat (s : State) (f) : (State.setExch s f).heat = s.heat := rfl
@[simp] theorem State.setExch_ops (s : State) (f) : (State.setExch s f).ops = s.ops := rfl
@[simp] theorem State.setExch_ended (s : State) (f) : (State.setExch s f).ended = s.ended := rfl
@[simp] theorem State.setExch_out (s : State) (f) : (State.setExch s f).out = s.out := rfl
@[simp] theorem State.setExch_freeCtr (s : State) (f) : (State.setExch s f).freeCtr = s.freeCtr := rfl
@[simp] theorem State.setExch_pending (s : State) (f) : (State.setExch s f).pending = s.pending := rfl

@[simp] theorem State.setJob_boot (s : State) (f) : (State.setJob s f).boot = s.boot := rfl
@[simp] theorem State.setJob_mbx (s : State) (f) : (State.setJob s f).mbx = s.mbx := rfl
@[simp] theorem State.setJob_audit (s : State) (f) : (State.setJob s f).audit = s.audit := rfl
@[simp] theorem State.setJob_pins (s : State) (f) : (State.setJob s f).pins = s.pins := rfl
@[simp] theorem State.setJob_power (s : State) (f) : (State.setJob s f).power = s.power := rfl
@[simp] theorem State.setJob_port (s : State) (f) : (State.setJob s f).port = s.port := rfl
@[simp] theorem State.setJob_regs (s : State) (f) : (State.setJob s f).regs = s.regs := rfl
@[simp] theorem State.setJob_events (s : State) (f) : (State.setJob s f).events = s.events := rfl
@[simp] theorem State.setJob_fences (s : State) (f) : (State.setJob s f).fences = s.fences := rfl
@[simp] theorem State.setJob_ops (s : State) (f) : (State.setJob s f).ops = s.ops := rfl
@[simp] theorem State.setJob_ended (s : State) (f) : (State.setJob s f).ended = s.ended := rfl
@[simp] theorem State.setJob_fleet (s : State) (f) : (State.setJob s f).fleet = s.fleet := rfl
@[simp] theorem State.setJob_out (s : State) (f) : (State.setJob s f).out = s.out := rfl
@[simp] theorem State.setJob_freeCtr (s : State) (f) : (State.setJob s f).freeCtr = s.freeCtr := rfl
@[simp] theorem State.setJob_pending (s : State) (f) : (State.setJob s f).pending = s.pending := rfl

@[simp] theorem State.setSync_boot (s : State) (f) : (State.setSync s f).boot = s.boot := rfl
@[simp] theorem State.setSync_mbx (s : State) (f) : (State.setSync s f).mbx = s.mbx := rfl
@[simp] theorem State.setSync_audit (s : State) (f) : (State.setSync s f).audit = s.audit := rfl
@[simp] theorem State.setSync_pins (s : State) (f) : (State.setSync s f).pins = s.pins := rfl
@[simp] theorem State.setSync_power (s : State) (f) : (State.setSync s f).power = s.power := rfl
@[simp] theorem State.setSync_port (s : State) (f) : (State.setSync s f).port = s.port := rfl
@[simp] theorem State.setSync_regs (s : State) (f) : (State.setSync s f).regs = s.regs := rfl
@[simp] theorem State.setSync_events (s : State) (f) : (State.setSync s f).events = s.events := rfl
@[simp] theorem State.setSync_fences (s : State) (f) : (State.setSync s f).fences = s.fences := rfl
@[simp] theorem State.setSync_ops (s : State) (f) : (State.setSync s f).ops = s.ops := rfl
@[simp] theorem State.setSync_ended (s : State) (f) : (State.setSync s f).ended = s.ended := rfl
@[simp] theorem State.setSync_fleet (s : State) (f) : (State.setSync s f).fleet = s.fleet := rfl
@[simp] theorem State.setSync_out (s : State) (f) : (State.setSync s f).out = s.out := rfl
@[simp] theorem State.setSync_freeCtr (s : State) (f) : (State.setSync s f).freeCtr = s.freeCtr := rfl
@[simp] theorem State.setSync_pending (s : State) (f) : (State.setSync s f).pending = s.pending := rfl

/-! ## What events, accesses and ends of operations leave -/

@[simp] theorem State.endJob_mbx (s : State) (status) : (State.endJob s status).mbx = s.mbx := by
  unfold State.endJob; (repeat' split) <;> simp
@[simp] theorem State.endJob_pins (s : State) (status) : (State.endJob s status).pins = s.pins := by
  unfold State.endJob; (repeat' split) <;> simp
@[simp] theorem State.endJob_power (s : State) (status) : (State.endJob s status).power = s.power := by
  unfold State.endJob; (repeat' split) <;> simp
@[simp] theorem State.endJob_events (s : State) (status) : (State.endJob s status).events = s.events := by
  unfold State.endJob; (repeat' split) <;> simp
@[simp] theorem State.endJob_ops (s : State) (status) : (State.endJob s status).ops = s.ops := by
  unfold State.endJob; (repeat' split) <;> simp
@[simp] theorem State.endJob_pending (s : State) (status) : (State.endJob s status).pending = s.pending := by
  unfold State.endJob; (repeat' split) <;> simp
@[simp] theorem State.degrade_mbx (s : State) (t) : (State.degrade s t).mbx = s.mbx := by
  unfold State.degrade; (repeat' split) <;> simp
@[simp] theorem State.degrade_pins (s : State) (t) : (State.degrade s t).pins = s.pins := by
  unfold State.degrade; (repeat' split) <;> simp
@[simp] theorem State.degrade_power (s : State) (t) : (State.degrade s t).power = s.power := by
  unfold State.degrade; (repeat' split) <;> simp
@[simp] theorem State.degrade_port (s : State) (t) : (State.degrade s t).port = s.port := by
  unfold State.degrade; (repeat' split) <;> simp
@[simp] theorem State.degrade_regs (s : State) (t) : (State.degrade s t).regs = s.regs := by
  unfold State.degrade; (repeat' split) <;> simp
@[simp] theorem State.degrade_events (s : State) (t) : (State.degrade s t).events = s.events := by
  unfold State.degrade; (repeat' split) <;> simp
@[simp] theorem State.degrade_heat (s : State) (t) : (State.degrade s t).heat = s.heat := by
  unfold State.degrade; (repeat' split) <;> simp
@[simp] theorem State.degrade_ops (s : State) (t) : (State.degrade s t).ops = s.ops := by
  unfold State.degrade; (repeat' split) <;> simp
@[simp] theorem State.degrade_ended (s : State) (t) : (State.degrade s t).ended = s.ended := by
  unfold State.degrade; (repeat' split) <;> simp
@[simp] theorem State.degrade_fleet (s : State) (t) : (State.degrade s t).fleet = s.fleet := by
  unfold State.degrade; (repeat' split) <;> simp
@[simp] theorem State.degrade_out (s : State) (t) : (State.degrade s t).out = s.out := by
  unfold State.degrade; (repeat' split) <;> simp
@[simp] theorem State.degrade_pending (s : State) (t) : (State.degrade s t).pending = s.pending := by
  unfold State.degrade; (repeat' split) <;> simp
@[simp] theorem State.haltJobs_mbx (s : State) (unit) (seq) : (State.haltJobs s unit seq).mbx = s.mbx := by
  unfold State.haltJobs; dsimp only; (repeat' split) <;> simp
@[simp] theorem State.haltJobs_pins (s : State) (unit) (seq) : (State.haltJobs s unit seq).pins = s.pins := by
  unfold State.haltJobs; dsimp only; (repeat' split) <;> simp
@[simp] theorem State.haltJobs_power (s : State) (unit) (seq) : (State.haltJobs s unit seq).power = s.power := by
  unfold State.haltJobs; dsimp only; (repeat' split) <;> simp
@[simp] theorem State.haltJobs_pending (s : State) (unit) (seq) : (State.haltJobs s unit seq).pending = s.pending := by
  unfold State.haltJobs; dsimp only; (repeat' split) <;> simp
@[simp] theorem State.react_mbx (s : State) (level) (code) (unit) (data) (seq) : (State.react s level code unit data seq).mbx = s.mbx := by
  unfold State.react; (repeat' split) <;> simp
@[simp] theorem State.react_pins (s : State) (level) (code) (unit) (data) (seq) : (State.react s level code unit data seq).pins = s.pins := by
  unfold State.react; (repeat' split) <;> simp
@[simp] theorem State.react_power (s : State) (level) (code) (unit) (data) (seq) : (State.react s level code unit data seq).power = s.power := by
  unfold State.react; (repeat' split) <;> simp
@[simp] theorem State.react_pending (s : State) (level) (code) (unit) (data) (seq) : (State.react s level code unit data seq).pending = s.pending := by
  unfold State.react; (repeat' split) <;> simp
@[simp] theorem State.reactTo_mbx (s : State) (e) (data) : (State.reactTo s e data).mbx = s.mbx := by simp [State.reactTo]
@[simp] theorem State.reactTo_pins (s : State) (e) (data) : (State.reactTo s e data).pins = s.pins := by simp [State.reactTo]
@[simp] theorem State.reactTo_power (s : State) (e) (data) : (State.reactTo s e data).power = s.power := by simp [State.reactTo]
@[simp] theorem State.reactTo_pending (s : State) (e) (data) : (State.reactTo s e data).pending = s.pending := by simp [State.reactTo]
@[simp] theorem State.raiseWith_mbx (s : State) (base) (code) (unit) (layer) (data) (n) (bad) : (State.raiseWith s base code unit layer data n bad).mbx = s.mbx := by
  unfold State.raiseWith; dsimp only; (repeat' split) <;> simp
@[simp] theorem State.raiseWith_pins (s : State) (base) (code) (unit) (layer) (data) (n) (bad) : (State.raiseWith s base code unit layer data n bad).pins = s.pins := by
  unfold State.raiseWith; dsimp only; (repeat' split) <;> simp
@[simp] theorem State.raiseWith_power (s : State) (base) (code) (unit) (layer) (data) (n) (bad) : (State.raiseWith s base code unit layer data n bad).power = s.power := by
  unfold State.raiseWith; dsimp only; (repeat' split) <;> simp
@[simp] theorem State.raiseWith_pending (s : State) (base) (code) (unit) (layer) (data) (n) (bad) : (State.raiseWith s base code unit layer data n bad).pending = s.pending := by
  unfold State.raiseWith; dsimp only; (repeat' split) <;> simp

@[simp] theorem State.raiseN_mbx (s : State) (code) (unit) (layer) (data) (n) (bad) : (State.raiseN s code unit layer data n bad).mbx = s.mbx := by simp [State.raiseN]
@[simp] theorem State.raiseN_pins (s : State) (code) (unit) (layer) (data) (n) (bad) : (State.raiseN s code unit layer data n bad).pins = s.pins := by simp [State.raiseN]
@[simp] theorem State.raiseN_power (s : State) (code) (unit) (layer) (data) (n) (bad) : (State.raiseN s code unit layer data n bad).power = s.power := by simp [State.raiseN]
@[simp] theorem State.raiseN_pending (s : State) (code) (unit) (layer) (data) (n) (bad) : (State.raiseN s code unit layer data n bad).pending = s.pending := by simp [State.raiseN]
@[simp] theorem State.raise_mbx (s : State) (code) (unit) (layer) (data) : (State.raise s code unit layer data).mbx = s.mbx := by simp [State.raise]
@[simp] theorem State.raise_pins (s : State) (code) (unit) (layer) (data) : (State.raise s code unit layer data).pins = s.pins := by simp [State.raise]
@[simp] theorem State.raise_power (s : State) (code) (unit) (layer) (data) : (State.raise s code unit layer data).power = s.power := by simp [State.raise]
@[simp] theorem State.raise_pending (s : State) (code) (unit) (layer) (data) : (State.raise s code unit layer data).pending = s.pending := by simp [State.raise]
@[simp] theorem State.eccEvent_mbx (s : State) (a) (f) : (State.eccEvent s a f).mbx = s.mbx := by
  unfold State.eccEvent; (repeat' split) <;> simp
@[simp] theorem State.eccEvent_pins (s : State) (a) (f) : (State.eccEvent s a f).pins = s.pins := by
  unfold State.eccEvent; (repeat' split) <;> simp
@[simp] theorem State.eccEvent_power (s : State) (a) (f) : (State.eccEvent s a f).power = s.power := by
  unfold State.eccEvent; (repeat' split) <;> simp
@[simp] theorem State.eccEvent_pending (s : State) (a) (f) : (State.eccEvent s a f).pending = s.pending := by
  unfold State.eccEvent; (repeat' split) <;> simp
@[simp] theorem State.activate_boot (s : State) (a) (n) : (State.activate s a n).boot = s.boot := rfl
@[simp] theorem State.activate_mbx (s : State) (a) (n) : (State.activate s a n).mbx = s.mbx := rfl
@[simp] theorem State.activate_audit (s : State) (a) (n) : (State.activate s a n).audit = s.audit := rfl
@[simp] theorem State.activate_pins (s : State) (a) (n) : (State.activate s a n).pins = s.pins := rfl
@[simp] theorem State.activate_power (s : State) (a) (n) : (State.activate s a n).power = s.power := rfl
@[simp] theorem State.activate_port (s : State) (a) (n) : (State.activate s a n).port = s.port := rfl
@[simp] theorem State.activate_regs (s : State) (a) (n) : (State.activate s a n).regs = s.regs := rfl
@[simp] theorem State.activate_events (s : State) (a) (n) : (State.activate s a n).events = s.events := rfl
@[simp] theorem State.activate_fences (s : State) (a) (n) : (State.activate s a n).fences = s.fences := rfl
@[simp] theorem State.activate_heat (s : State) (a) (n) : (State.activate s a n).heat = s.heat := rfl
@[simp] theorem State.activate_ops (s : State) (a) (n) : (State.activate s a n).ops = s.ops := rfl
@[simp] theorem State.activate_ended (s : State) (a) (n) : (State.activate s a n).ended = s.ended := rfl
@[simp] theorem State.activate_fleet (s : State) (a) (n) : (State.activate s a n).fleet = s.fleet := rfl
@[simp] theorem State.activate_out (s : State) (a) (n) : (State.activate s a n).out = s.out := rfl
@[simp] theorem State.activate_freeCtr (s : State) (a) (n) : (State.activate s a n).freeCtr = s.freeCtr := rfl
@[simp] theorem State.activate_pending (s : State) (a) (n) : (State.activate s a n).pending = s.pending := rfl
@[simp] theorem State.readMem_mbx (s : State) (a) (n) : (State.readMem s a n).2.mbx = s.mbx := by
  unfold State.readMem; dsimp only; (repeat' split) <;> simp
@[simp] theorem State.readMem_pins (s : State) (a) (n) : (State.readMem s a n).2.pins = s.pins := by
  unfold State.readMem; dsimp only; (repeat' split) <;> simp
@[simp] theorem State.readMem_power (s : State) (a) (n) : (State.readMem s a n).2.power = s.power := by
  unfold State.readMem; dsimp only; (repeat' split) <;> simp
@[simp] theorem State.readMem_pending (s : State) (a) (n) : (State.readMem s a n).2.pending = s.pending := by
  unfold State.readMem; dsimp only; (repeat' split) <;> simp
@[simp] theorem State.poke_boot (s : State) (a) (bs) : (State.poke s a bs).boot = s.boot := by simp [State.poke]
@[simp] theorem State.poke_mbx (s : State) (a) (bs) : (State.poke s a bs).mbx = s.mbx := by simp [State.poke]
@[simp] theorem State.poke_audit (s : State) (a) (bs) : (State.poke s a bs).audit = s.audit := by simp [State.poke]
@[simp] theorem State.poke_pins (s : State) (a) (bs) : (State.poke s a bs).pins = s.pins := by simp [State.poke]
@[simp] theorem State.poke_power (s : State) (a) (bs) : (State.poke s a bs).power = s.power := by simp [State.poke]
@[simp] theorem State.poke_port (s : State) (a) (bs) : (State.poke s a bs).port = s.port := by simp [State.poke]
@[simp] theorem State.poke_regs (s : State) (a) (bs) : (State.poke s a bs).regs = s.regs := by simp [State.poke]
@[simp] theorem State.poke_events (s : State) (a) (bs) : (State.poke s a bs).events = s.events := by simp [State.poke]
@[simp] theorem State.poke_fences (s : State) (a) (bs) : (State.poke s a bs).fences = s.fences := by simp [State.poke]
@[simp] theorem State.poke_heat (s : State) (a) (bs) : (State.poke s a bs).heat = s.heat := by simp [State.poke]
@[simp] theorem State.poke_ops (s : State) (a) (bs) : (State.poke s a bs).ops = s.ops := by simp [State.poke]
@[simp] theorem State.poke_ended (s : State) (a) (bs) : (State.poke s a bs).ended = s.ended := by simp [State.poke]
@[simp] theorem State.poke_fleet (s : State) (a) (bs) : (State.poke s a bs).fleet = s.fleet := by simp [State.poke]
@[simp] theorem State.poke_out (s : State) (a) (bs) : (State.poke s a bs).out = s.out := by simp [State.poke]
@[simp] theorem State.poke_freeCtr (s : State) (a) (bs) : (State.poke s a bs).freeCtr = s.freeCtr := by simp [State.poke]
@[simp] theorem State.poke_pending (s : State) (a) (bs) : (State.poke s a bs).pending = s.pending := by simp [State.poke]
@[simp] theorem State.poison_boot (s : State) (a) : (State.poison s a).boot = s.boot := by simp [State.poison]
@[simp] theorem State.poison_mbx (s : State) (a) : (State.poison s a).mbx = s.mbx := by simp [State.poison]
@[simp] theorem State.poison_audit (s : State) (a) : (State.poison s a).audit = s.audit := by simp [State.poison]
@[simp] theorem State.poison_pins (s : State) (a) : (State.poison s a).pins = s.pins := by simp [State.poison]
@[simp] theorem State.poison_power (s : State) (a) : (State.poison s a).power = s.power := by simp [State.poison]
@[simp] theorem State.poison_port (s : State) (a) : (State.poison s a).port = s.port := by simp [State.poison]
@[simp] theorem State.poison_regs (s : State) (a) : (State.poison s a).regs = s.regs := by simp [State.poison]
@[simp] theorem State.poison_events (s : State) (a) : (State.poison s a).events = s.events := by simp [State.poison]
@[simp] theorem State.poison_fences (s : State) (a) : (State.poison s a).fences = s.fences := by simp [State.poison]
@[simp] theorem State.poison_heat (s : State) (a) : (State.poison s a).heat = s.heat := by simp [State.poison]
@[simp] theorem State.poison_ops (s : State) (a) : (State.poison s a).ops = s.ops := by simp [State.poison]
@[simp] theorem State.poison_ended (s : State) (a) : (State.poison s a).ended = s.ended := by simp [State.poison]
@[simp] theorem State.poison_fleet (s : State) (a) : (State.poison s a).fleet = s.fleet := by simp [State.poison]
@[simp] theorem State.poison_out (s : State) (a) : (State.poison s a).out = s.out := by simp [State.poison]
@[simp] theorem State.poison_freeCtr (s : State) (a) : (State.poison s a).freeCtr = s.freeCtr := by simp [State.poison]
@[simp] theorem State.poison_pending (s : State) (a) : (State.poison s a).pending = s.pending := by simp [State.poison]
@[simp] theorem State.mergeWord_mbx (s : State) (a) (bs) : (State.mergeWord s a bs).2.mbx = s.mbx := by
  unfold State.mergeWord; dsimp only; (repeat' split) <;> simp
@[simp] theorem State.mergeWord_pins (s : State) (a) (bs) : (State.mergeWord s a bs).2.pins = s.pins := by
  unfold State.mergeWord; dsimp only; (repeat' split) <;> simp
@[simp] theorem State.mergeWord_power (s : State) (a) (bs) : (State.mergeWord s a bs).2.power = s.power := by
  unfold State.mergeWord; dsimp only; (repeat' split) <;> simp
@[simp] theorem State.mergeWord_pending (s : State) (a) (bs) : (State.mergeWord s a bs).2.pending = s.pending := by
  unfold State.mergeWord; dsimp only; (repeat' split) <;> simp
@[simp] theorem State.writeMem_mbx (s : State) (a) (bs) : (State.writeMem s a bs).2.mbx = s.mbx := by
  unfold State.writeMem; dsimp only; (repeat' split) <;> simp
@[simp] theorem State.writeMem_pins (s : State) (a) (bs) : (State.writeMem s a bs).2.pins = s.pins := by
  unfold State.writeMem; dsimp only; (repeat' split) <;> simp
@[simp] theorem State.writeMem_power (s : State) (a) (bs) : (State.writeMem s a bs).2.power = s.power := by
  unfold State.writeMem; dsimp only; (repeat' split) <;> simp
@[simp] theorem State.writeMem_pending (s : State) (a) (bs) : (State.writeMem s a bs).2.pending = s.pending := by
  unfold State.writeMem; dsimp only; (repeat' split) <;> simp
@[simp] theorem State.jobLinkLoss_mbx (s : State) : (State.jobLinkLoss s).mbx = s.mbx := by
  unfold State.jobLinkLoss; (repeat' split) <;> simp
@[simp] theorem State.jobLinkLoss_pins (s : State) : (State.jobLinkLoss s).pins = s.pins := by
  unfold State.jobLinkLoss; (repeat' split) <;> simp
@[simp] theorem State.jobLinkLoss_power (s : State) : (State.jobLinkLoss s).power = s.power := by
  unfold State.jobLinkLoss; (repeat' split) <;> simp
@[simp] theorem State.jobLinkLoss_events (s : State) : (State.jobLinkLoss s).events = s.events := by
  unfold State.jobLinkLoss; (repeat' split) <;> simp
@[simp] theorem State.jobLinkLoss_ops (s : State) : (State.jobLinkLoss s).ops = s.ops := by
  unfold State.jobLinkLoss; (repeat' split) <;> simp
@[simp] theorem State.jobLinkLoss_pending (s : State) : (State.jobLinkLoss s).pending = s.pending := by
  unfold State.jobLinkLoss; (repeat' split) <;> simp
@[simp] theorem State.opLinkLoss_boot (s : State) (o) : (State.opLinkLoss s o).boot = s.boot := by simp [State.opLinkLoss]
@[simp] theorem State.opLinkLoss_mbx (s : State) (o) : (State.opLinkLoss s o).mbx = s.mbx := by simp [State.opLinkLoss]
@[simp] theorem State.opLinkLoss_audit (s : State) (o) : (State.opLinkLoss s o).audit = s.audit := by simp [State.opLinkLoss]
@[simp] theorem State.opLinkLoss_pins (s : State) (o) : (State.opLinkLoss s o).pins = s.pins := by simp [State.opLinkLoss]
@[simp] theorem State.opLinkLoss_power (s : State) (o) : (State.opLinkLoss s o).power = s.power := by simp [State.opLinkLoss]
@[simp] theorem State.opLinkLoss_events (s : State) (o) : (State.opLinkLoss s o).events = s.events := by simp [State.opLinkLoss]
@[simp] theorem State.opLinkLoss_fences (s : State) (o) : (State.opLinkLoss s o).fences = s.fences := by simp [State.opLinkLoss]
@[simp] theorem State.opLinkLoss_heat (s : State) (o) : (State.opLinkLoss s o).heat = s.heat := by simp [State.opLinkLoss]
@[simp] theorem State.opLinkLoss_fleet (s : State) (o) : (State.opLinkLoss s o).fleet = s.fleet := by simp [State.opLinkLoss]
@[simp] theorem State.opLinkLoss_freeCtr (s : State) (o) : (State.opLinkLoss s o).freeCtr = s.freeCtr := by simp [State.opLinkLoss]
@[simp] theorem State.opLinkLoss_pending (s : State) (o) : (State.opLinkLoss s o).pending = s.pending := by simp [State.opLinkLoss]
@[simp] theorem State.spoilBank_boot (s : State) (x) : (State.spoilBank s x).boot = s.boot := by cases x <;> rfl
@[simp] theorem State.spoilBank_mbx (s : State) (x) : (State.spoilBank s x).mbx = s.mbx := by cases x <;> rfl
@[simp] theorem State.spoilBank_audit (s : State) (x) : (State.spoilBank s x).audit = s.audit := by cases x <;> rfl
@[simp] theorem State.spoilBank_pins (s : State) (x) : (State.spoilBank s x).pins = s.pins := by cases x <;> rfl
@[simp] theorem State.spoilBank_power (s : State) (x) : (State.spoilBank s x).power = s.power := by cases x <;> rfl
@[simp] theorem State.spoilBank_port (s : State) (x) : (State.spoilBank s x).port = s.port := by cases x <;> rfl
@[simp] theorem State.spoilBank_regs (s : State) (x) : (State.spoilBank s x).regs = s.regs := by cases x <;> rfl
@[simp] theorem State.spoilBank_events (s : State) (x) : (State.spoilBank s x).events = s.events := by cases x <;> rfl
@[simp] theorem State.spoilBank_fences (s : State) (x) : (State.spoilBank s x).fences = s.fences := by cases x <;> rfl
@[simp] theorem State.spoilBank_ops (s : State) (x) : (State.spoilBank s x).ops = s.ops := by cases x <;> rfl
@[simp] theorem State.spoilBank_ended (s : State) (x) : (State.spoilBank s x).ended = s.ended := by cases x <;> rfl
@[simp] theorem State.spoilBank_fleet (s : State) (x) : (State.spoilBank s x).fleet = s.fleet := by cases x <;> rfl
@[simp] theorem State.spoilBank_out (s : State) (x) : (State.spoilBank s x).out = s.out := by cases x <;> rfl
@[simp] theorem State.spoilBank_freeCtr (s : State) (x) : (State.spoilBank s x).freeCtr = s.freeCtr := by cases x <;> rfl
@[simp] theorem State.spoilBank_pending (s : State) (x) : (State.spoilBank s x).pending = s.pending := by cases x <;> rfl

@[simp] theorem State.opAbandoned_boot (s : State) (unit) (dests) : (State.opAbandoned s unit dests).boot = s.boot := by simp [State.opAbandoned]
@[simp] theorem State.opAbandoned_mbx (s : State) (unit) (dests) : (State.opAbandoned s unit dests).mbx = s.mbx := by simp [State.opAbandoned]
@[simp] theorem State.opAbandoned_audit (s : State) (unit) (dests) : (State.opAbandoned s unit dests).audit = s.audit := by simp [State.opAbandoned]
@[simp] theorem State.opAbandoned_pins (s : State) (unit) (dests) : (State.opAbandoned s unit dests).pins = s.pins := by simp [State.opAbandoned]
@[simp] theorem State.opAbandoned_power (s : State) (unit) (dests) : (State.opAbandoned s unit dests).power = s.power := by simp [State.opAbandoned]
@[simp] theorem State.opAbandoned_port (s : State) (unit) (dests) : (State.opAbandoned s unit dests).port = s.port := by simp [State.opAbandoned]
@[simp] theorem State.opAbandoned_regs (s : State) (unit) (dests) : (State.opAbandoned s unit dests).regs = s.regs := by simp [State.opAbandoned]
@[simp] theorem State.opAbandoned_events (s : State) (unit) (dests) : (State.opAbandoned s unit dests).events = s.events := by simp [State.opAbandoned]
@[simp] theorem State.opAbandoned_fences (s : State) (unit) (dests) : (State.opAbandoned s unit dests).fences = s.fences := by simp [State.opAbandoned]
@[simp] theorem State.opAbandoned_ops (s : State) (unit) (dests) : (State.opAbandoned s unit dests).ops = s.ops := by simp [State.opAbandoned]
@[simp] theorem State.opAbandoned_ended (s : State) (unit) (dests) : (State.opAbandoned s unit dests).ended = s.ended := by simp [State.opAbandoned]
@[simp] theorem State.opAbandoned_fleet (s : State) (unit) (dests) : (State.opAbandoned s unit dests).fleet = s.fleet := by simp [State.opAbandoned]
@[simp] theorem State.opAbandoned_out (s : State) (unit) (dests) : (State.opAbandoned s unit dests).out = s.out := by simp [State.opAbandoned]
@[simp] theorem State.opAbandoned_freeCtr (s : State) (unit) (dests) : (State.opAbandoned s unit dests).freeCtr = s.freeCtr := by simp [State.opAbandoned]
@[simp] theorem State.opAbandoned_pending (s : State) (unit) (dests) : (State.opAbandoned s unit dests).pending = s.pending := by simp [State.opAbandoned]
@[simp] theorem State.abandon_boot (s : State) (p) (d) : (State.abandon s p d).boot = s.boot := by unfold State.abandon; split <;> simp
@[simp] theorem State.abandon_mbx (s : State) (p) (d) : (State.abandon s p d).mbx = s.mbx := by unfold State.abandon; split <;> simp
@[simp] theorem State.abandon_audit (s : State) (p) (d) : (State.abandon s p d).audit = s.audit := by unfold State.abandon; split <;> simp
@[simp] theorem State.abandon_pins (s : State) (p) (d) : (State.abandon s p d).pins = s.pins := by unfold State.abandon; split <;> simp
@[simp] theorem State.abandon_power (s : State) (p) (d) : (State.abandon s p d).power = s.power := by unfold State.abandon; split <;> simp
@[simp] theorem State.abandon_port (s : State) (p) (d) : (State.abandon s p d).port = s.port := by unfold State.abandon; split <;> simp
@[simp] theorem State.abandon_regs (s : State) (p) (d) : (State.abandon s p d).regs = s.regs := by unfold State.abandon; split <;> simp
@[simp] theorem State.abandon_events (s : State) (p) (d) : (State.abandon s p d).events = s.events := by unfold State.abandon; split <;> simp
@[simp] theorem State.abandon_fences (s : State) (p) (d) : (State.abandon s p d).fences = s.fences := by unfold State.abandon; split <;> simp
@[simp] theorem State.abandon_ops (s : State) (p) (d) : (State.abandon s p d).ops = s.ops := by unfold State.abandon; split <;> simp
@[simp] theorem State.abandon_ended (s : State) (p) (d) : (State.abandon s p d).ended = s.ended := by unfold State.abandon; split <;> simp
@[simp] theorem State.abandon_fleet (s : State) (p) (d) : (State.abandon s p d).fleet = s.fleet := by unfold State.abandon; split <;> simp
@[simp] theorem State.abandon_out (s : State) (p) (d) : (State.abandon s p d).out = s.out := by unfold State.abandon; split <;> simp
@[simp] theorem State.abandon_freeCtr (s : State) (p) (d) : (State.abandon s p d).freeCtr = s.freeCtr := by unfold State.abandon; split <;> simp
@[simp] theorem State.abandon_pending (s : State) (p) (d) : (State.abandon s p d).pending = s.pending := by unfold State.abandon; split <;> simp
@[simp] theorem State.spanStep_boot (s : State) (p) : (State.spanStep s p).2.boot = s.boot := by
  unfold State.spanStep; dsimp only; (repeat' split) <;> simp
@[simp] theorem State.spanStep_mbx (s : State) (p) : (State.spanStep s p).2.mbx = s.mbx := by
  unfold State.spanStep; dsimp only; (repeat' split) <;> simp
@[simp] theorem State.spanStep_audit (s : State) (p) : (State.spanStep s p).2.audit = s.audit := by
  unfold State.spanStep; dsimp only; (repeat' split) <;> simp
@[simp] theorem State.spanStep_pins (s : State) (p) : (State.spanStep s p).2.pins = s.pins := by
  unfold State.spanStep; dsimp only; (repeat' split) <;> simp
@[simp] theorem State.spanStep_power (s : State) (p) : (State.spanStep s p).2.power = s.power := by
  unfold State.spanStep; dsimp only; (repeat' split) <;> simp
@[simp] theorem State.spanStep_port (s : State) (p) : (State.spanStep s p).2.port = s.port := by
  unfold State.spanStep; dsimp only; (repeat' split) <;> simp
@[simp] theorem State.spanStep_regs (s : State) (p) : (State.spanStep s p).2.regs = s.regs := by
  unfold State.spanStep; dsimp only; (repeat' split) <;> simp
@[simp] theorem State.spanStep_events (s : State) (p) : (State.spanStep s p).2.events = s.events := by
  unfold State.spanStep; dsimp only; (repeat' split) <;> simp
@[simp] theorem State.spanStep_fences (s : State) (p) : (State.spanStep s p).2.fences = s.fences := by
  unfold State.spanStep; dsimp only; (repeat' split) <;> simp
@[simp] theorem State.spanStep_ops (s : State) (p) : (State.spanStep s p).2.ops = s.ops := by
  unfold State.spanStep; dsimp only; (repeat' split) <;> simp
@[simp] theorem State.spanStep_ended (s : State) (p) : (State.spanStep s p).2.ended = s.ended := by
  unfold State.spanStep; dsimp only; (repeat' split) <;> simp
@[simp] theorem State.spanStep_fleet (s : State) (p) : (State.spanStep s p).2.fleet = s.fleet := by
  unfold State.spanStep; dsimp only; (repeat' split) <;> simp
@[simp] theorem State.spanStep_out (s : State) (p) : (State.spanStep s p).2.out = s.out := by
  unfold State.spanStep; dsimp only; (repeat' split) <;> simp
@[simp] theorem State.spanStep_freeCtr (s : State) (p) : (State.spanStep s p).2.freeCtr = s.freeCtr := by
  unfold State.spanStep; dsimp only; (repeat' split) <;> simp
@[simp] theorem State.spanStep_pending (s : State) (p) : (State.spanStep s p).2.pending = s.pending := by
  unfold State.spanStep; dsimp only; (repeat' split) <;> simp
@[simp] theorem State.noteDests_boot (s : State) (p) (dests) : (State.noteDests s p dests).boot = s.boot := by simp [State.noteDests]
@[simp] theorem State.noteDests_mbx (s : State) (p) (dests) : (State.noteDests s p dests).mbx = s.mbx := by simp [State.noteDests]
@[simp] theorem State.noteDests_audit (s : State) (p) (dests) : (State.noteDests s p dests).audit = s.audit := by simp [State.noteDests]
@[simp] theorem State.noteDests_pins (s : State) (p) (dests) : (State.noteDests s p dests).pins = s.pins := by simp [State.noteDests]
@[simp] theorem State.noteDests_power (s : State) (p) (dests) : (State.noteDests s p dests).power = s.power := by simp [State.noteDests]
@[simp] theorem State.noteDests_port (s : State) (p) (dests) : (State.noteDests s p dests).port = s.port := by simp [State.noteDests]
@[simp] theorem State.noteDests_regs (s : State) (p) (dests) : (State.noteDests s p dests).regs = s.regs := by simp [State.noteDests]
@[simp] theorem State.noteDests_events (s : State) (p) (dests) : (State.noteDests s p dests).events = s.events := by simp [State.noteDests]
@[simp] theorem State.noteDests_fences (s : State) (p) (dests) : (State.noteDests s p dests).fences = s.fences := by simp [State.noteDests]
@[simp] theorem State.noteDests_ops (s : State) (p) (dests) : (State.noteDests s p dests).ops = s.ops := by simp [State.noteDests]
@[simp] theorem State.noteDests_ended (s : State) (p) (dests) : (State.noteDests s p dests).ended = s.ended := by simp [State.noteDests]
@[simp] theorem State.noteDests_fleet (s : State) (p) (dests) : (State.noteDests s p dests).fleet = s.fleet := by simp [State.noteDests]
@[simp] theorem State.noteDests_out (s : State) (p) (dests) : (State.noteDests s p dests).out = s.out := by simp [State.noteDests]
@[simp] theorem State.noteDests_freeCtr (s : State) (p) (dests) : (State.noteDests s p dests).freeCtr = s.freeCtr := by simp [State.noteDests]
@[simp] theorem State.noteDests_pending (s : State) (p) (dests) : (State.noteDests s p dests).pending = s.pending := by simp [State.noteDests]

/-! ## What ends with a session, a job or the link, and what stands -/

@[simp] theorem State.endSession_keys (s : State) (mask : Nat) : (s.endSession mask).mbx.keys = s.mbx.keys := by
  unfold State.endSession
  dsimp only
  split <;> simp

@[simp] theorem State.endSession_session (s : State) (mask : Nat) : (s.endSession mask).mbx.session = 0 := rfl

@[simp] theorem State.endJob_pattern (s : State) (status : Nat) : (s.endJob status).heat.pattern = s.heat.pattern := by
  unfold State.endJob
  dsimp only
  (repeat' split) <;> simp

@[simp] theorem State.endJob_bindings (s : State) (status : Nat) : (s.endJob status).heat.bindings = s.heat.bindings := by
  unfold State.endJob
  dsimp only
  (repeat' split) <;> simp

@[simp] theorem State.endJob_shapes (s : State) (status : Nat) : (s.endJob status).heat.shapes = s.heat.shapes := by
  unfold State.endJob
  dsimp only
  (repeat' split) <;> simp

@[simp] theorem State.endJob_heatNum (s : State) (status : Nat) : (s.endJob status).heat.heatNum = s.heat.heatNum := by
  unfold State.endJob
  dsimp only
  (repeat' split) <;> simp

@[simp] theorem State.endJob_updates (s : State) (status : Nat) : (s.endJob status).heat.updates = s.heat.updates := by
  unfold State.endJob
  dsimp only
  (repeat' split) <;> simp

@[simp] theorem State.endJob_cursor (s : State) (status : Nat) : (s.endJob status).heat.cursor = s.heat.cursor := by
  unfold State.endJob
  dsimp only
  (repeat' split) <;> simp

@[simp] theorem State.endJob_seeds (s : State) (status : Nat) : (s.endJob status).heat.seeds = s.heat.seeds := by
  unfold State.endJob
  dsimp only
  (repeat' split) <;> simp

@[simp] theorem State.endJob_est (s : State) (status : Nat) : (s.endJob status).heat.est = s.heat.est := by
  unfold State.endJob
  dsimp only
  (repeat' split) <;> simp

@[simp] theorem State.endJob_totals (s : State) (status : Nat) : (s.endJob status).heat.totals = s.heat.totals := by
  unfold State.endJob
  dsimp only
  (repeat' split) <;> simp

@[simp] theorem State.jobLinkLoss_pattern (s : State) : (s.jobLinkLoss).heat.pattern = s.heat.pattern := by
  unfold State.jobLinkLoss
  dsimp only
  (repeat' split) <;> simp

@[simp] theorem State.jobLinkLoss_bindings (s : State) : (s.jobLinkLoss).heat.bindings = s.heat.bindings := by
  unfold State.jobLinkLoss
  dsimp only
  (repeat' split) <;> simp

@[simp] theorem State.jobLinkLoss_shapes (s : State) : (s.jobLinkLoss).heat.shapes = s.heat.shapes := by
  unfold State.jobLinkLoss
  dsimp only
  (repeat' split) <;> simp

@[simp] theorem State.jobLinkLoss_heatNum (s : State) : (s.jobLinkLoss).heat.heatNum = s.heat.heatNum := by
  unfold State.jobLinkLoss
  dsimp only
  (repeat' split) <;> simp

@[simp] theorem State.jobLinkLoss_updates (s : State) : (s.jobLinkLoss).heat.updates = s.heat.updates := by
  unfold State.jobLinkLoss
  dsimp only
  (repeat' split) <;> simp

@[simp] theorem State.jobLinkLoss_cursor (s : State) : (s.jobLinkLoss).heat.cursor = s.heat.cursor := by
  unfold State.jobLinkLoss
  dsimp only
  (repeat' split) <;> simp

@[simp] theorem State.jobLinkLoss_seeds (s : State) : (s.jobLinkLoss).heat.seeds = s.heat.seeds := by
  unfold State.jobLinkLoss
  dsimp only
  (repeat' split) <;> simp

@[simp] theorem State.jobLinkLoss_est (s : State) : (s.jobLinkLoss).heat.est = s.heat.est := by
  unfold State.jobLinkLoss
  dsimp only
  (repeat' split) <;> simp

@[simp] theorem State.jobLinkLoss_totals (s : State) : (s.jobLinkLoss).heat.totals = s.heat.totals := by
  unfold State.jobLinkLoss
  dsimp only
  (repeat' split) <;> simp

end Sys2Proof.Machine
end

