-- ==== Sys2Proof/Laws/Fuses.lean ====
section
/-! SUPPORT. No operation changes a fuse but the advance of the SVN and the promotion of a slot, and neither clears one (R368). -/

namespace Sys2Proof.Machine

/-! ## The order of fuse states -/

theorem Fuses.kept_refl (a : Fuses) : a.kept a := ⟨rfl, rfl, rfl, rfl, rfl, le_refl _, fun _ h => h⟩

theorem Fuses.kept_trans {a b c : Fuses} (h : a.kept b) (g : b.kept c) : a.kept c := by
  obtain ⟨h1, h2, h3, h4, h5, h6, h7⟩ := h
  obtain ⟨g1, g2, g3, g4, g5, g6, g7⟩ := g
  exact ⟨g1.trans h1, g2.trans h2, g3.trans h3, g4.trans h4, g5.trans h5, h6.trans g6, fun i h => g7 i (h7 i h)⟩

theorem Fuses.kept.trans {a b c : Fuses} (h : a.kept b) (g : b.kept c) : a.kept c := Fuses.kept_trans h g

theorem Fuses.kept.trans_eq {a b c : Fuses} (h : a.kept b) (g : c = b) : a.kept c := g ▸ h

theorem Fuses.kept_of_eq {a b : Fuses} (h : b = a) : a.kept b := h ▸ a.kept_refl

/-! ## Cases and folds -/

@[simp] theorem ite_fuses (c : Prop) [Decidable c] (s t : State) : (if c then s else t).fuses = if c then s.fuses else t.fuses := apply_ite _ _ _ _
@[simp] theorem ite_snd_fuses {β : Type} (c : Prop) [Decidable c] (x y : β × State) : (if c then x else y).2.fuses = if c then x.2.fuses else y.2.fuses := by split <;> rfl
@[simp] theorem ite_thd_fuses {β γ : Type} (c : Prop) [Decidable c] (x y : β × γ × State) : (if c then x else y).2.2.fuses = if c then x.2.2.fuses else y.2.2.fuses := by split <;> rfl
@[simp] theorem foldl_fuses {α : Type} (f : State → α → State) (l : List α) (s : State) (h : ∀ s x, (f s x).fuses = s.fuses) :
    (l.foldl f s).fuses = s.fuses := foldl_inv (fun t => t.fuses = s.fuses) f l s rfl fun b x e => (h b x).trans e
@[simp] theorem foldl_snd_fuses {α β : Type} (f : β × State → α → β × State) (l : List α) (s : β × State) (h : ∀ s x, (f s x).2.fuses = s.2.fuses) :
    (l.foldl f s).2.fuses = s.2.fuses := foldl_inv (fun t => t.2.fuses = s.2.fuses) f l s rfl fun b x e => (h b x).trans e
@[simp] theorem foldl_thd_fuses {α β γ : Type} (f : β × γ × State → α → β × γ × State) (l : List α) (s : β × γ × State) (h : ∀ s x, (f s x).2.2.fuses = s.2.2.fuses) :
    (l.foldl f s).2.2.fuses = s.2.2.fuses := foldl_inv (fun t => t.2.2.fuses = s.2.2.fuses) f l s rfl fun b x e => (h b x).trans e
@[simp] theorem foldl_fth_fuses {α β γ δ : Type} (f : β × γ × δ × State → α → β × γ × δ × State) (l : List α) (s : β × γ × δ × State) (h : ∀ s x, (f s x).2.2.2.fuses = s.2.2.2.fuses) :
    (l.foldl f s).2.2.2.fuses = s.2.2.2.fuses := foldl_inv (fun t => t.2.2.2.fuses = s.2.2.2.fuses) f l s rfl fun b x e => (h b x).trans e

/-! ## Operations -/

@[simp] theorem State.emit_fuses (s : State) (o) : (State.emit s o).fuses = s.fuses := by simp [State.emit]

@[simp] theorem State.draw_fuses (s : State) : (State.draw s).2.fuses = s.fuses := by simp [State.draw]

@[simp] theorem State.snoop_fuses (s : State) (n) (kind) (tensor) (blocks) : (State.snoop s n kind tensor blocks).fuses = s.fuses := by simp [State.snoop]

@[simp] theorem State.hostRead_fuses (s : State) (iova) (len) (p) : (State.hostRead s iova len p).fuses = s.fuses := by simp [State.hostRead]

@[simp] theorem State.arrive_fuses (s : State) (e) (kind) (tensor) (blocks) : (State.arrive s e kind tensor blocks).fuses = s.fuses := by
  unfold State.arrive; dsimp only; (repeat' split) <;> simp [*]

@[simp] theorem State.cross_fuses (s : State) (a) (b) (kind) (tensor) (blocks) : (State.cross s a b kind tensor blocks).fuses = s.fuses := by
  unfold State.cross; (repeat' split) <;> simp

@[simp] theorem State.sendHostAs_fuses (s : State) (iova) (bytes) (t) : (State.sendHostAs s iova bytes t).fuses = s.fuses := by simp [State.sendHostAs]

@[simp] theorem State.sendHost_fuses (s : State) (iova) (bytes) : (State.sendHost s iova bytes).fuses = s.fuses := by simp [State.sendHost]

@[simp] theorem State.hostWriteAs_fuses (s : State) (iova) (bytes) (p) (t) : (State.hostWriteAs s iova bytes p t).fuses = s.fuses := by
  unfold State.hostWriteAs; dsimp only; (repeat' split) <;> simp [*]

@[simp] theorem State.hostWrite_fuses (s : State) (iova) (bytes) (p) : (State.hostWrite s iova bytes p).fuses = s.fuses := by simp [State.hostWrite]

@[simp] theorem State.signal_fuses (s : State) (v) : (State.signal s v).fuses = s.fuses := by simp [State.signal]

@[simp] theorem State.flushCq_fuses (s : State) (k : Nat) : (s.flushCq k).fuses = s.fuses := by
  induction k generalizing s with
  | zero => rfl
  | succ k ih => unfold State.flushCq; (repeat' split) <;> simp [ih]

@[simp] theorem State.post_fuses (s : State) (c) : (State.post s c).fuses = s.fuses := by simp [State.post]

@[simp] theorem State.complete_fuses (s : State) (c) (opc) (sqHead) (status) (d0) (d1) : (State.complete s c opc sqHead status d0 d1).fuses = s.fuses := by simp [State.complete]

@[simp] theorem State.flushEq_fuses (s : State) (k : Nat) : (s.flushEq k).fuses = s.fuses := by
  induction k generalizing s with
  | zero => rfl
  | succ k ih => unfold State.flushEq; dsimp only; (repeat' split) <;> simp [ih]

@[simp] theorem State.postEvent_fuses (s : State) (e) : (State.postEvent s e).fuses = s.fuses := by simp [State.postEvent]

@[simp] theorem State.closeEvents_fuses (s : State) (f) : (State.closeEvents s f).fuses = s.fuses := by simp [State.closeEvents]

@[simp] theorem State.checkpoint_fuses (s : State) : (State.checkpoint s).fuses = s.fuses := by simp [State.checkpoint]

@[simp] theorem State.auditAppend_fuses (s : State) (action) (role) (status) (key) (object) : (State.auditAppend s action role status key object).fuses = s.fuses := by simp [State.auditAppend]

@[simp] theorem State.auditLate_fuses (s : State) (action) (role) (status) (key) (object) : (State.auditLate s action role status key object).fuses = s.fuses := by simp [State.auditLate]

@[simp] theorem State.endRole_fuses (s : State) (r) : (State.endRole s r).fuses = s.fuses := by simp [State.endRole]

@[simp] theorem State.endSession_fuses (s : State) (mask) : (State.endSession s mask).fuses = s.fuses := by simp [State.endSession]

@[simp] theorem State.moduleReset_fuses (s : State) (cause) (b) : (s.moduleReset cause b).fuses = s.fuses := by
  simp [State.moduleReset]

@[simp] theorem State.recordSticky_fuses (s : State) (u) : (State.recordSticky s u).fuses = s.fuses := by simp [State.recordSticky]

@[simp] theorem State.fenceMark_fuses (s : State) (u) (cause) : (State.fenceMark s u cause).fuses = s.fuses := by simp [State.fenceMark]

@[simp] theorem State.fenceStart_fuses (s : State) (u) (cause) : (State.fenceStart s u cause).fuses = s.fuses := by
  unfold State.fenceStart; dsimp only; (repeat' split) <;> simp [*]

@[simp] theorem State.applyFences_fuses (s : State) (l) : (State.applyFences s l).fuses = s.fuses := by simp [State.applyFences]

@[simp] theorem State.noteEnded_fuses (s : State) (ring) (tag) (opc) (link) : (State.noteEnded s ring tag opc link).fuses = s.fuses := rfl

@[simp] theorem State.finishOp_fuses (s : State) (o) (status) (d0) (d1) : (State.finishOp s o status d0 d1).fuses = s.fuses := by
  unfold State.finishOp; dsimp only; (repeat' split) <;> simp [*]

@[simp] theorem State.setOp_fuses (s : State) (o) : (State.setOp s o).fuses = s.fuses := by simp [State.setOp]

@[simp] theorem State.endOp_fuses (s : State) (o) (status) : (State.endOp s o status).fuses = s.fuses := by
  unfold State.endOp; dsimp only; (repeat' split) <;> simp [*]

@[simp] theorem State.endJob_fuses (s : State) (status) : (State.endJob s status).fuses = s.fuses := by
  unfold State.endJob; dsimp only; (repeat' split) <;> simp [*]

@[simp] theorem State.cause_fuses (s : State) (unit) (bit) : (State.cause s unit bit).fuses = s.fuses := by
  unfold State.cause; dsimp only; (repeat' split) <;> simp [*]

@[simp] theorem State.markRetired_fuses (s : State) (frame) : (State.markRetired s frame).fuses = s.fuses := by simp [State.markRetired]

@[simp] theorem State.degrade_fuses (s : State) (t) : (State.degrade s t).fuses = s.fuses := by
  unfold State.degrade; dsimp only; (repeat' split) <;> simp [*]

@[simp] theorem State.haltJobs_fuses (s : State) (unit) (seq) : (State.haltJobs s unit seq).fuses = s.fuses := by
  unfold State.haltJobs; dsimp only; (repeat' split) <;> simp [*]

@[simp] theorem State.react_fuses (s : State) (level) (code) (unit) (data) (seq) : (State.react s level code unit data seq).fuses = s.fuses := by
  simp only [State.react]; (repeat' split) <;> simp_all

@[simp] theorem State.reactTo_fuses (s : State) (e) (data) : (State.reactTo s e data).fuses = s.fuses := by simp [State.reactTo]

@[simp] theorem State.raiseWith_fuses (s : State) (base) (code) (unit) (layer) (data) (n) (bad) : (State.raiseWith s base code unit layer data n bad).fuses = s.fuses := by
  unfold State.raiseWith; dsimp only; (repeat' split) <;> simp [*]

@[simp] theorem State.raiseN_fuses (s : State) (code) (unit) (layer) (data) (n) (bad) : (State.raiseN s code unit layer data n bad).fuses = s.fuses := by simp [State.raiseN]

@[simp] theorem State.settleReset_fuses (s : State) : (State.settleReset s).fuses = s.fuses := by
  simp only [State.settleReset]; (repeat' split) <;> simp_all

@[simp] theorem State.raise_fuses (s : State) (code) (unit) (layer) (data) : (State.raise s code unit layer data).fuses = s.fuses := by simp [State.raise]

@[simp] theorem State.setRing_fuses (s : State) (r) (f) : (State.setRing s r f).fuses = s.fuses := by simp [State.setRing]

@[simp] theorem State.setRegs_fuses (s : State) (f) : (State.setRegs s f).fuses = s.fuses := by simp [State.setRegs]

@[simp] theorem State.accessError_fuses (s : State) : (State.accessError s).fuses = s.fuses := by simp [State.accessError]

@[simp] theorem State.rightsError_fuses (s : State) : (State.rightsError s).fuses = s.fuses := by simp [State.rightsError]

@[simp] theorem State.clearDue_fuses (s : State) : (State.clearDue s).fuses = s.fuses := by simp [State.clearDue]

@[simp] theorem answer_fuses (st) (s : State) : (answer st s).state.fuses = s.fuses := rfl

@[simp] theorem State.respond_fuses (s : State) (st) (bytes) : (State.respond s st bytes).fuses = s.fuses := by simp [State.respond]

@[simp] theorem State.takeRequest_fuses (s : State) (code) (req) : (State.takeRequest s code req).fuses = s.fuses := by simp [State.takeRequest]

@[simp] theorem State.mailbox_fuses (s : State) (code) (req) (inCruc) (role) (len) (zero) (f) (h : ∀ s, (f s).state.fuses = s.fuses) :
    (State.mailbox s code req inCruc role len zero f).fuses = s.fuses := by
  unfold State.mailbox; dsimp only; (repeat' split) <;> simp [*, answer]

theorem State.mailbox_kept (s : State) (code req inCruc role len zero f) (h : ∀ s : State, s.fuses.kept (f s).state.fuses) :
    s.fuses.kept (State.mailbox s code req inCruc role len zero f).fuses := by
  unfold State.mailbox
  split
  · exact s.fuses.kept_refl
  split
  · exact Fuses.kept_of_eq (by simp)
  rw [State.respond_fuses]
  (repeat' split) <;> first | (refine Fuses.kept_of_eq ?_; simp [answer]; done) | exact h (s.takeRequest code req)

@[simp] theorem State.auditable_fuses (s : State) (f) (h : ∀ s, (f s).state.fuses = s.fuses) : (State.auditable s f).state.fuses = s.fuses := by
  unfold State.auditable; split <;> simp [*]

@[simp] theorem State.auditMbx_fuses (s : State) (action) (st) (object) : (State.auditMbx s action st object).fuses = s.fuses := by simp [State.auditMbx]

@[simp] theorem mbxGetIdentity_fuses (req) (s : State) : (mbxGetIdentity req s).fuses = s.fuses := by simp [mbxGetIdentity]

@[simp] theorem mbxAuthNonce_fuses (req) (s : State) : (mbxAuthNonce req s).fuses = s.fuses := by simp [mbxAuthNonce]

@[simp] theorem State.authFailure_fuses (s : State) : (State.authFailure s).fuses = s.fuses := by simp [State.authFailure]

@[simp] theorem State.grant_fuses (s : State) (role) (mask) (key) : (State.grant s role mask key).fuses = s.fuses := by simp [State.grant]

@[simp] theorem mbxAuth_fuses (req) (s : State) : (mbxAuth req s).fuses = s.fuses := by
  unfold mbxAuth; apply State.mailbox_fuses; intro s; apply State.auditable_fuses; intro s; dsimp only; (repeat' split) <;> simp

@[simp] theorem mbxLockoutExpiry_fuses (s : State) : (mbxLockoutExpiry s).fuses = s.fuses := by simp [mbxLockoutExpiry]

@[simp] theorem mbxRelease_fuses (req) (s : State) : (mbxRelease req s).fuses = s.fuses := by simp [mbxRelease]

@[simp] theorem mbxEnrollKey_fuses (req) (s : State) : (mbxEnrollKey req s).fuses = s.fuses := by
  unfold mbxEnrollKey; apply State.mailbox_fuses; intro s; dsimp only; split
  · rfl
  · apply State.auditable_fuses; intro s; (repeat' split) <;> simp

@[simp] theorem mbxRevokeKey_fuses (req) (s : State) : (mbxRevokeKey req s).fuses = s.fuses := by
  unfold mbxRevokeKey; apply State.mailbox_fuses; intro s; apply State.auditable_fuses; intro s; dsimp only; (repeat' split) <;> simp

@[simp] theorem mbxStageFirmware_fuses (req) (s : State) : (mbxStageFirmware req s).fuses = s.fuses := by
  unfold mbxStageFirmware; apply State.mailbox_fuses; intro s; apply State.auditable_fuses; intro s; dsimp only; (repeat' split) <;> simp

/-- ADVANCE_SVN (R371, R416). -/
theorem mbxAdvanceSvn_kept (req) (s : State) : s.fuses.kept (mbxAdvanceSvn req s).fuses := by
  refine State.mailbox_kept _ _ _ _ _ _ _ _ fun s => ?_
  unfold State.auditable
  split
  · dsimp only
    split
    · exact s.fuses.kept_refl
    · simp only [answer, State.auditMbx_fuses]
      exact ⟨rfl, rfl, rfl, rfl, rfl, le_max_left _ _, fun _ h => h⟩
  · exact s.fuses.kept_refl

@[simp] theorem mbxClearStartFail_fuses (req) (s : State) : (mbxClearStartFail req s).fuses = s.fuses := by simp [mbxClearStartFail]

@[simp] theorem mbxResetModule_fuses (req) (s : State) : (mbxResetModule req s).fuses = s.fuses := by simp [mbxResetModule]

@[simp] theorem mbxAuditRead_fuses (req) (s : State) : (mbxAuditRead req s).fuses = s.fuses := by
  unfold mbxAuditRead; apply State.mailbox_fuses; intro s; (try dsimp only); (repeat' split) <;> simp

@[simp] theorem mbxAuditCheckpoint_fuses (req) (s : State) : (mbxAuditCheckpoint req s).fuses = s.fuses := by simp [mbxAuditCheckpoint]

@[simp] theorem mbxDebugNonce_fuses (req) (s : State) : (mbxDebugNonce req s).fuses = s.fuses := by simp [mbxDebugNonce]

@[simp] theorem mbxDebugUnlock_fuses (req) (s : State) : (mbxDebugUnlock req s).fuses = s.fuses := by
  unfold mbxDebugUnlock; apply State.mailbox_fuses; intro s; apply State.auditable_fuses; intro s; dsimp only; (repeat' split) <;> simp

@[simp] theorem flashAgain_fuses (s : State) : (flashAgain s).fuses = s.fuses := by simp [flashAgain]

theorem State.mailboxGo_kept (s : State) : s.fuses.kept s.mailboxGo.fuses := by
  unfold State.mailboxGo
  dsimp only
  (repeat' split) <;> first | (refine Fuses.kept_of_eq ?_; simp; done) | exact mbxAdvanceSvn_kept _ _

@[simp] theorem attestReport_fuses (nonce) (s : State) : (attestReport nonce s).fuses = s.fuses := by simp [attestReport]

@[simp] theorem getCertBytes_fuses (offset) (length) (s : State) : (getCertBytes offset length s).fuses = s.fuses := by simp [getCertBytes]

@[simp] theorem State.eccEvent_fuses (s : State) (a) (f) : (State.eccEvent s a f).fuses = s.fuses := by
  unfold State.eccEvent; dsimp only; (repeat' split) <;> simp [*]

@[simp] theorem State.activate_fuses (s : State) (a) (n) : (State.activate s a n).fuses = s.fuses := rfl

@[simp] theorem State.readMem_fuses (s : State) (a) (n) : (State.readMem s a n).2.fuses = s.fuses := by
  unfold State.readMem; dsimp only; (repeat' split) <;> simp [*]

@[simp] theorem State.poke_fuses (s : State) (a) (bs) : (State.poke s a bs).fuses = s.fuses := by simp [State.poke]

@[simp] theorem State.poison_fuses (s : State) (a) : (State.poison s a).fuses = s.fuses := by simp [State.poison]

@[simp] theorem State.mergeWord_fuses (s : State) (a) (bs) : (State.mergeWord s a bs).2.fuses = s.fuses := by
  unfold State.mergeWord; dsimp only; (repeat' split) <;> simp [*]

@[simp] theorem State.writeMem_fuses (s : State) (a) (bs) : (State.writeMem s a bs).2.fuses = s.fuses := by
  unfold State.writeMem; dsimp only; (repeat' split) <;> simp [*]

@[simp] theorem State.poisonRange_fuses (s : State) (a) (bad) : (State.poisonRange s a bad).fuses = s.fuses := by simp [State.poisonRange]

@[simp] theorem State.setEntry_fuses (s : State) (a) (v) : (State.setEntry s a v).fuses = s.fuses := by simp [State.setEntry]

@[simp] theorem State.tableBelow_fuses (s : State) (d) (a) (size) (childSize) (n) : (State.tableBelow s d a size childSize n).2.fuses = s.fuses := by
  unfold State.tableBelow; dsimp only; (repeat' split) <;> simp [*]

@[simp] theorem State.mapOn_fuses (s : State) (d) (va) (entry) : (State.mapOn s d va entry).fuses = s.fuses := by simp [State.mapOn]

@[simp] theorem State.mapFrame_fuses (s : State) (va) (entry) : (State.mapFrame s va entry).fuses = s.fuses := by simp [State.mapFrame]

@[simp] theorem State.carry_fuses (s : State) (die) (out) (a) (kind) (tensor) (blocks) : (State.carry s die out a kind tensor blocks).fuses = s.fuses := by
  unfold State.carry; dsimp only; (repeat' split) <;> simp [*]

@[simp] theorem State.walkEvents_fuses (s : State) (unit) (ps) (write) : (State.walkEvents s unit ps write).fuses = s.fuses := by simp [State.walkEvents]

@[simp] theorem State.readVa_fuses (s : State) (unit) (evUnit) (va) (n) (t) : (State.readVa s unit evUnit va n t).2.fuses = s.fuses := by
  unfold State.readVa; dsimp only; (repeat' split)
  · simp
  · simp
  · refine (foldl_snd_fuses _ _ _ ?_).trans (by simp)
    intro s x; (repeat' split) <;> simp

@[simp] theorem State.writeVa_fuses (s : State) (unit) (evUnit) (va) (bs) (why) (t) : (State.writeVa s unit evUnit va bs why t).2.fuses = s.fuses := by
  unfold State.writeVa; dsimp only; (repeat' split)
  · simp
  · simp
  · refine (foldl_thd_fuses _ _ _ ?_).trans (by simp)
    intro s x; (repeat' split) <;> simp

@[simp] theorem State.commitGo_fuses (s : State) (b) (late) : (State.commitGo s b late).fuses = s.fuses := by
  unfold State.commitGo; dsimp only; (repeat' split) <;> simp

@[simp] theorem State.commitApply_fuses (s : State) (b) : (State.commitApply s b).fuses = s.fuses := by
  unfold State.commitApply; dsimp only; (repeat' split) <;> simp [*]

@[simp] theorem State.enableRing_fuses (s : State) (sel) : (State.enableRing s sel).fuses = s.fuses := by
  unfold State.enableRing; dsimp only; (repeat' split) <;> simp [*]

@[simp] theorem State.disableRing_fuses (s : State) (r) : (State.disableRing s r).fuses = s.fuses := by simp [State.disableRing]

@[simp] theorem State.disableRecords_fuses (s : State) (sel) : (State.disableRecords s sel).fuses = s.fuses := by
  unfold State.disableRecords; dsimp only; (repeat' split) <;> simp [*]

@[simp] theorem State.writeRingCtrl_fuses (s : State) (sel) (v) : (State.writeRingCtrl s sel v).fuses = s.fuses := by
  unfold State.writeRingCtrl; dsimp only; (repeat' split) <;> simp [*]

@[simp] theorem State.writeRingBase_fuses (s : State) (sel) (v) : (State.writeRingBase s sel v).fuses = s.fuses := by
  unfold State.writeRingBase; dsimp only; (repeat' split) <;> simp [*]

@[simp] theorem State.installerWrite_fuses (s : State) (offset) (value) (f) (h : ∀ s, (f s).fuses = s.fuses) : (State.installerWrite s offset value f).fuses = s.fuses := by
  unfold State.installerWrite; dsimp only; (repeat' split) <;> simp [*]

@[simp] theorem State.setSevWord_fuses (s : State) (w) (v) : (State.setSevWord s w v).fuses = s.fuses := by simp [State.setSevWord]

@[simp] theorem State.severityWrite_fuses (s : State) (w) (v) : (State.severityWrite s w v).fuses = s.fuses := by simp [State.severityWrite]

@[simp] theorem State.stickyWrite_fuses (s : State) (v) : (State.stickyWrite s v).fuses = s.fuses := by simp [State.stickyWrite]

@[simp] theorem State.flashField_fuses (s : State) (offset) (v) : (State.flashField s offset v).fuses = s.fuses := by
  unfold State.flashField; dsimp only; (repeat' split) <;> simp

@[simp] theorem State.flashDone_fuses (s : State) (ok) : (State.flashDone s ok).fuses = s.fuses := by
  unfold State.flashDone; dsimp only; (repeat' split) <;> simp [*]

@[simp] theorem State.splitGo_fuses (s : State) : (State.splitGo s).fuses = s.fuses := by
  unfold State.splitGo; dsimp only; (repeat' split) <;> simp [*]

@[simp] theorem State.snooperWrite_fuses (s : State) (n) (ofs) (v) : (State.snooperWrite s n ofs v).fuses = s.fuses := by simp [State.snooperWrite]

@[simp] theorem State.msixWrite_fuses (s : State) (o) (size) (v) : (State.msixWrite s o size v).fuses = s.fuses := by
  unfold State.msixWrite; dsimp only; (repeat' split) <;> simp [*]

theorem State.mailboxWrite_kept (s : State) (o size v) : s.fuses.kept (s.mailboxWrite o size v).fuses := by
  unfold State.mailboxWrite
  dsimp only
  (repeat' split) <;> first | (refine Fuses.kept_of_eq ?_; simp; done) | exact State.mailboxGo_kept _

@[simp] theorem State.ringsWrite_fuses (s : State) (o) (new) : (State.ringsWrite s o new).fuses = s.fuses := by
  unfold State.ringsWrite; dsimp only; (repeat' split) <;> simp [*]

@[simp] theorem State.splitWriteReg_fuses (s : State) (o) (new) (go) : (State.splitWriteReg s o new go).fuses = s.fuses := by
  unfold State.splitWriteReg; dsimp only; (repeat' split) <;> simp [*]

@[simp] theorem State.blockWrite_fuses (s : State) (o new go) : (s.blockWrite o new go).fuses = s.fuses := by
  unfold State.blockWrite
  (repeat' split) <;> simp

/-- A register write reaches the fuses only through the mailbox (R415). -/
theorem State.regWrite_kept (s : State) (o size v) : s.fuses.kept (s.regWrite o size v).fuses := by
  unfold State.regWrite
  dsimp only
  (repeat' split) <;> first | (refine Fuses.kept_of_eq ?_; simp; done) | exact State.mailboxWrite_kept _ _ _ _

@[simp] theorem State.jobLinkLoss_fuses (s : State) : (State.jobLinkLoss s).fuses = s.fuses := by
  unfold State.jobLinkLoss; dsimp only; (repeat' split) <;> simp [*]

@[simp] theorem State.opLinkLoss_fuses (s : State) (o) : (State.opLinkLoss s o).fuses = s.fuses := by simp [State.opLinkLoss]

@[simp] theorem State.linkLoss_fuses (s : State) : (State.linkLoss s).fuses = s.fuses := by simp [State.linkLoss]

@[simp] theorem State.linkTrained_fuses (s : State) (speed) (width) : (State.linkTrained s speed width).fuses = s.fuses := by simp [State.linkTrained]

@[simp] theorem State.noteFailure_fuses (s : State) (cause) (unit) : (State.noteFailure s cause unit).fuses = s.fuses := by simp [State.noteFailure]

@[simp] theorem State.startFailed_fuses (s : State) (cause) (unit) : (State.startFailed s cause unit).fuses = s.fuses := by simp [State.startFailed]

@[simp] theorem verifySlots_fuses (l) (s : State) : (verifySlots l s).2.fuses = s.fuses := by
  induction l generalizing s with
  | nil => rfl
  | cons i is ih => unfold verifySlots; dsimp only; split <;> simp [ih]

@[simp] theorem State.endVerify_fuses (s : State) : s.endVerify.fuses = s.fuses := by
  have h := verifySlots_fuses s.boot.tryOrder s
  unfold State.endVerify; split <;> rename_i e <;> rw [e] at h <;> simpa using h

@[simp] theorem State.fenceAtStart_fuses (s : State) (u) : (State.fenceAtStart s u).fuses = s.fuses := by simp [State.fenceAtStart]

@[simp] theorem State.endPrepare_fuses (s : State) (failed) : (State.endPrepare s failed).fuses = s.fuses := by simp [State.endPrepare]

@[simp] theorem State.endFill_fuses (s : State) (ac) : (State.endFill s ac).fuses = s.fuses := by simp [State.endFill]

@[simp] theorem State.endDies_fuses (s : State) (failed) : (State.endDies s failed).fuses = s.fuses := by
  unfold State.endDies; dsimp only; (repeat' split) <;> simp [*]

/-- The promotion of the slot that ran (R370, R371). -/
theorem State.promote_kept (s : State) : s.fuses.kept s.promote.fuses := by
  unfold State.promote
  extract_lets b i x demote b1 s1 s2 blow
  split
  · exact s.fuses.kept_refl
  · rw [ite_fuses]
    split
    · exact Fuses.kept_of_eq (by simp [s2, s1])
    · have h : s2.fuses = s.fuses := by simp [s2, s1]
      rw [← h]
      exact ⟨rfl, rfl, rfl, rfl, rfl, le_max_left _ _, fun i k => (Nat.testBit_or ..).trans (by simp [k])⟩

theorem State.becomeReady_kept (s : State) : s.fuses.kept s.becomeReady.fuses := by
  refine s.promote_kept.trans_eq ?_
  unfold State.becomeReady
  dsimp only
  split <;> simp

theorem State.stageDone_kept (s : State) (failed ac) : s.fuses.kept (s.stageDone failed ac).fuses := by
  unfold State.stageDone
  dsimp only
  (repeat' split) <;> first | (refine Fuses.kept_of_eq ?_; simp; done) | exact State.becomeReady_kept _

@[simp] theorem State.stageFailed_fuses (s : State) (cause) (unit) (ac) : (State.stageFailed s cause unit ac).fuses = s.fuses := by simp [State.stageFailed]

@[simp] theorem State.managementReset_fuses (s : State) : (State.managementReset s).fuses = s.fuses := by simp [State.managementReset]

@[simp] theorem State.powerUp_fuses (s : State) (v) : (State.powerUp s v).fuses = s.fuses := by simp [State.powerUp]

@[simp] theorem State.shutDown_fuses (s : State) : (State.shutDown s).fuses = s.fuses := by simp [State.shutDown]

@[simp] theorem State.trip_fuses (s : State) : (State.trip s).fuses = s.fuses := by simp [State.trip]

@[simp] theorem State.tripRelease_fuses (s : State) (high) : (State.tripRelease s high).fuses = s.fuses := by simp [State.tripRelease]

@[simp] theorem State.dieUpdate_fuses (s : State) (i) (temp) : (State.dieUpdate s i temp).fuses = s.fuses := by simp [State.dieUpdate]

@[simp] theorem State.senseUpdate_fuses (s : State) (t) : (State.senseUpdate s t).fuses = s.fuses := by simp [State.senseUpdate]

@[simp] theorem State.powerEvents_fuses (s : State) (t) : (State.powerEvents s t).fuses = s.fuses := by simp [State.powerEvents]

@[simp] theorem State.telemetry_fuses (s : State) (t) : (State.telemetry s t).fuses = s.fuses := by simp [State.telemetry]

@[simp] theorem State.smbusRead_fuses (s : State) (command) : (State.smbusRead s command).fuses = s.fuses := by
  unfold State.smbusRead; dsimp only; (repeat' split) <;> simp [*]

@[simp] theorem State.boundary_fuses (s : State) (clamp) : (State.boundary s clamp).fuses = s.fuses := by simp [State.boundary]

@[simp] theorem State.jtagAccess_fuses (s : State) (a) : (State.jtagAccess s a).fuses = s.fuses := by
  unfold State.jtagAccess; dsimp only; (repeat' split) <;> simp [*]

@[simp] theorem State.jtagSession_fuses (s : State) (scope) (l) : (State.jtagSession s scope l).fuses = s.fuses := by simp [State.jtagSession]

@[simp] theorem State.doeDiscover_fuses (s : State) : (State.doeDiscover s).fuses = s.fuses := by simp [State.doeDiscover]

@[simp] theorem State.cdat_fuses (s : State) : (State.cdat s).fuses = s.fuses := by simp [State.cdat]

@[simp] theorem State.backInvalidate_fuses (s : State) (line) : (State.backInvalidate s line).fuses = s.fuses := by simp [State.backInvalidate]

@[simp] theorem State.grantLine_fuses (s : State) (line) : (State.grantLine s line).fuses = s.fuses := by simp [State.grantLine]

@[simp] theorem State.serveRead_fuses (s : State) (a) (n) (grant) : (State.serveRead s a n grant).fuses = s.fuses := by
  unfold State.serveRead; dsimp only; (repeat' split) <;> simp [*]

@[simp] theorem State.hostMemRead_fuses (s : State) (d) (o) (n) (cached) : (State.hostMemRead s d o n cached).fuses = s.fuses := by simp [State.hostMemRead]

@[simp] theorem State.retryReads_fuses (s : State) : (State.retryReads s).fuses = s.fuses := by
  unfold State.retryReads; dsimp only; (repeat' split) <;> simp [*]

@[simp] theorem State.hostMemWrite_fuses (s : State) (d) (o) (data) : (State.hostMemWrite s d o data).fuses = s.fuses := by simp [State.hostMemWrite]

@[simp] theorem State.hostSnoopAnswer_fuses (s : State) (line) : (State.hostSnoopAnswer s line).fuses = s.fuses := by simp [State.hostSnoopAnswer]

@[simp] theorem State.hdmProgram_fuses (s : State) (d) (base) : (State.hdmProgram s d base).fuses = s.fuses := by simp [State.hdmProgram]

@[simp] theorem State.clockStop_fuses (s : State) (u) : (State.clockStop s u).fuses = s.fuses := by simp [State.clockStop]

@[simp] theorem State.powerGate_fuses (s : State) (u) : (State.powerGate s u).fuses = s.fuses := by simp [State.powerGate]

@[simp] theorem State.markInvalid_fuses (s : State) (l) : (State.markInvalid s l).fuses = s.fuses := by simp [State.markInvalid]

@[simp] theorem State.opAbandoned_fuses (s : State) (unit) (dests) : (State.opAbandoned s unit dests).fuses = s.fuses := by simp [State.opAbandoned]

@[simp] theorem State.spoilBank_fuses (s : State) (x) : (State.spoilBank s x).fuses = s.fuses := by
  unfold State.spoilBank; dsimp only; (repeat' split) <;> simp [*]

@[simp] theorem State.abandon_fuses (s : State) (p) (d) : (State.abandon s p d).fuses = s.fuses := by simp [State.abandon]

@[simp] theorem State.fencedReply_fuses (s : State) (r) : (State.fencedReply s r).fuses = s.fuses := by
  unfold State.fencedReply; dsimp only; (repeat' split) <;> simp [*]

@[simp] theorem State.cdcTimeoutOp_fuses (s : State) (source) (far) (r) : (State.cdcTimeoutOp s source far r).fuses = s.fuses := by simp [State.cdcTimeoutOp]

@[simp] theorem State.flushLink_fuses (s : State) (i) : (State.flushLink s i).fuses = s.fuses := by simp [State.flushLink]

@[simp] theorem State.crcFail_fuses (s : State) (e) : (State.crcFail s e).fuses = s.fuses := by simp [State.crcFail]

@[simp] theorem State.retrainDone_fuses (s : State) (i) (ok) : (State.retrainDone s i ok).fuses = s.fuses := by simp [State.retrainDone]

@[simp] theorem State.phyDone_fuses (s : State) (n) : (State.phyDone s n).fuses = s.fuses := by simp [State.phyDone]

@[simp] theorem State.fenceControl_fuses (s : State) (c) : (State.fenceControl s c).fuses = s.fuses := by simp [State.fenceControl]

@[simp] theorem State.restartFailed_fuses (s : State) (c) : (State.restartFailed s c).fuses = s.fuses := by
  unfold State.restartFailed; dsimp only; (repeat' split) <;> simp [*]

@[simp] theorem State.controlWatchdog_fuses (s : State) (c) (pc) : (State.controlWatchdog s c pc).fuses = s.fuses := by
  unfold State.controlWatchdog; dsimp only; (repeat' split) <;> simp [*]

@[simp] theorem State.restartDone_fuses (s : State) (c) : (State.restartDone s c).fuses = s.fuses := by simp [State.restartDone]

@[simp] theorem State.quietDone_fuses (s : State) (c) : (State.quietDone s c).fuses = s.fuses := by simp [State.quietDone]

@[simp] theorem State.remoteTimeout_fuses (s : State) (offset) : (State.remoteTimeout s offset).fuses = s.fuses := by simp [State.remoteTimeout]

@[simp] theorem State.refreshEnd_fuses (s : State) (bonded) (unit) (bank) : (State.refreshEnd s bonded unit bank).fuses = s.fuses := by simp [State.refreshEnd]

@[simp] theorem State.readAt_fuses (s : State) (direct) (site) (a) (n) (t) : (State.readAt s direct site a n t).2.fuses = s.fuses := by
  unfold State.readAt; dsimp only; (repeat' split) <;> simp [*]

@[simp] theorem State.writeAt_fuses (s : State) (direct) (site) (a) (bs) (t) : (State.writeAt s direct site a bs t).2.fuses = s.fuses := by
  unfold State.writeAt; dsimp only; (repeat' split) <;> simp [*]

@[simp] theorem State.readBlocks_fuses (s : State) (t) (site) (L) (present) (fmts) (ofs) : (State.readBlocks s t site L present fmts ofs).2.2.fuses = s.fuses := by
  unfold State.readBlocks; dsimp only; (repeat' split) <;> simp [*]

@[simp] theorem State.countBy_fuses (s : State) (layer) (f) : (State.countBy s layer f).fuses = s.fuses := by simp [State.countBy]

@[simp] theorem State.count_fuses (s : State) (layer) (k) (n) : (State.count s layer k n).fuses = s.fuses := by simp [State.count]

@[simp] theorem State.concern_fuses (s : State) (layer) (code) (L) : (State.concern s layer code L).fuses = s.fuses := by simp [State.concern]

@[simp] theorem State.refetch_fuses (s : State) (layer) (L) : (State.refetch s layer L).fuses = s.fuses := by simp [State.refetch]

@[simp] theorem State.settleTile_fuses (s : State) (t) (L) : (State.settleTile s t L).fuses = s.fuses := rfl

@[simp] theorem State.readStreams_fuses (s : State) (t) (site) (L) : (State.readStreams s t site L).2.2.2.fuses = s.fuses := by
  unfold State.readStreams; dsimp only; (repeat' split) <;> simp [*]

@[simp] theorem State.readScaled_fuses (s : State) (t) (site) (L) (written) : (State.readScaled s t site L written).2.2.fuses = s.fuses := by
  unfold State.readScaled; dsimp only; (repeat' split) <;> simp [*]

@[simp] theorem State.readPlain_fuses (s : State) (t) (site) (L) : (State.readPlain s t site L).2.2.fuses = s.fuses := by simp [State.readPlain]

@[simp] theorem State.readTile_fuses (s : State) (t) (site) (L) (written) : (State.readTile s t site L written).2.2.fuses = s.fuses := by
  unfold State.readTile; dsimp only; (repeat' split) <;> simp [*]

@[simp] theorem State.readTiles_fuses (s : State) (t site written ls acc) : (s.readTiles t site written ls acc).2.fuses = s.fuses := by
  induction ls generalizing s acc with
  | nil => rfl
  | cons L ls ih => unfold State.readTiles; dsimp only; split <;> simp [ih]

@[simp] theorem State.putRow_fuses (s : State) (t) (L) (row) (a) (bytes) (parts) : (State.putRow s t L row a bytes parts).fuses = s.fuses := by simp [State.putRow]

@[simp] theorem State.flushRows_fuses (s : State) (site) : (State.flushRows s site).2.fuses = s.fuses := by
  unfold State.flushRows; dsimp only; (repeat' split) <;> simp [*]

@[simp] theorem State.putStreams_fuses (s : State) (t) (site) (L) (b) : (State.putStreams s t site L b).2.fuses = s.fuses := by
  unfold State.putStreams; dsimp only; (repeat' split) <;> simp [*]

@[simp] theorem State.writeStreams_fuses (s : State) (t) (site) (L) (b) : (State.writeStreams s t site L b).2.fuses = s.fuses := by
  unfold State.writeStreams; dsimp only; (repeat' split) <;> simp [*]

@[simp] theorem State.putCodes_fuses (s : State) (t) (L) (row) (col) (codes) : (State.putCodes s t L row col codes).fuses = s.fuses := by
  unfold State.putCodes; dsimp only; (repeat' split) <;> simp [*]

@[simp] theorem State.noteInvalid_fuses (s : State) (layer) (L) (g) : (State.noteInvalid s layer L g).fuses = s.fuses := by simp [State.noteInvalid]

@[simp] theorem State.noteNonfinite_fuses (s : State) (layer) (L) (B) : (State.noteNonfinite s layer L B).fuses = s.fuses := by simp [State.noteNonfinite]

@[simp] theorem State.noteDesync_fuses (s : State) (layer) (L) : (State.noteDesync s layer L).fuses = s.fuses := by simp [State.noteDesync]

@[simp] theorem State.opFail_fuses (s : State) (unit) (f) (layer) (tile) (dests) : (State.opFail s unit f layer tile dests).fuses = s.fuses := by
  simp only [State.opFail]; (repeat' split) <;> simp_all

@[simp] theorem State.raiseNumerics_fuses (s : State) : (State.raiseNumerics s).fuses = s.fuses := by simp [State.raiseNumerics]

@[simp] theorem State.setCore_fuses (s : State) (x) : (State.setCore s x).fuses = s.fuses := by simp [State.setCore]

@[simp] theorem State.setSeq_fuses (s : State) (x) : (State.setSeq s x).fuses = s.fuses := by simp [State.setSeq]

@[simp] theorem State.spanStep_fuses (s : State) (p) : (State.spanStep s p).2.fuses = s.fuses := by
  unfold State.spanStep; dsimp only; (repeat' split) <;> simp [*]

@[simp] theorem State.noteDests_fuses (s : State) (p) (dests) : (State.noteDests s p dests).fuses = s.fuses := by simp [State.noteDests]

@[simp] theorem State.runTiles_fuses (s : State) (i) (f) (h : ∀ s, (f s).fuses = s.fuses) : (State.runTiles s i f).fuses = s.fuses := by
  unfold State.runTiles; dsimp only; (repeat' split) <;> simp [*]

@[simp] theorem State.noteEnd_fuses (t : State) (p) (i) (b : State) : (State.noteEnd t p i b).fuses = t.fuses := by
  unfold State.noteEnd; dsimp only; (repeat' split) <;> simp [*]

@[simp] theorem State.issue_fuses (s : State) (p) (i) (f) (h : ∀ s, (f s).fuses = s.fuses) : (State.issue s p i f).fuses = s.fuses := by
  unfold State.issue; dsimp only; (repeat' split) <;> simp [*]

@[simp] theorem State.resume_fuses (s : State) (body) (h : ∀ i f, body i = some f → ∀ s, (f s).fuses = s.fuses) : (State.resume s body).fuses = s.fuses := by
  unfold State.resume
  refine (foldl_fuses _ _ _ ?_).trans rfl
  intro s i
  cases hb : body i <;> cases opProg i <;> simp
  all_goals exact State.runTiles_fuses _ _ _ (h _ _ hb)

@[simp] theorem State.addToken_fuses (s : State) (die) (t) : (State.addToken s die t).fuses = s.fuses := by simp [State.addToken]

@[simp] theorem State.signalToken_fuses (s : State) (c) (h) (die) (t) (atDone) : (State.signalToken s c h die t atDone).fuses = s.fuses := by
  unfold State.signalToken; dsimp only; (repeat' split) <;> simp [*]

@[simp] theorem State.setBank_fuses (s : State) (c) (b) : (State.setBank s c b).fuses = s.fuses := by simp [State.setBank]

@[simp] theorem State.fileProduct_fuses (s : State) (k) (all) : (State.fileProduct s k all).fuses = s.fuses := by simp [State.fileProduct]

@[simp] theorem State.failProduct_fuses (s : State) (k) (site) (layer) (e) : (State.failProduct s k site layer e).fuses = s.fuses := by simp [State.failProduct]

@[simp] theorem State.product_fuses (s : State) (c) (h) (fpath) (pairs) (a) : (State.product s c h fpath pairs a).fuses = s.fuses := by
  unfold State.product; dsimp only; (repeat' split) <;> simp [*]

@[simp] theorem fMmOp_fuses (c) (h) (a) (s : State) : (fMmOp c h a s).fuses = s.fuses := by simp [fMmOp]

@[simp] theorem bMmIgOp_fuses (c) (h) (a) (s : State) : (bMmIgOp c h a s).fuses = s.fuses := by simp [bMmIgOp]

@[simp] theorem bMmWgOp_fuses (c) (h) (a) (s : State) : (bMmWgOp c h a s).fuses = s.fuses := by simp [bMmWgOp]

@[simp] theorem State.noteStored_fuses (s : State) (a) (n) (inv) : (State.noteStored s a n inv).fuses = s.fuses := by simp [State.noteStored]

@[simp] theorem State.markFinal_fuses (s : State) (t) (L) : (State.markFinal s t L).fuses = s.fuses := by simp [State.markFinal]

@[simp] theorem State.storePlan_fuses (s : State) (p) (r) (off) (bytes) : (State.storePlan s p r off bytes).fuses = s.fuses := by
  unfold State.storePlan; dsimp only; (repeat' split) <;> simp [*]

@[simp] theorem State.storeTracker_fuses (s : State) (key) : (State.storeTracker s key).fuses = s.fuses := by
  unfold State.storeTracker; dsimp only; (repeat' split) <;> simp [*]

@[simp] theorem State.storeTrackers_fuses (s : State) : (State.storeTrackers s).fuses = s.fuses := by simp [State.storeTrackers]

@[simp] theorem State.storeTotals_fuses (s : State) (layer) : (State.storeTotals s layer).fuses = s.fuses := by
  unfold State.storeTotals; (repeat' split) <;> simp [*]

@[simp] theorem State.readScale_fuses (s : State) (site) (t) (row) : (State.readScale s site t row).2.2.fuses = s.fuses := by
  unfold State.readScale; dsimp only; (repeat' split) <;> simp [*]

@[simp] theorem State.writeScale_fuses (s : State) (site) (t) (row) (v) : (State.writeScale s site t row v).2.fuses = s.fuses := by
  unfold State.writeScale; dsimp only; (repeat' split) <;> simp [*]

@[simp] theorem State.prepFor_fuses (s : State) (k) (site) (i) : (State.prepFor s k site i).2.2.fuses = s.fuses := by
  unfold State.prepFor; dsimp only; (repeat' split) <;> simp [*]

@[simp] theorem State.observe_fuses (s : State) (p) (t) (L) (mx) : (State.observe s p t L mx).fuses = s.fuses := by simp [State.observe]

@[simp] theorem State.finalCounts_fuses (s : State) (layer) (o) : (State.finalCounts s layer o).fuses = s.fuses := by simp [State.finalCounts]

@[simp] theorem State.rowStats_fuses (s : State) (k) (L) (tile) : (State.rowStats s k L tile).fuses = s.fuses := by simp [State.rowStats]

@[simp] theorem State.wroteOp_fuses (s : State) (unit) (layer) (L) (dests) (w) : (State.wroteOp s unit layer L dests w).2.fuses = s.fuses := by
  unfold State.wroteOp; (repeat' split) <;> simp [*]

@[simp] theorem eachTile_fuses (f : Nat → State → Bool × State) (l) (s : State) (h : ∀ L s, (f L s).2.fuses = s.fuses) : (eachTile f l s).fuses = s.fuses := by
  induction l generalizing s with
  | nil => rfl
  | cons L ls ih => unfold eachTile; split <;> simp [h, ih]

@[simp] theorem State.endWrites_fuses (s : State) (site) (layer) (L) (dests) : (State.endWrites s site layer L dests).fuses = s.fuses := by simp [State.endWrites]

@[simp] theorem State.emitTile_fuses (s : State) (k) (site) (L) (mx) (o) (slag) (coarse) (clipped) (nonfin) (inv) : (State.emitTile s k site L mx o slag coarse clipped nonfin inv).2.fuses = s.fuses := by
  unfold State.emitTile; dsimp only; split <;> simp

@[simp] theorem State.nonfinite_fuses (s : State) (unit) (layer) (L) (blocks) (n) : (State.nonfinite s unit layer L blocks n).fuses = s.fuses := by
  unfold State.nonfinite; dsimp only; (repeat' split) <;> simp [*]

@[simp] theorem State.keepTile_fuses (s : State) (p) (c) (site) (els) : (State.keepTile s p c site els).fuses = s.fuses := by
  unfold State.keepTile; dsimp only; (repeat' split) <;> simp [*]

@[simp] theorem State.firstAttempt_fuses (s : State) (p) (k) (c) (site) (kind) (L) (cfgIdx) (els) : (State.firstAttempt s p k c site kind L cfgIdx els).2.fuses = s.fuses := by
  unfold State.firstAttempt; dsimp only; simp

@[simp] theorem State.writeNode_fuses (s : State) (direct) (site) (t) (n) (L) (a) (size) (els) : (State.writeNode s direct site t n L a size els).2.fuses = s.fuses := by
  unfold State.writeNode; refine foldl_snd_fuses _ _ _ ?_; intro s r; simp

@[simp] theorem State.putPlain_fuses (s : State) (t) (L) (els) : (State.putPlain s t L els).fuses = s.fuses := by
  unfold State.putPlain; dsimp only; (repeat' split) <;> simp [*]

@[simp] theorem State.noteFed_fuses (s : State) (t) (L) (inv) : (State.noteFed s t L inv).fuses = s.fuses := by simp [State.noteFed]

@[simp] theorem State.emitPlain_fuses (s : State) (p) (k) (site) (L) (els) : (State.emitPlain s p k site L els).2.fuses = s.fuses := by
  unfold State.emitPlain; dsimp only; (repeat' split) <;> simp

@[simp] theorem State.readCodes_fuses (s : State) (site) (n) (tensor) (L) : (State.readCodes s site n tensor L).2.2.fuses = s.fuses := by
  unfold State.readCodes; dsimp only; (repeat' split) <;> simp [*]

@[simp] theorem State.readRes_fuses (s : State) (need) (idx) (site) (L) : (State.readRes s need idx site L).2.2.fuses = s.fuses := by
  unfold State.readRes; dsimp only; (repeat' split) <;> simp [*]

@[simp] theorem State.drainReads_fuses (s : State) (p) (k) (site) (L) : (State.drainReads s p k site L).2.2.2.fuses = s.fuses := by
  unfold State.drainReads; dsimp only; (repeat' split) <;> simp [*]

@[simp] theorem State.tilePreps_fuses (s : State) (k) (site) (L) : (State.tilePreps s k site L).2.2.fuses = s.fuses := by
  unfold State.tilePreps; dsimp only; (repeat' split) <;> simp [*]

@[simp] theorem State.keepScales_fuses (s : State) (k) (site) (preps) : (State.keepScales s k site preps).2.fuses = s.fuses := by
  unfold State.keepScales; refine foldl_snd_fuses _ _ _ ?_; intro s e; split <;> simp

@[simp] theorem State.writeCodes_fuses (s : State) (k) (site) (L) (flat) : (State.writeCodes s k site L flat).2.fuses = s.fuses := by
  unfold State.writeCodes; dsimp only; (repeat' split) <;> simp

@[simp] theorem State.stashXhat_fuses (s : State) (p) (k) (c) (site) (cfgIdx) (L) (x) : (State.stashXhat s p k c site cfgIdx L x).2.fuses = s.fuses := by
  unfold State.stashXhat; extract_lets; (repeat' split) <;> simp [*]

@[simp] theorem State.drainTile_fuses (s : State) (p) (k) (c) (site) (cfgIdx) (L) (root) : (State.drainTile s p k c site cfgIdx L root).2.fuses = s.fuses := by
  unfold State.drainTile; dsimp only; (repeat' split) <;> simp

@[simp] theorem State.drainPairs_fuses (s : State) (p) (k) (site) (layer) (L) (root) : (State.drainPairs s p k site layer L root).2.fuses = s.fuses := by
  unfold State.drainPairs; dsimp only; (repeat' split) <;> simp [*]

@[simp] theorem State.drain_fuses (s : State) (c) (h) (engine) (bank) (first) (tiles) : (State.drain s c h engine bank first tiles).fuses = s.fuses := by
  unfold State.drain; dsimp only; (repeat' split) <;> simp [*]

@[simp] theorem State.convertOp_fuses (s : State) (c) (h) (tensor) (first) (tiles) : (State.convertOp s c h tensor first tiles).fuses = s.fuses := by
  unfold State.convertOp; dsimp only; (repeat' split) <;> simp

@[simp] theorem State.recomputeTile_fuses (s : State) (c) (r) : (State.recomputeTile s c r).fuses = s.fuses := by
  unfold State.recomputeTile; dsimp only; (repeat' split) <;> simp

@[simp] theorem State.recomputeNext_fuses (s : State) (c) : (State.recomputeNext s c).fuses = s.fuses := by
  unfold State.recomputeNext; dsimp only; (repeat' split) <;> simp [*]

@[simp] theorem State.budgetMiss_fuses (s : State) (c) (r) : (State.budgetMiss s c r).fuses = s.fuses := by
  unfold State.budgetMiss; dsimp only; (repeat' split) <;> simp [*]

@[simp] theorem State.closeCore_fuses (s : State) (c) : (State.closeCore s c).fuses = s.fuses := by simp [State.closeCore]

@[simp] theorem drainCfgOp_fuses (c) (h) (cfg) (s : State) : (drainCfgOp c h cfg s).fuses = s.fuses := by simp [drainCfgOp]

@[simp] theorem drainOp_fuses (c) (h) (engine) (bank) (first) (tiles) (s : State) : (drainOp c h engine bank first tiles s).fuses = s.fuses := by simp [drainOp]

@[simp] theorem convertTilesOp_fuses (c) (h) (tensor) (first) (tiles) (s : State) : (convertTilesOp c h tensor first tiles s).fuses = s.fuses := by simp [convertTilesOp]

@[simp] theorem tileRecomputeOp_fuses (c) (s : State) : (tileRecomputeOp c s).fuses = s.fuses := by simp [tileRecomputeOp]

@[simp] theorem State.putTile_fuses (s : State) (t) (site) (snoop) (L) (d) (inv) : (State.putTile s t site snoop L d inv).2.fuses = s.fuses := by
  unfold State.putTile; dsimp only; (repeat' split) <;> simp [*]

@[simp] theorem State.endMove_fuses (s : State) (site) (snoop) (layer) (L) (dests) : (State.endMove s site snoop layer L dests).fuses = s.fuses := by simp [State.endMove]

@[simp] theorem State.moveTiles_fuses (s : State) (c) (h) (a) (src) (dst) : (State.moveTiles s c h a src dst).fuses = s.fuses := by
  unfold State.moveTiles; dsimp only; (repeat' split) <;> simp

@[simp] theorem stashPutOp_fuses (c) (h) (a) (s : State) : (stashPutOp c h a s).fuses = s.fuses := by simp [stashPutOp]

@[simp] theorem stashGetOp_fuses (c) (h) (a) (s : State) : (stashGetOp c h a s).fuses = s.fuses := by simp [stashGetOp]

@[simp] theorem spillOp_fuses (c) (h) (a) (read) (s : State) : (spillOp c h a read s).fuses = s.fuses := by simp [spillOp]

@[simp] theorem State.readNode_fuses (s : State) (site) (pairs) (t) (n) (L) (a) (direct) : (State.readNode s site pairs t n L a direct).2.2.fuses = s.fuses := by
  unfold State.readNode; dsimp only; (repeat' split) <;> simp [*]

@[simp] theorem State.readNodes_fuses (s : State) (site) (pairs) (t) (L0) (a) (tiles) (direct) : (State.readNodes s site pairs t L0 a tiles direct).2.2.fuses = s.fuses := by
  unfold State.readNodes; dsimp only; (repeat' split) <;> simp [*]

@[simp] theorem State.noteRoot_fuses (s : State) (e) (site) : (State.noteRoot s e site).fuses = s.fuses := by
  unfold State.noteRoot; (repeat' split) <;> simp [*]

@[simp] theorem State.writeParent_fuses (s : State) (e) (site) (a) (b) (bad) (inv) : (State.writeParent s e site a b bad inv).fuses = s.fuses := by simp [State.writeParent]

@[simp] theorem State.nodeAdd_fuses (s : State) (c) (h) (entry) : (State.nodeAdd s c h entry).fuses = s.fuses := by
  unfold State.nodeAdd; dsimp only; (repeat' split) <;> simp [*]

@[simp] theorem nodeAddOp_fuses (c) (h) (entry) (s : State) : (nodeAddOp c h entry s).fuses = s.fuses := by simp [nodeAddOp]

@[simp] theorem State.linkReduce_fuses (s : State) (c) (h) (entry) : (State.linkReduce s c h entry).fuses = s.fuses := by
  unfold State.linkReduce; dsimp only; (repeat' split) <;> simp [*]

@[simp] theorem linkReduceOp_fuses (c) (h) (entry) (s : State) : (linkReduceOp c h entry s).fuses = s.fuses := by simp [linkReduceOp]

@[simp] theorem State.arriveTile_fuses (s : State) (far) (t) (L) (d) : (State.arriveTile s far t L d).fuses = s.fuses := by
  unfold State.arriveTile; dsimp only; (repeat' split) <;> simp [*]

@[simp] theorem State.arriveNode_fuses (s : State) (far) (pairs) (t) (L0) (tiles) : (State.arriveNode s far pairs t L0 tiles).fuses = s.fuses := by
  unfold State.arriveNode; dsimp only; (repeat' split) <;> simp [*]

@[simp] theorem State.keepStream_fuses (s : State) (l) : (State.keepStream s l).fuses = s.fuses := by simp [State.keepStream]

@[simp] theorem State.sendNode_fuses (s : State) (site) (far) (tensor) (first) (tiles) (e) (dests) : (State.sendNode s site far tensor first tiles e dests).fuses = s.fuses := by
  unfold State.sendNode; dsimp only; (repeat' split) <;> simp [*]

@[simp] theorem State.sendTiles_fuses (s : State) (site) (far) (tensor) (first) (tiles) (dests) : (State.sendTiles s site far tensor first tiles dests).fuses = s.fuses := by
  unfold State.sendTiles; dsimp only; (repeat' split) <;> simp [*]

@[simp] theorem State.linkSend_fuses (s : State) (c) (h) (linkEnd) (tensor) (first) (tiles) : (State.linkSend s c h linkEnd tensor first tiles).fuses = s.fuses := by
  unfold State.linkSend; dsimp only; (repeat' split) <;> simp [*]

@[simp] theorem State.runReduces_fuses (s : State) : s.runReduces.fuses = s.fuses := by
  refine State.resume_fuses _ _ fun i f h s => ?_; split at h <;> simp at h <;> subst h <;> simp

@[simp] theorem linkSendOp_fuses (c) (h) (linkEnd) (tensor) (first) (tiles) (s : State) : (linkSendOp c h linkEnd tensor first tiles s).fuses = s.fuses := by simp [linkSendOp]

@[simp] theorem tokenWaitOp_fuses (c) (h) (token) (count) (s : State) : (tokenWaitOp c h token count s).fuses = s.fuses := by simp [tokenWaitOp]

@[simp] theorem State.waitEnds_fuses (s : State) (c) : (State.waitEnds s c).fuses = s.fuses := by
  unfold State.waitEnds; dsimp only; (repeat' split) <;> simp [*]

@[simp] theorem tokenWaitTimeoutOp_fuses (c) (s : State) : (tokenWaitTimeoutOp c s).fuses = s.fuses := by simp [tokenWaitTimeoutOp]

@[simp] theorem tokenSignalOp_fuses (c) (h) (die) (token) (atDone) (s : State) : (tokenSignalOp c h die token atDone s).fuses = s.fuses := by simp [tokenSignalOp]

@[simp] theorem tokenArrivalOp_fuses (die) (token) (s : State) : (tokenArrivalOp die token s).fuses = s.fuses := by
  simp only [tokenArrivalOp]; (repeat' split) <;> simp_all

@[simp] theorem recomputeAltOp_fuses (c) (h) (flag) (mask) (count) (s : State) : (recomputeAltOp c h flag mask count s).fuses = s.fuses := by simp [recomputeAltOp]

@[simp] theorem State.urgentPoint_fuses (s : State) : (State.urgentPoint s).fuses = s.fuses := by
  unfold State.urgentPoint; dsimp only; (repeat' split) <;> simp [*]

@[simp] theorem suspendPointOp_fuses (c) (h) (point) (s : State) : (suspendPointOp c h point s).fuses = s.fuses := by simp [suspendPointOp]

@[simp] theorem loopOp_fuses (p) (x1) (outer) (count) (increment) (s : State) : (loopOp p x1 outer count increment s).fuses = s.fuses := by simp [loopOp]

@[simp] theorem endloopOp_fuses (p) (s : State) : (endloopOp p s).fuses = s.fuses := by
  unfold endloopOp; dsimp only; (repeat' split) <;> simp [*]

@[simp] theorem opAbandonOp_fuses (p) (d) (hostError) (s : State) : (opAbandonOp p d hostError s).fuses = s.fuses := by
  unfold opAbandonOp; dsimp only; (repeat' split) <;> simp [*]

@[simp] theorem State.wroteUpdate_fuses (s : State) (site) (t) (L) (w) : (State.wroteUpdate s site t L w).fuses = s.fuses := by simp [State.wroteUpdate]

@[simp] theorem State.readParam_fuses (s : State) (md) (t) (n) (r) (moments) (k) : (State.readParam s md t n r moments k).2.fuses = s.fuses := by
  unfold State.readParam; dsimp only; (repeat' split) <;> simp [*]

@[simp] theorem State.lateCount_fuses (s : State) (layer) (k) (code) (n) (L) : (State.lateCount s layer k code n L).fuses = s.fuses := by simp [State.lateCount]

@[simp] theorem State.lateNonfinite_fuses (s : State) (unit) (layer) (L) (blocks) (n) : (State.lateNonfinite s unit layer L blocks n).fuses = s.fuses := by
  unfold State.lateNonfinite; dsimp only; (repeat' split) <;> simp [*]

@[simp] theorem State.updateParam_fuses (s : State) (p) (u) (layer) (pass) (num) (t) (n) (k) : (State.updateParam s p u layer pass num t n k).fuses = s.fuses := by
  unfold State.updateParam; split <;> simp

@[simp] theorem State.sendMaster_fuses (s : State) (md) (t) (n) (k) (r) : (State.sendMaster s md t n k r).fuses = s.fuses := by
  unfold State.sendMaster; dsimp only; (repeat' split) <;> simp [*]

@[simp] theorem State.putColSums_fuses (s : State) (t) (n) (L) (o) : (State.putColSums s t n L o).fuses = s.fuses := by simp [State.putColSums]

@[simp] theorem State.requantise_fuses (s : State) (p) (u) (layer) (t) (L) : (State.requantise s p u layer t L).fuses = s.fuses := by
  unfold State.requantise; dsimp only; (repeat' split) <;> simp [*]

@[simp] theorem State.forwardCopy_fuses (s : State) (p) (u) (layer) (first) (count) (e) : (State.forwardCopy s p u layer first count e).fuses = s.fuses := by
  unfold State.forwardCopy; dsimp only; split
  · exact foldl_fuses _ _ _ fun _ _ => by split <;> rfl
  · split <;> simp

@[simp] theorem State.masterWork_fuses (s : State) (p) (u) (layer) (pass) (step) (first) (count) : (State.masterWork s p u layer pass step first count).fuses = s.fuses := by
  unfold State.masterWork; refine foldl_fuses _ _ _ ?_; intro s i; dsimp only; (repeat' split) <;> simp

@[simp] theorem State.updateBody_fuses (s : State) (u h a) : (s.updateBody u h a).fuses = s.fuses := by
  unfold State.updateBody; dsimp only; (repeat' split) <;> simp [*]

@[simp] theorem State.runSends_fuses (s : State) : (State.runSends s).fuses = s.fuses := by
  refine State.resume_fuses _ _ fun i f h s => ?_; split at h <;> simp at h; obtain ⟨-, rfl⟩ := h; simp

@[simp] theorem updateOp_fuses (u) (h) (a) (s : State) : (updateOp u h a s).fuses = s.fuses := by simp [updateOp]

@[simp] theorem State.settled_fuses (s : State) : (State.settled s).fuses = s.fuses := by simp [State.settled]

@[simp] theorem State.copyRange_fuses (s : State) (src) (dst) (n) : (State.copyRange s src dst n).fuses = s.fuses := by simp [State.copyRange]

@[simp] theorem State.moveStores_fuses (s : State) (old) (new) : (State.moveStores s old new).fuses = s.fuses := by simp [State.moveStores]

@[simp] theorem State.replacePattern_fuses (s : State) : (State.replacePattern s).fuses = s.fuses := by
  unfold State.replacePattern; dsimp only; (repeat' split) <;> simp [*]

@[simp] theorem State.checkRiser_fuses (s : State) (p) (r) : (State.checkRiser s p r).fuses = s.fuses := by simp [State.checkRiser]

@[simp] theorem State.riserCheck_fuses (s : State) : (State.riserCheck s).fuses = s.fuses := by
  simp only [State.riserCheck]; (repeat' split) <;> simp_all

@[simp] theorem State.retireFrame_fuses (s : State) (f) : (State.retireFrame s f).fuses = s.fuses := by
  unfold State.retireFrame; dsimp only; (repeat' split) <;> simp [*]

@[simp] theorem State.retireFrames_fuses (s : State) (l) : (State.retireFrames s l).fuses = s.fuses := by simp [State.retireFrames]

@[simp] theorem State.settleFrames_fuses (s : State) : (State.settleFrames s).fuses = s.fuses := by simp [State.settleFrames]

@[simp] theorem State.settle_fuses (s : State) : (State.settle s).fuses = s.fuses := by simp [State.settle]

@[simp] theorem State.leaveFleet_fuses (s : State) : (State.leaveFleet s).fuses = s.fuses := by simp [State.leaveFleet]

@[simp] theorem State.restartController_fuses (s : State) : (State.restartController s).fuses = s.fuses := by simp [State.restartController]

@[simp] theorem State.unmapAll_fuses (s : State) : (State.unmapAll s).fuses = s.fuses := by simp [State.unmapAll]

@[simp] theorem State.install_fuses (s : State) (p) (frames) (reset) : (State.install s p frames reset).fuses = s.fuses := by simp [State.install]

@[simp] theorem State.auditLoad_fuses (s : State) (role) (st) (key) (hash) : (State.auditLoad s role st key hash).fuses = s.fuses := by simp [State.auditLoad]

@[simp] theorem State.imageRead_fuses (s : State) (o) (len) (role) (reset) (bs) : (State.imageRead s o len role reset bs).fuses = s.fuses := by
  unfold State.imageRead; dsimp only; (repeat' split) <;> simp [*]

@[simp] theorem State.readRun_fuses (s : State) (site) (va) (n) : (State.readRun s site va n).2.2.fuses = s.fuses := by simp [State.readRun]

@[simp] theorem State.readBlock_fuses (s : State) (site opc a b perm m) : (s.readBlock site opc a b perm m).2.fuses = s.fuses := by
  unfold State.readBlock; refine foldl_snd_fuses _ _ _ ?_; intro s g; dsimp only; split <;> simp

@[simp] theorem State.dataOfsAt_fuses (s : State) (site) (t) (L) : (State.dataOfsAt s site t L).2.fuses = s.fuses := by
  unfold State.dataOfsAt; dsimp only; (repeat' split) <;> simp [*]

@[simp] theorem State.zeroRuns_fuses (s : State) (site) (t) (L) : (State.zeroRuns s site t L).2.fuses = s.fuses := by simp [State.zeroRuns]

@[simp] theorem State.readTwice_fuses (s : State) (x) (site) (L) : (State.readTwice s x site L).2.2.2.fuses = s.fuses := by
  unfold State.readTwice; dsimp only; (repeat' split) <;> simp [*]

@[simp] theorem State.readTileMove_fuses (s : State) (site) (x) (y) (opc) (perm) (m) : (State.readTileMove s site x y opc perm m).2.fuses = s.fuses := by
  unfold State.readTileMove; dsimp only; (repeat' split) <;> simp [*]

@[simp] theorem State.fillTile_fuses (s : State) (site) (a) (t) (L) : (State.fillTile s site a t L).2.fuses = s.fuses := by simp [State.fillTile]

@[simp] theorem State.fillUnit_fuses (s : State) (site) (a) (t) (e) : (State.fillUnit s site a t e).2.fuses = s.fuses := by
  simp only [State.fillUnit]; (repeat' split) <;> simp_all

@[simp] theorem State.askList_fuses (s : State) (o) (c) : (State.askList s o c).fuses = s.fuses := by simp [State.askList]

@[simp] theorem State.takeLadle_fuses (s : State) (o) (l) (body) : (State.takeLadle s o l body).fuses = s.fuses := by simp [State.takeLadle]

@[simp] theorem State.copyAccept_fuses (s : State) (o) (c) : (State.copyAccept s o c).fuses = s.fuses := by
  unfold State.copyAccept; dsimp only; (repeat' split) <;> simp [*]

@[simp] theorem State.scatterLadle_fuses (s : State) (o) (c) : (State.scatterLadle s o c).fuses = s.fuses := by
  unfold State.scatterLadle; dsimp only; (repeat' split) <;> simp [*]

@[simp] theorem State.fillAccept_fuses (s : State) (o) (f) : (State.fillAccept s o f).fuses = s.fuses := by
  unfold State.fillAccept; dsimp only; (repeat' split) <;> simp [*]

@[simp] theorem State.doPuts_fuses (s : State) (o) (l) (puts) : (State.doPuts s o l puts).2.2.fuses = s.fuses := by
  unfold State.doPuts; refine (foldl_thd_fuses _ _ _ ?_).trans rfl; intro s w; dsimp only
  refine (foldl_fuses _ _ _ ?_).trans (by simp); intro s x; split <;> simp

@[simp] theorem State.postSuspended_fuses (s : State) (c) (opc) (sqHead) : (State.postSuspended s c opc sqHead).fuses = s.fuses := by simp [State.postSuspended]

@[simp] theorem State.chunkBoundary_fuses (s : State) (o) (done) : (State.chunkBoundary s o done).fuses = s.fuses := by
  simp only [State.chunkBoundary]; (repeat' split) <;> simp_all

@[simp] theorem State.deviceList_fuses (s : State) (site) (c) (n) : (State.deviceList s site c n).2.2.fuses = s.fuses := by simp [State.deviceList]

@[simp] theorem State.readChunk_fuses (s : State) (o c n entries) : (s.readChunk o c n entries).2.fuses = s.fuses := by
  unfold State.readChunk; refine (foldl_snd_fuses _ _ _ ?_).trans rfl; intro s i; dsimp only; (repeat' split) <;> simp

@[simp] theorem State.waitLines_fuses (s : State) (o) (lines) : (State.waitLines s o lines).fuses = s.fuses := by simp [State.waitLines]

@[simp] theorem State.chunkHalf_fuses (s : State) (o) (c) (n) : (State.chunkHalf s o c n).2.fuses = s.fuses := by
  unfold State.chunkHalf; dsimp only; (repeat' split) <;> simp [*]

@[simp] theorem State.askLeaves_fuses (s : State) (o) (miss) : (State.askLeaves s o miss).fuses = s.fuses := by simp [State.askLeaves]

@[simp] theorem State.chunkEnds_fuses (s : State) (o) : (State.chunkEnds s o).fuses = s.fuses := by
  unfold State.chunkEnds; dsimp only; (repeat' split) <;> simp [*]

@[simp] theorem State.writeChunk_fuses (s : State) (o) (c) (n) (r) (stop) : (State.writeChunk s o c n r stop).fuses = s.fuses := by simp [State.writeChunk]

@[simp] theorem State.copyChunk_fuses (s : State) (o) (c) : (State.copyChunk s o c).fuses = s.fuses := by simp [State.copyChunk]

@[simp] theorem State.fillChunk_fuses (s : State) (o) (f) : (State.fillChunk s o f).fuses = s.fuses := by
  unfold State.fillChunk; dsimp only; (repeat' split) <;> simp [*]

@[simp] theorem copyChunkOp_fuses (ring) (tag) (s : State) : (copyChunkOp ring tag s).fuses = s.fuses := by
  simp only [copyChunkOp]; (repeat' split) <;> simp_all

@[simp] theorem State.skimWord_fuses (s : State) (k) (a) : (State.skimWord s k a).2.fuses = s.fuses := by
  unfold State.skimWord; dsimp only; (repeat' split) <;> simp [*]

@[simp] theorem State.skimRange_fuses (s : State) (k) (a) (n) : (State.skimRange s k a n).2.fuses = s.fuses := by
  unfold State.skimRange; dsimp only; refine (foldl_snd_fuses _ _ _ fun _ _ => by simp).trans ?_; exact foldl_fuses _ _ _ fun _ _ => by simp

@[simp] theorem skimChunkOp_fuses (ring) (tag) (s : State) : (skimChunkOp ring tag s).fuses = s.fuses := by
  unfold skimChunkOp; dsimp only; (repeat' split) <;> simp [*]

@[simp] theorem State.skimEnds_fuses (s : State) (o) (k) : (State.skimEnds s o k).fuses = s.fuses := by simp [State.skimEnds]

@[simp] theorem State.skimStart_fuses (s : State) (o) (base) (len) (summary) : (State.skimStart s o base len summary).fuses = s.fuses := by simp [State.skimStart]

@[simp] theorem State.setChans_fuses (s : State) (e) : (State.setChans s e).fuses = s.fuses := by
  unfold State.setChans; dsimp only; (repeat' split) <;> simp [*]

@[simp] theorem State.setExp_fuses (s : State) (e) : (State.setExp s e).fuses = s.fuses := by
  unfold State.setExp; dsimp only; (repeat' split) <;> simp [*]

@[simp] theorem State.readHeld_fuses (s : State) (direct) (a) (n) (t) : (State.readHeld s direct a n t).2.fuses = s.fuses := by
  unfold State.readHeld; dsimp only; (repeat' split) <;> simp [*]

@[simp] theorem State.saveCopy_fuses (s : State) (x) : (State.saveCopy s x).2.fuses = s.fuses := by
  unfold State.saveCopy; dsimp only; (repeat' split) <;> simp [*]

@[simp] theorem State.saveMaster_fuses (s : State) (p) (e) : (State.saveMaster s p e).2.fuses = s.fuses := by
  unfold State.saveMaster; (repeat' split) <;> simp [*]

@[simp] theorem State.saveResiduals_fuses (s : State) (m) (e) : (State.saveResiduals s m e).2.fuses = s.fuses := by simp [State.saveResiduals]

@[simp] theorem State.saveSection_fuses (s : State) (p) (e) : (State.saveSection s p e).2.fuses = s.fuses := by
  unfold State.saveSection; dsimp only; (repeat' split) <;> simp [*]

@[simp] theorem State.contextImage_fuses (s : State) (p) : (State.contextImage s p).2.fuses = s.fuses := by simp [State.contextImage]

@[simp] theorem State.restoreCopy_fuses (s : State) (x) (b) : (State.restoreCopy s x b).fuses = s.fuses := by simp [State.restoreCopy]

@[simp] theorem State.restoreResiduals_fuses (s : State) (m) (e) (b) : (State.restoreResiduals s m e b).fuses = s.fuses := by simp [State.restoreResiduals]

@[simp] theorem State.restoreEst_fuses (s : State) (p) (e) (b) : (State.restoreEst s p e b).fuses = s.fuses := by
  unfold State.restoreEst; dsimp only; (repeat' split) <;> simp [*]

@[simp] theorem State.restoreSection_fuses (s : State) (p) (e) (b) : (State.restoreSection s p e b).fuses = s.fuses := by
  unfold State.restoreSection; dsimp only; (repeat' split) <;> simp [*]

@[simp] theorem State.restoreImage_fuses (s : State) (o) (p) (b) (bad) : (State.restoreImage s o p b bad).fuses = s.fuses := by
  unfold State.restoreImage; dsimp only
  (repeat' split) <;> simp
  all_goals refine (foldl_snd_fuses _ _ _ ?_).trans rfl; intro s i; (repeat' split) <;> simp

@[simp] theorem State.saveStart_fuses (s : State) (o) (area) (len) (host) : (State.saveStart s o area len host).fuses = s.fuses := by
  unfold State.saveStart; dsimp only; (repeat' split) <;> simp [*]

@[simp] theorem State.restoreStart_fuses (s : State) (o) (area) (len) (host) : (State.restoreStart s o area len host).fuses = s.fuses := by simp [State.restoreStart]

@[simp] theorem contextTransferOp_fuses (ring) (tag) (s : State) : (contextTransferOp ring tag s).fuses = s.fuses := by
  unfold contextTransferOp; dsimp only; (repeat' split) <;> simp [*]

@[simp] theorem State.clearRange_fuses (s : State) (a) (n) : (State.clearRange s a n).fuses = s.fuses := by simp [State.clearRange]

@[simp] theorem State.joinTable_fuses (s : State) (c) (a) (sqHead) (b) : (State.joinTable s c a sqHead b).fuses = s.fuses := by
  unfold State.joinTable; dsimp only; (repeat' split) <;> simp [*]

@[simp] theorem State.joinStart_fuses (s : State) (c) (a) (sqHead) : (State.joinStart s c a sqHead).fuses = s.fuses := by simp [State.joinStart]

@[simp] theorem State.leave_fuses (s : State) : (State.leave s).fuses = s.fuses := by simp [State.leave]

@[simp] theorem State.setExch_fuses (s : State) (f) : (State.setExch s f).fuses = s.fuses := by simp [State.setExch]

@[simp] theorem State.losePeer_fuses (s : State) (m) (rank) (reason) (heat) : (State.losePeer s m rank reason heat).fuses = s.fuses := by simp [State.losePeer]

@[simp] theorem State.sendPeer_fuses (s : State) (m) (rank) (ofs) (tensor) (b) : (State.sendPeer s m rank ofs tensor b).fuses = s.fuses := by simp [State.sendPeer]

@[simp] theorem State.sendMsg_fuses (s : State) (m) (ofs) (h) (payload) : (State.sendMsg s m ofs h payload).fuses = s.fuses := by
  unfold State.sendMsg; dsimp only; (repeat' split) <;> simp [*]

@[simp] theorem State.readPairs_fuses (s : State) (tensor) (n) (L) : (State.readPairs s tensor n L).2.2.fuses = s.fuses := by
  unfold State.readPairs; dsimp only; (repeat' split) <;> simp [*]

@[simp] theorem State.writePairs_fuses (s : State) (tensor) (n) (L) (vals) : (State.writePairs s tensor n L vals).fuses = s.fuses := by
  simp only [State.writePairs]; (repeat' split) <;> simp_all

@[simp] theorem State.readRes32_fuses (s : State) (m) (half) (tensor) (L) (count) : (State.readRes32 s m half tensor L count).2.fuses = s.fuses := by simp [State.readRes32]

@[simp] theorem State.writeRes32_fuses (s : State) (m) (half) (tensor) (L) (l) : (State.writeRes32 s m half tensor L l).fuses = s.fuses := by simp [State.writeRes32]

@[simp] theorem State.wireNonfinite_fuses (s : State) (layer) (wire) (L) (n) (vals) : (State.wireNonfinite s layer wire L n vals).fuses = s.fuses := by
  unfold State.wireNonfinite; generalize List.filter _ _ = l; cases l <;> simp

@[simp] theorem State.uplinkTile_fuses (s : State) (m) (tensor) (d) (L) : (State.uplinkTile s m tensor d L).fuses = s.fuses := by simp [State.uplinkTile]

@[simp] theorem fleetUplinkOp_fuses (tensor) (s : State) : (fleetUplinkOp tensor s).fuses = s.fuses := by
  unfold fleetUplinkOp; dsimp only; (repeat' split) <;> simp [*]

@[simp] theorem fleetReduceOp_fuses (t) (s : State) : (fleetReduceOp t s).fuses = s.fuses := by
  unfold fleetReduceOp; dsimp only; (repeat' split) <;> simp [*]

@[simp] theorem State.wireDesync_fuses (s : State) (layer) (L) : (State.wireDesync s layer L).fuses = s.fuses := by simp [State.wireDesync]

@[simp] theorem State.acceptUp_fuses (s : State) (m) (h) (d) (t) (b) : (State.acceptUp s m h d t b).fuses = s.fuses := by simp [State.acceptUp]

@[simp] theorem State.acceptDown_fuses (s : State) (m) (h) (d) (t) (b) : (State.acceptDown s m h d t b).fuses = s.fuses := by simp [State.acceptDown]

@[simp] theorem State.acceptMsg_fuses (s : State) (m) (h) (b) : (State.acceptMsg s m h b).fuses = s.fuses := by
  simp only [State.acceptMsg]; (repeat' split) <;> simp_all

@[simp] theorem fleetAcceptOp_fuses (offset) (message) (s : State) : (fleetAcceptOp offset message s).fuses = s.fuses := by
  unfold fleetAcceptOp; dsimp only; (repeat' split) <;> simp [*]

@[simp] theorem State.freezeWord_fuses (s : State) (m) : (State.freezeWord s m).fuses = s.fuses := by simp [State.freezeWord]

@[simp] theorem fleetFreezeOp_fuses (s : State) : (fleetFreezeOp s).fuses = s.fuses := by
  simp only [fleetFreezeOp]; (repeat' split) <;> simp_all

@[simp] theorem fleetDeadlineOp_fuses (s : State) : (fleetDeadlineOp s).fuses = s.fuses := by
  unfold fleetDeadlineOp; dsimp only; (repeat' split) <;> simp [*]

@[simp] theorem fleetVerdictOp_fuses (s : State) : (fleetVerdictOp s).fuses = s.fuses := by
  unfold fleetVerdictOp; dsimp only; (repeat' split) <;> simp [*]

@[simp] theorem fleetWriteFailedOp_fuses (rank) (s : State) : (fleetWriteFailedOp rank s).fuses = s.fuses := by
  simp only [fleetWriteFailedOp]; (repeat' split) <;> simp_all

@[simp] theorem State.beginExchange_fuses (s : State) : (State.beginExchange s).fuses = s.fuses := by
  unfold State.beginExchange; dsimp only; (repeat' split) <;> simp [*]

@[simp] theorem State.flipHalf_fuses (s : State) : (State.flipHalf s).fuses = s.fuses := by simp [State.flipHalf]

@[simp] theorem State.setJob_fuses (s : State) (f) : (State.setJob s f).fuses = s.fuses := by simp [State.setJob]

@[simp] theorem State.openAdmit_fuses (s : State) : (State.openAdmit s).fuses = s.fuses := by
  unfold State.openAdmit; dsimp only; (repeat' split) <;> simp [*]

@[simp] theorem State.commitDue_fuses (s : State) (b) : (State.commitDue s b).fuses = s.fuses := by simp [State.commitDue]

@[simp] theorem State.clearLate_fuses (s : State) : (State.clearLate s).fuses = s.fuses := by simp [State.clearLate]

@[simp] theorem State.putWords_fuses (s : State) (l b) : (State.putWords s l b).fuses = s.fuses := by
  induction l generalizing s b with
  | nil => rfl
  | cons r rs ih => unfold State.putWords; split <;> simp [ih]

@[simp] theorem State.movePartial_fuses (s : State) (v) (back) : (State.movePartial s v back).fuses = s.fuses := by
  simp only [State.movePartial]; (repeat' split) <;> simp_all

@[simp] theorem State.suspendedRecord_fuses (s : State) : (State.suspendedRecord s).fuses = s.fuses := by
  simp only [State.suspendedRecord]; (repeat' split) <;> simp_all

@[simp] theorem State.suspendPartial_fuses (s : State) (next) : (State.suspendPartial s next).fuses = s.fuses := by simp [State.suspendPartial]

@[simp] theorem State.suspendWhole_fuses (s : State) : (State.suspendWhole s).fuses = s.fuses := by simp [State.suspendWhole]

@[simp] theorem State.resumePartial_fuses (s : State) (v) : (State.resumePartial s v).fuses = s.fuses := by simp [State.resumePartial]

@[simp] theorem State.admitNext_fuses (s : State) : (State.admitNext s).fuses = s.fuses := by
  simp only [State.admitNext]; (repeat' split) <;> simp_all

@[simp] theorem State.heatBoundary_fuses (s : State) : (State.heatBoundary s).fuses = s.fuses := by simp [State.heatBoundary]

@[simp] theorem State.startTick_fuses (s : State) : (State.startTick s).fuses = s.fuses := by
  simp only [State.startTick]; (repeat' split) <;> simp_all

@[simp] theorem State.setSync_fuses (s : State) (f) : (State.setSync s f).fuses = s.fuses := by simp [State.setSync]

@[simp] theorem State.driveSync_fuses (s : State) (b) : (State.driveSync s b).fuses = s.fuses := by simp [State.driveSync]

@[simp] theorem State.syncEffect_fuses (s : State) : (State.syncEffect s).fuses = s.fuses := by simp [State.syncEffect]

@[simp] theorem State.syncEffects_fuses (s : State) (k : Nat) : (s.syncEffects k).fuses = s.fuses := by
  induction k generalizing s with
  | zero => rfl
  | succ k ih => simp [State.syncEffects, ih]

@[simp] theorem State.tickEdges_fuses (s : State) : (State.tickEdges s).fuses = s.fuses := by simp [State.tickEdges]

@[simp] theorem syncInEdgeOp_fuses (level) (acBefore) (s : State) : (syncInEdgeOp level acBefore s).fuses = s.fuses := by simp [syncInEdgeOp]

@[simp] theorem State.limitReached_fuses (s : State) : (State.limitReached s).fuses = s.fuses := by simp [State.limitReached]

@[simp] theorem syncExpiryOp_fuses (s : State) : (syncExpiryOp s).fuses = s.fuses := by simp [syncExpiryOp]

@[simp] theorem masterPulseOp_fuses (s : State) : (masterPulseOp s).fuses = s.fuses := by simp [masterPulseOp]

@[simp] theorem State.followerTick_fuses (s : State) : (State.followerTick s).fuses = s.fuses := by simp [State.followerTick]

@[simp] theorem State.masterTick_fuses (s : State) : (State.masterTick s).fuses = s.fuses := by simp [State.masterTick]

@[simp] theorem State.doneTick_fuses (s : State) : (State.doneTick s).fuses = s.fuses := by
  simp only [State.doneTick]; (repeat' split) <;> simp_all

@[simp] theorem State.workDone_fuses (s : State) : (State.workDone s).fuses = s.fuses := by simp [State.workDone]

@[simp] theorem State.waitTick_fuses (s : State) : (State.waitTick s).fuses = s.fuses := by simp [State.waitTick]

@[simp] theorem State.sampleLevel_fuses (s : State) : (State.sampleLevel s).fuses = s.fuses := by simp [State.sampleLevel]

@[simp] theorem State.fixWord_fuses (s : State) : (State.fixWord s).fuses = s.fuses := by simp [State.fixWord]

@[simp] theorem verdictFixOp_fuses (s : State) : (verdictFixOp s).fuses = s.fuses := by simp [verdictFixOp]

@[simp] theorem State.openPour_fuses (s : State) (w) : (State.openPour s w).fuses = s.fuses := by
  unfold State.openPour; dsimp only; (repeat' split) <;> simp [*]

@[simp] theorem pourOp_fuses (s : State) : (pourOp s).fuses = s.fuses := by
  unfold pourOp; dsimp only; (repeat' split) <;> simp [*]

@[simp] theorem State.foldTrackers_fuses (s : State) : (State.foldTrackers s).fuses = s.fuses := by
  unfold State.foldTrackers; dsimp only; (repeat' split) <;> simp [*]

@[simp] theorem State.completeFences_fuses (s : State) : (State.completeFences s).fuses = s.fuses := by simp [State.completeFences]

@[simp] theorem State.applyWrites_fuses (s : State) : (State.applyWrites s).fuses = s.fuses := by
  unfold State.applyWrites; dsimp only; (repeat' split) <;> simp [*]

@[simp] theorem State.pourApply_fuses (s : State) (commit) : (State.pourApply s commit).fuses = s.fuses := by
  unfold State.pourApply; dsimp only; (repeat' split) <;> simp [*]

@[simp] theorem State.pourAdvance_fuses (s : State) (j) : (State.pourAdvance s j).fuses = s.fuses := by simp [State.pourAdvance]

@[simp] theorem State.pourRecord_fuses (s : State) (p) (j) : (State.pourRecord s p j).fuses = s.fuses := by simp [State.pourRecord]

@[simp] theorem State.pourStep_fuses (s : State) (p) (j) : (State.pourStep s p j).fuses = s.fuses := by
  unfold State.pourStep; dsimp only; (repeat' split) <;> simp [*]

@[simp] theorem pourStepOp_fuses (s : State) : (pourStepOp s).fuses = s.fuses := by
  simp only [pourStepOp]; (repeat' split) <;> simp_all

@[simp] theorem State.opBody_fuses (s : State) (i) : (State.opBody s i).fuses = s.fuses := by
  unfold State.opBody; (repeat' split) <;> simp

@[simp] theorem State.rerunOps_fuses (s : State) : (State.rerunOps s).fuses = s.fuses := by simp [State.rerunOps]

@[simp] theorem State.abandonOp_fuses (s : State) (i) : (State.abandonOp s i).fuses = s.fuses := by
  unfold State.abandonOp; dsimp only; (repeat' split) <;> simp [*]

@[simp] theorem State.abandonOps_fuses (s : State) : (State.abandonOps s).fuses = s.fuses := by
  unfold State.abandonOps; refine (foldl_fuses _ _ _ ?_).trans ?_
  · intro s a; split <;> simp
  · exact foldl_fuses _ _ _ fun _ _ => by simp

@[simp] theorem State.closeCores_fuses (s : State) : s.closeCores.fuses = s.fuses := by
  unfold State.closeCores; dsimp only
  refine (foldl_fuses _ _ _ ?_).trans (by split <;> simp); intro s q; split <;> simp

@[simp] theorem State.closeDue_fuses (s : State) : (State.closeDue s).fuses = s.fuses := by simp [State.closeDue]

@[simp] theorem State.countSlot_fuses (s : State) : (State.countSlot s).fuses = s.fuses := by
  unfold State.countSlot; dsimp only; (repeat' split) <;> simp [*]

@[simp] theorem State.tickCommits_fuses (s : State) : (State.tickCommits s).fuses = s.fuses := by simp [State.tickCommits]

@[simp] theorem State.openSlot_fuses (s : State) : (State.openSlot s).fuses = s.fuses := by simp [State.openSlot]

@[simp] theorem State.runTick_fuses (s : State) (j) : (State.runTick s j).fuses = s.fuses := by simp [State.runTick]

@[simp] theorem State.finishPour_fuses (s : State) : (State.finishPour s).fuses = s.fuses := by simp [State.finishPour]

@[simp] theorem State.pourTick_fuses (s : State) (j) : (State.pourTick s j).fuses = s.fuses := by simp [State.pourTick]

@[simp] theorem State.verdictTick_fuses (s : State) : (State.verdictTick s).fuses = s.fuses := by
  unfold State.verdictTick; dsimp only; (repeat' split) <;> simp [*]

@[simp] theorem State.jobTick_fuses (s : State) : (State.jobTick s).fuses = s.fuses := by
  simp only [State.jobTick]; (repeat' split) <;> simp_all

@[simp] theorem State.closeHeld_fuses (s : State) (before) : (State.closeHeld s before).fuses = s.fuses := by simp [State.closeHeld]

@[simp] theorem slotTickOp_fuses (s : State) : (slotTickOp s).fuses = s.fuses := by
  unfold slotTickOp; dsimp only; (repeat' split) <;> simp [*]

@[simp] theorem State.mapWindow_fuses (s : State) (w) (on) : (State.mapWindow s w on).fuses = s.fuses := by simp [State.mapWindow]

@[simp] theorem State.bindOne_fuses (s : State) (e) : (State.bindOne s e).fuses = s.fuses := by simp [State.bindOne]

@[simp] theorem State.bindTable_fuses (s : State) (c) (entries) (sqHead) (b) : (State.bindTable s c entries sqHead b).fuses = s.fuses := by simp [State.bindTable]

@[simp] theorem State.query_fuses (s : State) (c) (sqHead) (code) (tag) (out) (len) : (State.query s c sqHead code tag out len).fuses = s.fuses := by simp [State.query]

@[simp] theorem State.forceSync_fuses (s : State) : (State.forceSync s).fuses = s.fuses := by simp [State.forceSync]

@[simp] theorem State.invalidatePlan_fuses (s : State) : (State.invalidatePlan s).fuses = s.fuses := by simp [State.invalidatePlan]

@[simp] theorem State.controlJob_fuses (s : State) (j) (k) : (State.controlJob s j k).fuses = s.fuses := by
  unfold State.controlJob; dsimp only; (repeat' split) <;> simp [*]

@[simp] theorem State.controlOp_fuses (s : State) (o) (k) : (State.controlOp s o k).fuses = s.fuses := by
  simp only [State.controlOp]; (repeat' split) <;> simp_all

@[simp] theorem State.control_fuses (s : State) (c) (opc) (sqHead) (ring) (tag) (k) : (State.control s c opc sqHead ring tag k).fuses = s.fuses := by
  unfold State.control; dsimp only; (repeat' split) <;> simp [*]

@[simp] theorem State.fenceCommand_fuses (s : State) (code) : (State.fenceCommand s code).fuses = s.fuses := by simp [State.fenceCommand]

@[simp] theorem State.setSeverityTo_fuses (s : State) (code) (sev) : (State.setSeverityTo s code sev).fuses = s.fuses := by simp [State.setSeverityTo]

@[simp] theorem State.ackEvent_fuses (s : State) (seq) : (State.ackEvent s seq).fuses = s.fuses := by simp [State.ackEvent]

@[simp] theorem State.heatsStart_fuses (s : State) (c) (a) (sqHead) : (State.heatsStart s c a sqHead).fuses = s.fuses := by simp [State.heatsStart]

@[simp] theorem State.addOp_fuses (s : State) (o) : (State.addOp s o).fuses = s.fuses := by simp [State.addOp]

@[simp] theorem State.copyStart_fuses (s : State) (c) (opc) (sqHead) (src) (dst) (perm) (list) (entries) (inHost) : (State.copyStart s c opc sqHead src dst perm list entries inHost).fuses = s.fuses := by simp [State.copyStart]

@[simp] theorem State.fillStart_fuses (s : State) (c) (sqHead) (a) : (State.fillStart s c sqHead a).fuses = s.fuses := by simp [State.fillStart]

@[simp] theorem State.runCmd_fuses (s : State) (i) (sqHead) : (State.runCmd s i sqHead).fuses = s.fuses := by
  unfold State.runCmd; dsimp only; (repeat' split) <;> simp [*]

@[simp] theorem State.countCommand_fuses (s : State) (ring) (opc) : (State.countCommand s ring opc).fuses = s.fuses := by simp [State.countCommand]

@[simp] theorem State.dispatchCmd_fuses (s : State) (i) (c) (opc) (sqHead) : (State.dispatchCmd s i c opc sqHead).fuses = s.fuses := by
  unfold State.dispatchCmd; dsimp only; (repeat' split) <;> simp [*]

@[simp] theorem State.fetchNext_fuses (s : State) (r) : (State.fetchNext s r).fuses = s.fuses := by simp [State.fetchNext]

@[simp] theorem State.runFetched_fuses (s : State) (f) : (State.runFetched s f).fuses = s.fuses := by
  simp only [State.runFetched]; (repeat' split) <;> simp_all

@[simp] theorem dispatchOp_fuses (r) (s : State) : (dispatchOp r s).fuses = s.fuses := by
  simp only [dispatchOp]; (repeat' split) <;> simp_all

@[simp] theorem State.submit_fuses (s : State) (i) (c) (opc) : (State.submit s i c opc).fuses = s.fuses := by simp [State.submit]

@[simp] theorem submissionDoorbellOp_fuses (r) (value) (s : State) : (submissionDoorbellOp r value s).fuses = s.fuses := by simp [submissionDoorbellOp]

@[simp] theorem completionHeadOp_fuses (value) (s : State) : (completionHeadOp value s).fuses = s.fuses := by simp [completionHeadOp]

@[simp] theorem eventHeadOp_fuses (value) (s : State) : (eventHeadOp value s).fuses = s.fuses := by simp [eventHeadOp]

@[simp] theorem interruptOp_fuses (v) (s : State) : (interruptOp v s).fuses = s.fuses := by
  unfold interruptOp; dsimp only; (repeat' split) <;> simp [*]

@[simp] theorem State.jobHostFail_fuses (s : State) (st) : (State.jobHostFail s st).fuses = s.fuses := by
  simp only [State.jobHostFail]; (repeat' split) <;> simp_all

@[simp] theorem State.failOp_fuses (s : State) (ring) (id) (st) : (State.failOp s ring id st).fuses = s.fuses := by
  simp only [State.failOp]; (repeat' split) <;> simp_all

@[simp] theorem State.failShort_fuses (s : State) (c) (opc) (sqHead) (st) : (State.failShort s c opc sqHead st).fuses = s.fuses := by simp [State.failShort]

@[simp] theorem State.leafError_fuses (s : State) (iova) : (State.leafError s iova).fuses = s.fuses := by simp [State.leafError]

@[simp] theorem State.leafWriteError_fuses (s : State) (ev) (iova) : (State.leafWriteError s ev iova).fuses = s.fuses := by simp [State.leafWriteError]

@[simp] theorem State.fetchFail_fuses (s : State) (r) (st) : (State.fetchFail s r st).fuses = s.fuses := by simp [State.fetchFail]

@[simp] theorem State.hostFail_fuses (s : State) (a) (st) : (State.hostFail s a st).fuses = s.fuses := by
  simp only [State.hostFail]; (repeat' split) <;> simp_all

@[simp] theorem State.copyData_fuses (s : State) (o) (c) (p) (iova) (b) : (State.copyData s o c p iova b).fuses = s.fuses := by
  simp only [State.copyData]; (repeat' split) <;> simp_all

@[simp] theorem State.opData_fuses (s : State) (o) (p) (iova) (b) : (State.opData s o p iova b).fuses = s.fuses := by
  simp only [State.opData]; (repeat' split) <;> simp_all

@[simp] theorem State.hostData_fuses (s : State) (a) (b) : (State.hostData s a b).fuses = s.fuses := by
  unfold State.hostData; dsimp only; (repeat' split) <;> simp [*]

@[simp] theorem State.hostAccepted_fuses (s : State) (a) : (State.hostAccepted s a).fuses = s.fuses := by
  simp only [State.hostAccepted]; (repeat' split) <;> simp_all

theorem takeAcc_fuses (s t : State) (id) (a : HostAcc) (h : s.takeAcc id = some (a, t)) : t.fuses = s.fuses := by
  simp only [State.takeAcc, Option.map_eq_some_iff, Prod.mk.injEq] at h; obtain ⟨x, -, -, rfl⟩ := h; rfl

@[simp] theorem hostResponseOp_fuses (id r) (s : State) : (hostResponseOp id r s).fuses = s.fuses := by
  unfold hostResponseOp; split
  · rfl
  · split
    · rfl
    · rename_i e; have := takeAcc_fuses _ _ _ _ e; (repeat' split) <;> simp [this]

@[simp] theorem hostTimeoutOp_fuses (id) (s : State) : (hostTimeoutOp id s).fuses = s.fuses := by
  unfold hostTimeoutOp; split
  · rfl
  · rename_i e; have := takeAcc_fuses _ _ _ _ e; split <;> simp [this]

@[simp] theorem bisnpResponseOp_fuses (line) (modified) (s : State) : (bisnpResponseOp line modified s).fuses = s.fuses := by
  unfold bisnpResponseOp; dsimp only; (repeat' split) <;> simp [*]

@[simp] theorem State.onBar_fuses (s : State) (f) (h : ∀ s, (f s).fuses = s.fuses) : (State.onBar s f).fuses = s.fuses := by
  unfold State.onBar; split <;> simp [*]

@[simp] theorem State.perstLow_fuses (s : State) : (State.perstLow s).fuses = s.fuses := by simp [State.perstLow]

@[simp] theorem State.perstHigh_fuses (s : State) : (State.perstHigh s).fuses = s.fuses := by simp [State.perstHigh]

@[simp] theorem State.resetFor_fuses (s : State) (cause) : (State.resetFor s cause).fuses = s.fuses := by simp [State.resetFor]

@[simp] theorem State.dieTrip_fuses (s : State) (unit) : (State.dieTrip s unit).fuses = s.fuses := by simp [State.dieTrip]

@[simp] theorem State.smbusOther_fuses (s : State) : (State.smbusOther s).fuses = s.fuses := by simp [State.smbusOther]

@[simp] theorem State.withFetchWord_fuses (s : State) (nbits) (w) : (State.withFetchWord s nbits w).fuses = s.fuses := by
  simp only [State.withFetchWord]; (repeat' split) <;> simp_all

@[simp] theorem State.done_fuses (s x : State) : (s.done x).fuses = x.fuses := by simp [State.done]

@[simp] theorem State.logged_fuses (s : State) (c) (action) (object) : (State.logged s c action object).fuses = s.fuses := by simp [State.logged]

@[simp] theorem State.opBase_fuses (s : State) (p) : (State.opBase s p).fuses = s.fuses := by simp [State.opBase]

end Sys2Proof.Machine
end

