-- ==== Sys2Proof/Laws/Memory.lean ====
section
/-! SUPPORT. Memory: the canonical form and what every operation of the module makes of it, and the bytes that a write stores. -/

namespace Sys2Proof.Machine

/-! ## The canonical form -/

/-- The canonical form, as an order and a bound. -/
theorem canonical_iff {α : Type} [DecidableEq α] (x : α) (l : List (Nat × α)) :
    canonical x l = true ↔ l.Pairwise (fun a b => a.1 < b.1) ∧ ∀ c ∈ l, c.2 ≠ x := by
  induction l with
  | nil => simp [canonical]
  | cons c cs ih =>
    cases cs with
    | nil => simp [canonical]
    | cons d ds =>
      simp only [canonical, Bool.and_eq_true, decide_eq_true_eq, ih]
      constructor
      · rintro ⟨⟨h1, h2⟩, h3, h4⟩
        refine ⟨List.pairwise_cons.2 ⟨fun e he => ?_, h3⟩, by simpa [h2] using h4⟩
        rcases List.mem_cons.1 he with rfl | he
        · exact h1
        · exact h1.trans ((List.pairwise_cons.1 h3).1 e he)
      · rintro ⟨h1, h2⟩
        exact ⟨⟨(List.pairwise_cons.1 h1).1 d (by simp), h2 c (by simp)⟩, (List.pairwise_cons.1 h1).2, fun e he => h2 e (by simp [he])⟩

/-- A part of a canonical listing is canonical. -/
theorem canonical_filter {α : Type} [DecidableEq α] (x : α) (l : List (Nat × α)) (p : Nat × α → Bool) (h : canonical x l = true) :
    canonical x (l.filter p) = true := by
  rw [canonical_iff] at h ⊢
  exact ⟨h.1.filter _, fun c hc => h.2 c (List.mem_filter.1 hc).1⟩

/-- Three canonical listings one after another, each below the next, are canonical. -/
theorem canonical_append {α : Type} [DecidableEq α] (x : α) (l m r : List (Nat × α)) (lo hi : Nat) (hl : canonical x l = true)
    (hm : canonical x m = true) (hr : canonical x r = true) (h1 : ∀ c ∈ l, c.1 < lo) (h2 : ∀ c ∈ m, lo ≤ c.1 ∧ c.1 < hi)
    (h3 : ∀ c ∈ r, hi ≤ c.1) (h4 : lo ≤ hi) : canonical x (l ++ m ++ r) = true := by
  rw [canonical_iff] at *
  refine ⟨List.pairwise_append.2 ⟨List.pairwise_append.2 ⟨hl.1, hm.1, fun a ha b hb => ?_⟩, hr.1, fun a ha b hb => ?_⟩, fun c hc => ?_⟩
  · exact (h1 a ha).trans_le (h2 b hb).1
  · have := h3 b hb
    rcases List.mem_append.1 ha with ha | ha
    · have := h1 a ha; omega
    · have := h2 a ha; omega
  · simp only [List.mem_append, or_assoc] at hc
    rcases hc with hc | hc | hc
    · exact hl.2 c hc
    · exact hm.2 c hc
    · exact hr.2 c hc

/-- The cells of a run of bytes lie in the run, and are canonical. -/
theorem cellsOf_mem (a : Nat) (bs : List Byte) (c : Host.Cell) (h : c ∈ cellsOf a bs) : a ≤ c.1 ∧ c.1 < a + bs.length := by
  induction bs generalizing a with
  | nil => simp [cellsOf] at h
  | cons b bs ih =>
    simp only [cellsOf] at h
    split at h
    · have := ih _ h; simp; omega
    · rcases List.mem_cons.1 h with rfl | h
      · simp
      · have := ih _ h; simp; omega

theorem canonical_cellsOf (a : Nat) (bs : List Byte) : canonical 0 (cellsOf a bs) = true := by
  induction bs generalizing a with
  | nil => rfl
  | cons b bs ih =>
    simp only [cellsOf]
    split
    · exact ih _
    · rename_i hb
      have := ih (a + 1)
      rw [canonical_iff] at this ⊢
      refine ⟨List.pairwise_cons.2 ⟨fun c hc => ?_, this.1⟩, fun c hc => ?_⟩
      · have := cellsOf_mem _ _ _ hc; exact this.1
      · rcases List.mem_cons.1 hc with rfl | hc
        · exact hb
        · exact this.2 c hc

/-- A write keeps the canonical form. -/
theorem canonical_cellSet (cs : List Host.Cell) (a : Nat) (bs : List Byte) (h : canonical 0 cs = true) :
    canonical 0 (cellSet cs a bs) = true := by
  refine canonical_append 0 _ _ _ a (a + bs.length) (canonical_filter _ _ _ h) (canonical_cellsOf a bs) (canonical_filter _ _ _ h)
    ?_ (fun c hc => cellsOf_mem _ _ _ hc) ?_ (by omega)
  · intro c hc; simpa using (List.mem_filter.1 hc).2
  · intro c hc; simpa using (List.mem_filter.1 hc).2

/-- Filing a deviation keeps the canonical form. -/
theorem canonical_syndSet (l : List (Nat × Nat)) (w S : Nat) (h : canonical 0 l = true) : canonical 0 (syndSet l w S) = true := by
  refine canonical_append 0 _ _ _ w (w + 1) (canonical_filter _ _ _ h) ?_ (canonical_filter _ _ _ h) ?_ ?_ ?_ (by omega)
  · split
    · rfl
    · simpa [canonical]
  · intro c hc; simpa using (List.mem_filter.1 hc).2
  · intro c hc; split at hc <;> simp at hc; subst hc; simp
  · intro c hc
    have := (List.mem_filter.1 hc).2
    simp at this; omega

/-! ## Reading back -/

theorem cellGet_eq_zero (cs : List Host.Cell) (a : Nat) (h : ∀ c ∈ cs, c.1 ≠ a) : cellGet cs a = 0 := by
  induction cs with
  | nil => rfl
  | cons c cs ih => simp only [cellGet, h c (by simp), if_false]; exact ih fun d hd => h d (by simp [hd])

theorem cellGet_append (cs ds : List Host.Cell) (a : Nat) (h : ∀ c ∈ cs, c.1 ≠ a) : cellGet (cs ++ ds) a = cellGet ds a := by
  induction cs with
  | nil => rfl
  | cons c cs ih => simp only [List.cons_append, cellGet, h c (by simp), if_false]; exact ih fun d hd => h d (by simp [hd])

theorem cellGet_append_left (cs ds : List Host.Cell) (a : Nat) (h : ∀ d ∈ ds, d.1 ≠ a) : cellGet (cs ++ ds) a = cellGet cs a := by
  induction cs with
  | nil => exact cellGet_eq_zero ds a h
  | cons c cs ih => simp only [List.cons_append, cellGet, ih]

theorem cellGet_filter (cs : List Host.Cell) (p : Host.Cell → Bool) (a : Nat) (h : ∀ c ∈ cs, c.1 = a → p c = true) :
    cellGet (cs.filter p) a = cellGet cs a := by
  induction cs with
  | nil => rfl
  | cons c cs ih =>
    have ih := ih fun d hd => h d (by simp [hd])
    by_cases hc : c.1 = a
    · simp [h c (by simp) hc, cellGet, hc]
    · simp only [List.filter_cons]
      split <;> simp [cellGet, hc, ih]

theorem cellGet_cellsOf (a : Nat) (bs : List Byte) (i : Nat) (h : i < bs.length) : cellGet (cellsOf a bs) (a + i) = bs[i] := by
  induction bs generalizing a i with
  | nil => simp at h
  | cons b bs ih =>
    cases i with
    | zero =>
      simp only [cellsOf, Nat.add_zero, List.getElem_cons_zero]
      split
      · rename_i hb
        rw [hb]; exact cellGet_eq_zero _ _ fun c hc e => by have := cellsOf_mem _ _ _ hc; omega
      · simp [cellGet]
    | succ i =>
      have := ih (a + 1) i (by simpa using h)
      rw [show a + (i + 1) = a + 1 + i by omega]
      simp only [cellsOf, List.getElem_cons_succ]
      split
      · exact this
      · rw [cellGet, if_neg (by omega)]; exact this

/-- A byte that a write stored. -/
theorem cellGet_set (cs : List Host.Cell) (a : Nat) (bs : List Byte) (i : Nat) (h : i < bs.length) :
    cellGet (cellSet cs a bs) (a + i) = bs[i] := by
  unfold cellSet
  rw [cellGet_append_left, cellGet_append, cellGet_cellsOf a bs i h]
  · intro c hc e; have := (List.mem_filter.1 hc).2; simp at this; omega
  · intro c hc e; have := (List.mem_filter.1 hc).2; simp at this; omega

/-- A byte outside a write. -/
theorem cellGet_set_other (cs : List Host.Cell) (a : Nat) (bs : List Byte) (x : Nat) (h : x < a ∨ a + bs.length ≤ x) :
    cellGet (cellSet cs a bs) x = cellGet cs x := by
  unfold cellSet
  rcases h with h | h
  · rw [cellGet_append_left, cellGet_append_left, cellGet_filter]
    · intro c _ e; simp; omega
    · intro c hc e; have := cellsOf_mem _ _ _ hc; omega
    · intro c hc e; have := (List.mem_filter.1 hc).2; simp at this; omega
  · rw [List.append_assoc, cellGet_append, cellGet_append, cellGet_filter]
    · intro c _ e; simp; omega
    · intro c hc e; have := cellsOf_mem _ _ _ hc; omega
    · intro c hc e; have := (List.mem_filter.1 hc).2; simp at this; omega

/-- A read, byte by byte. -/
theorem cellRead_eq (cs : List Host.Cell) (a n : Nat) : cellRead cs a n = (List.range n).map fun i => cellGet cs (a + i) := by
  unfold cellRead
  refine List.map_congr_left fun i hi => cellGet_filter _ _ _ fun c _ e => ?_
  have := List.mem_range.1 hi
  simp; omega

/-! ## Cases and folds -/

@[simp] theorem ite_mem (c : Prop) [Decidable c] (s t : State) : (if c then s else t).mem = if c then s.mem else t.mem := apply_ite _ _ _ _
@[simp] theorem ite_wf (c : Prop) [Decidable c] (s t : Mem) : (if c then s else t).wf = if c then s.wf else t.wf := apply_ite _ _ _ _
@[simp] theorem ite_snd_mem {β : Type} (c : Prop) [Decidable c] (x y : β × State) : (if c then x else y).2.mem = if c then x.2.mem else y.2.mem := by split <;> rfl
@[simp] theorem ite_thd_mem {β γ : Type} (c : Prop) [Decidable c] (x y : β × γ × State) : (if c then x else y).2.2.mem = if c then x.2.2.mem else y.2.2.mem := by split <;> rfl
theorem ite_keep {c : Prop} [Decidable c] {x y : State} (hx : x.mem.wf = true) (hy : y.mem.wf = true) : (if c then x else y).mem.wf = true := by
  split <;> assumption
theorem ite_snd_keep {β : Type} {c : Prop} [Decidable c] {x y : β × State} (hx : x.2.mem.wf = true) (hy : y.2.mem.wf = true) :
    (if c then x else y).2.mem.wf = true := by split <;> assumption
@[simp] theorem foldl_mem {α : Type} (f : State → α → State) (l : List α) (s : State) (h : ∀ s x, (f s x).mem = s.mem) :
    (l.foldl f s).mem = s.mem := foldl_inv (fun t => t.mem = s.mem) f l s rfl fun b x e => (h b x).trans e
@[simp] theorem foldl_snd_mem {α β : Type} (f : β × State → α → β × State) (l : List α) (s : β × State) (h : ∀ s x, (f s x).2.mem = s.2.mem) :
    (l.foldl f s).2.mem = s.2.mem := foldl_inv (fun t => t.2.mem = s.2.mem) f l s rfl fun b x e => (h b x).trans e
@[simp] theorem foldl_thd_mem {α β γ : Type} (f : β × γ × State → α → β × γ × State) (l : List α) (s : β × γ × State) (h : ∀ s x, (f s x).2.2.mem = s.2.2.mem) :
    (l.foldl f s).2.2.mem = s.2.2.mem := foldl_inv (fun t => t.2.2.mem = s.2.2.mem) f l s rfl fun b x e => (h b x).trans e
@[simp] theorem foldl_fth_mem {α β γ δ : Type} (f : β × γ × δ × State → α → β × γ × δ × State) (l : List α) (s : β × γ × δ × State) (h : ∀ s x, (f s x).2.2.2.mem = s.2.2.2.mem) :
    (l.foldl f s).2.2.2.mem = s.2.2.2.mem := foldl_inv (fun t => t.2.2.2.mem = s.2.2.2.mem) f l s rfl fun b x e => (h b x).trans e
@[simp] theorem foldl_wf {α : Type} (f : State → α → State) (l : List α) (s : State) (h : ∀ s x, (f s x).mem.wf = s.mem.wf) :
    (l.foldl f s).mem.wf = s.mem.wf := foldl_inv (fun t => t.mem.wf = s.mem.wf) f l s rfl fun b x e => (h b x).trans e
@[simp] theorem foldl_snd_wf {α β : Type} (f : β × State → α → β × State) (l : List α) (s : β × State) (h : ∀ s x, (f s x).2.mem.wf = s.2.mem.wf) :
    (l.foldl f s).2.mem.wf = s.2.mem.wf := foldl_inv (fun t => t.2.mem.wf = s.2.mem.wf) f l s rfl fun b x e => (h b x).trans e
@[simp] theorem foldl_thd_wf {α β γ : Type} (f : β × γ × State → α → β × γ × State) (l : List α) (s : β × γ × State) (h : ∀ s x, (f s x).2.2.mem.wf = s.2.2.mem.wf) :
    (l.foldl f s).2.2.mem.wf = s.2.2.mem.wf := foldl_inv (fun t => t.2.2.mem.wf = s.2.2.mem.wf) f l s rfl fun b x e => (h b x).trans e
@[simp] theorem foldl_keep {α : Type} (f : State → α → State) (l : List α) (s : State) (h : ∀ s x, s.mem.wf = true → (f s x).mem.wf = true) (hs : s.mem.wf = true) :
    (l.foldl f s).mem.wf = true := foldl_inv (fun t => t.mem.wf = true) f l s hs h
@[simp] theorem foldl_snd_keep {α β : Type} (f : β × State → α → β × State) (l : List α) (s : β × State) (h : ∀ s x, s.2.mem.wf = true → (f s x).2.mem.wf = true) (hs : s.2.mem.wf = true) :
    (l.foldl f s).2.mem.wf = true := foldl_inv (fun t => t.2.mem.wf = true) f l s hs h
@[simp] theorem foldl_thd_keep {α β γ : Type} (f : β × γ × State → α → β × γ × State) (l : List α) (s : β × γ × State) (h : ∀ s x, s.2.2.mem.wf = true → (f s x).2.2.mem.wf = true) (hs : s.2.2.mem.wf = true) :
    (l.foldl f s).2.2.mem.wf = true := foldl_inv (fun t => t.2.2.mem.wf = true) f l s hs h
@[simp] theorem mem0_wf : mem0.wf = true := rfl
@[simp] theorem wf_rowActs (m : Mem) (x) : Mem.wf { m with rowActs := x } = m.wf := rfl
@[simp] theorem wf_tableNext (m : Mem) (x) : Mem.wf { m with tableNext := x } = m.wf := rfl
@[simp] theorem wf_windows (m : Mem) (x) : Mem.wf { m with windows := x } = m.wf := rfl
@[simp] theorem wf_frames (m : Mem) (x) : Mem.wf { m with frames := x } = m.wf := rfl
@[simp] theorem wf_both (m : Mem) (x y) : Mem.wf { m with frames := x, windows := y } = m.wf := rfl
@[simp] theorem wf_synd (m : Mem) (w S : Nat) (h : m.wf = true) : Mem.wf { m with synd := syndSet m.synd w S } = true := by
  simp only [Mem.wf, Bool.and_eq_true] at h ⊢
  exact ⟨h.1, canonical_syndSet _ _ _ h.2⟩

/-! ## Operations: `_mem` leaves memory, `_wf` its bytes and check bytes, `_keep` its canonical form -/

@[simp] theorem State.emit_mem (s : State) (o) : (State.emit s o).mem = s.mem := by simp [State.emit]

@[simp] theorem State.draw_mem (s : State) : (State.draw s).2.mem = s.mem := by simp [State.draw]

@[simp] theorem State.snoop_mem (s : State) (n) (kind) (tensor) (blocks) : (State.snoop s n kind tensor blocks).mem = s.mem := by simp [State.snoop]

@[simp] theorem State.hostRead_mem (s : State) (iova) (len) (p) : (State.hostRead s iova len p).mem = s.mem := by simp [State.hostRead]

@[simp] theorem State.arrive_mem (s : State) (e) (kind) (tensor) (blocks) : (State.arrive s e kind tensor blocks).mem = s.mem := by
  unfold State.arrive; dsimp only; (repeat' split) <;> simp [*]

@[simp] theorem State.cross_mem (s : State) (a) (b) (kind) (tensor) (blocks) : (State.cross s a b kind tensor blocks).mem = s.mem := by
  unfold State.cross; (repeat' split) <;> simp

@[simp] theorem State.sendHostAs_mem (s : State) (iova) (bytes) (t) : (State.sendHostAs s iova bytes t).mem = s.mem := by simp [State.sendHostAs]

@[simp] theorem State.sendHost_mem (s : State) (iova) (bytes) : (State.sendHost s iova bytes).mem = s.mem := by simp [State.sendHost]

@[simp] theorem State.hostWriteAs_mem (s : State) (iova) (bytes) (p) (t) : (State.hostWriteAs s iova bytes p t).mem = s.mem := by
  unfold State.hostWriteAs; dsimp only; (repeat' split) <;> simp [*]

@[simp] theorem State.hostWrite_mem (s : State) (iova) (bytes) (p) : (State.hostWrite s iova bytes p).mem = s.mem := by simp [State.hostWrite]

@[simp] theorem State.signal_mem (s : State) (v) : (State.signal s v).mem = s.mem := by simp [State.signal]

@[simp] theorem State.flushCq_mem (s : State) (k : Nat) : (s.flushCq k).mem = s.mem := by
  induction k generalizing s with
  | zero => rfl
  | succ k ih => unfold State.flushCq; (repeat' split) <;> simp [ih]

@[simp] theorem State.post_mem (s : State) (c) : (State.post s c).mem = s.mem := by simp [State.post]

@[simp] theorem State.complete_mem (s : State) (c) (opc) (sqHead) (status) (d0) (d1) : (State.complete s c opc sqHead status d0 d1).mem = s.mem := by simp [State.complete]

@[simp] theorem State.flushEq_mem (s : State) (k : Nat) : (s.flushEq k).mem = s.mem := by
  induction k generalizing s with
  | zero => rfl
  | succ k ih => unfold State.flushEq; dsimp only; (repeat' split) <;> simp [ih]

@[simp] theorem State.postEvent_mem (s : State) (e) : (State.postEvent s e).mem = s.mem := by simp [State.postEvent]

@[simp] theorem State.closeEvents_mem (s : State) (f) : (State.closeEvents s f).mem = s.mem := by simp [State.closeEvents]

@[simp] theorem State.checkpoint_mem (s : State) : (State.checkpoint s).mem = s.mem := by simp [State.checkpoint]

@[simp] theorem State.auditAppend_mem (s : State) (action) (role) (status) (key) (object) : (State.auditAppend s action role status key object).mem = s.mem := by simp [State.auditAppend]

@[simp] theorem State.auditLate_mem (s : State) (action) (role) (status) (key) (object) : (State.auditLate s action role status key object).mem = s.mem := by simp [State.auditLate]

@[simp] theorem State.endRole_mem (s : State) (r) : (State.endRole s r).mem = s.mem := by simp [State.endRole]

@[simp] theorem State.endSession_mem (s : State) (mask) : (State.endSession s mask).mem = s.mem := by simp [State.endSession]

@[simp] theorem State.moduleReset_mem (s : State) (cause) (b) : (s.moduleReset cause b).mem = mem0 := by
  simp [State.moduleReset, State.emit]

@[simp] theorem State.recordSticky_mem (s : State) (u) : (State.recordSticky s u).mem = s.mem := by simp [State.recordSticky]

@[simp] theorem State.fenceMark_mem (s : State) (u) (cause) : (State.fenceMark s u cause).mem = s.mem := by simp [State.fenceMark]

@[simp] theorem State.fenceStart_mem (s : State) (u) (cause) : (State.fenceStart s u cause).mem = s.mem := by
  unfold State.fenceStart; dsimp only; (repeat' split) <;> simp [*]

@[simp] theorem State.applyFences_mem (s : State) (l) : (State.applyFences s l).mem = s.mem := by simp [State.applyFences]

@[simp] theorem State.noteEnded_mem (s : State) (ring) (tag) (opc) (link) : (State.noteEnded s ring tag opc link).mem = s.mem := by simp [State.noteEnded]

@[simp] theorem State.finishOp_mem (s : State) (o) (status) (d0) (d1) : (State.finishOp s o status d0 d1).mem = s.mem := by
  unfold State.finishOp; dsimp only; (repeat' split) <;> simp [*]

@[simp] theorem State.setOp_mem (s : State) (o) : (State.setOp s o).mem = s.mem := by simp [State.setOp]

@[simp] theorem State.endOp_mem (s : State) (o) (status) : (State.endOp s o status).mem = s.mem := by
  unfold State.endOp; dsimp only; (repeat' split) <;> simp [*]

@[simp] theorem State.endJob_mem (s : State) (status) : (State.endJob s status).mem = s.mem := by
  unfold State.endJob; dsimp only; (repeat' split) <;> simp [*]

@[simp] theorem State.cause_mem (s : State) (unit) (bit) : (State.cause s unit bit).mem = s.mem := by
  unfold State.cause; dsimp only; (repeat' split) <;> simp [*]

@[simp] theorem State.markRetired_mem (s : State) (frame) : (State.markRetired s frame).mem = s.mem := by simp [State.markRetired]

@[simp] theorem State.degrade_mem (s : State) (t) : (State.degrade s t).mem = s.mem := by
  unfold State.degrade; dsimp only; (repeat' split) <;> simp [*]

@[simp] theorem State.haltJobs_mem (s : State) (unit) (seq) : (State.haltJobs s unit seq).mem = s.mem := by
  unfold State.haltJobs; dsimp only; (repeat' split) <;> simp [*]

@[simp] theorem State.react_mem (s : State) (level) (code) (unit) (data) (seq) : (State.react s level code unit data seq).mem = s.mem := by
  simp only [State.react]; (repeat' split) <;> simp_all

@[simp] theorem State.reactTo_mem (s : State) (e) (data) : (State.reactTo s e data).mem = s.mem := by simp [State.reactTo]

@[simp] theorem State.raiseWith_mem (s : State) (base) (code) (unit) (layer) (data) (n) (bad) : (State.raiseWith s base code unit layer data n bad).mem = s.mem := by
  unfold State.raiseWith; dsimp only; (repeat' split) <;> simp [*]

@[simp] theorem State.raiseN_mem (s : State) (code) (unit) (layer) (data) (n) (bad) : (State.raiseN s code unit layer data n bad).mem = s.mem := by simp [State.raiseN]

@[simp] theorem State.settleReset_keep (s : State) (hm : s.mem.wf = true) : (s.settleReset).mem.wf = true := by
  unfold State.settleReset; split <;> simp [hm]

@[simp] theorem State.raise_mem (s : State) (code) (unit) (layer) (data) : (State.raise s code unit layer data).mem = s.mem := by simp [State.raise]

@[simp] theorem State.setRing_mem (s : State) (r) (f) : (State.setRing s r f).mem = s.mem := by simp [State.setRing]

@[simp] theorem State.setRegs_mem (s : State) (f) : (State.setRegs s f).mem = s.mem := by simp [State.setRegs]

@[simp] theorem State.accessError_mem (s : State) : (State.accessError s).mem = s.mem := by simp [State.accessError]

@[simp] theorem State.rightsError_mem (s : State) : (State.rightsError s).mem = s.mem := by simp [State.rightsError]

@[simp] theorem State.clearDue_mem (s : State) : (State.clearDue s).mem = s.mem := by simp [State.clearDue]

@[simp] theorem answer_mem (st) (s : State) : (answer st s).state.mem = s.mem := rfl

@[simp] theorem State.respond_mem (s : State) (st) (bytes) : (State.respond s st bytes).mem = s.mem := by simp [State.respond]

@[simp] theorem State.takeRequest_mem (s : State) (code) (req) : (State.takeRequest s code req).mem = s.mem := by simp [State.takeRequest]

@[simp] theorem State.mailbox_mem (s : State) (code) (req) (inCruc) (role) (len) (zero) (f) (h : ∀ s, (f s).state.mem = s.mem) :
    (State.mailbox s code req inCruc role len zero f).mem = s.mem := by
  unfold State.mailbox; dsimp only; (repeat' split) <;> simp [*, answer]

@[simp] theorem State.mailbox_wf (s : State) (code) (req) (inCruc) (role) (len) (zero) (f) (h : ∀ s, (f s).state.mem.wf = s.mem.wf) :
    (State.mailbox s code req inCruc role len zero f).mem.wf = s.mem.wf := by
  unfold State.mailbox; dsimp only; (repeat' split) <;> simp [*, answer]

@[simp] theorem State.mailbox_keep (s : State) (code) (req) (inCruc) (role) (len) (zero) (f) (h : ∀ s, s.mem.wf = true → (f s).state.mem.wf = true) (hm : s.mem.wf = true) : (State.mailbox s code req inCruc role len zero f).mem.wf = true := by
  unfold State.mailbox; dsimp only; (repeat' split) <;> simp +contextual (maxDischargeDepth := 60) [*, answer]

@[simp] theorem State.auditable_mem (s : State) (f) (h : ∀ s, (f s).state.mem = s.mem) : (State.auditable s f).state.mem = s.mem := by
  unfold State.auditable; split <;> simp [*]

@[simp] theorem State.auditable_wf (s : State) (f) (h : ∀ s, (f s).state.mem.wf = s.mem.wf) : (State.auditable s f).state.mem.wf = s.mem.wf := by
  unfold State.auditable; split <;> simp [*]

@[simp] theorem State.auditable_keep (s : State) (f) (h : ∀ s, s.mem.wf = true → (f s).state.mem.wf = true) (hm : s.mem.wf = true) : (State.auditable s f).state.mem.wf = true := by
  unfold State.auditable; split
  · exact h s hm
  · exact hm

@[simp] theorem State.auditMbx_mem (s : State) (action) (st) (object) : (State.auditMbx s action st object).mem = s.mem := by simp [State.auditMbx]

@[simp] theorem mbxGetIdentity_mem (req) (s : State) : (mbxGetIdentity req s).mem = s.mem := by simp [mbxGetIdentity]

@[simp] theorem mbxAuthNonce_mem (req) (s : State) : (mbxAuthNonce req s).mem = s.mem := by simp [mbxAuthNonce]

@[simp] theorem State.authFailure_mem (s : State) : (State.authFailure s).mem = s.mem := by simp [State.authFailure]

@[simp] theorem State.grant_mem (s : State) (role) (mask) (key) : (State.grant s role mask key).mem = s.mem := by simp [State.grant]

@[simp] theorem mbxAuth_mem (req) (s : State) : (mbxAuth req s).mem = s.mem := by
  unfold mbxAuth; apply State.mailbox_mem; intro s; apply State.auditable_mem; intro s; dsimp only; (repeat' split) <;> simp

@[simp] theorem mbxLockoutExpiry_mem (s : State) : (mbxLockoutExpiry s).mem = s.mem := by simp [mbxLockoutExpiry]

@[simp] theorem mbxRelease_mem (req) (s : State) : (mbxRelease req s).mem = s.mem := by simp [mbxRelease]

@[simp] theorem mbxEnrollKey_mem (req) (s : State) : (mbxEnrollKey req s).mem = s.mem := by
  unfold mbxEnrollKey; apply State.mailbox_mem; intro s; dsimp only; split
  · rfl
  · apply State.auditable_mem; intro s; (repeat' split) <;> simp

@[simp] theorem mbxRevokeKey_mem (req) (s : State) : (mbxRevokeKey req s).mem = s.mem := by
  unfold mbxRevokeKey; apply State.mailbox_mem; intro s; apply State.auditable_mem; intro s; dsimp only; (repeat' split) <;> simp

@[simp] theorem mbxStageFirmware_mem (req) (s : State) : (mbxStageFirmware req s).mem = s.mem := by
  unfold mbxStageFirmware; apply State.mailbox_mem; intro s; apply State.auditable_mem; intro s; dsimp only; (repeat' split) <;> simp

@[simp] theorem mbxAdvanceSvn_mem (req) (s : State) : (mbxAdvanceSvn req s).mem = s.mem := by
  unfold mbxAdvanceSvn; apply State.mailbox_mem; intro s; apply State.auditable_mem; intro s; dsimp only; (repeat' split) <;> simp

@[simp] theorem mbxClearStartFail_mem (req) (s : State) : (mbxClearStartFail req s).mem = s.mem := by simp [mbxClearStartFail]

@[simp] theorem mbxResetModule_keep (req) (s : State) (hm : s.mem.wf = true) : (mbxResetModule req s).mem.wf = true := by
  simp (maxDischargeDepth := 60) [mbxResetModule, hm]

@[simp] theorem mbxAuditRead_mem (req) (s : State) : (mbxAuditRead req s).mem = s.mem := by
  unfold mbxAuditRead; apply State.mailbox_mem; intro s; (try dsimp only); (repeat' split) <;> simp

@[simp] theorem mbxAuditCheckpoint_mem (req) (s : State) : (mbxAuditCheckpoint req s).mem = s.mem := by simp [mbxAuditCheckpoint]

@[simp] theorem mbxDebugNonce_mem (req) (s : State) : (mbxDebugNonce req s).mem = s.mem := by simp [mbxDebugNonce]

@[simp] theorem mbxDebugUnlock_mem (req) (s : State) : (mbxDebugUnlock req s).mem = s.mem := by
  unfold mbxDebugUnlock; apply State.mailbox_mem; intro s; apply State.auditable_mem; intro s; dsimp only; (repeat' split) <;> simp

@[simp] theorem flashAgain_mem (s : State) : (flashAgain s).mem = s.mem := by simp [flashAgain]

@[simp] theorem State.mailboxGo_keep (s : State) (hm : s.mem.wf = true) : (State.mailboxGo s).mem.wf = true := by
  unfold State.mailboxGo; dsimp only; (repeat' split) <;> simp (maxDischargeDepth := 60) [*]

@[simp] theorem attestReport_mem (nonce) (s : State) : (attestReport nonce s).mem = s.mem := by simp [attestReport]

@[simp] theorem getCertBytes_mem (offset) (length) (s : State) : (getCertBytes offset length s).mem = s.mem := by simp [getCertBytes]

@[simp] theorem State.eccEvent_mem (s : State) (a) (f) : (State.eccEvent s a f).mem = s.mem := by
  unfold State.eccEvent; dsimp only; (repeat' split) <;> simp [*]

@[simp] theorem State.activate_wf (s : State) (a) (n) : (State.activate s a n).mem.wf = s.mem.wf := rfl

@[simp] theorem State.readMem_wf (s : State) (a) (n) : (State.readMem s a n).2.mem.wf = s.mem.wf := by
  unfold State.readMem; dsimp only; (repeat' split) <;> simp [*]

@[simp] theorem State.poke_keep (s : State) (a bs) (hm : s.mem.wf = true) : (s.poke a bs).mem.wf = true := by
  unfold State.poke
  split
  · exact hm
  · simp only [Mem.wf, Bool.and_eq_true] at hm ⊢
    exact ⟨canonical_cellSet _ _ _ hm.1, canonical_filter _ _ _ hm.2⟩

@[simp] theorem State.poison_keep (s : State) (a) (hm : s.mem.wf = true) : (s.poison a).mem.wf = true := by
  simp only [Mem.wf, Bool.and_eq_true] at hm ⊢
  exact ⟨hm.1, canonical_syndSet _ _ _ hm.2⟩

@[simp] theorem State.mergeWord_keep (s : State) (a) (bs) (hm : s.mem.wf = true) : (State.mergeWord s a bs).2.mem.wf = true := by
  unfold State.mergeWord; dsimp only; (repeat' split) <;> simp (maxDischargeDepth := 60) [*]

@[simp] theorem State.writeMem_keep (s : State) (a) (bs) (hm : s.mem.wf = true) : (State.writeMem s a bs).2.mem.wf = true := by
  unfold State.writeMem; dsimp only; (repeat' split) <;> simp (maxDischargeDepth := 60) [*]

@[simp] theorem State.poisonRange_keep (s : State) (a bad) (hm : s.mem.wf = true) : (s.poisonRange a bad).mem.wf = true := by
  unfold State.poisonRange; refine foldl_keep _ _ _ (fun s e hm => ?_) hm; split <;> simp [hm]

@[simp] theorem State.setEntry_keep (s : State) (a) (v) (hm : s.mem.wf = true) : (State.setEntry s a v).mem.wf = true := by
  simp (maxDischargeDepth := 60) [State.setEntry, hm]

@[simp] theorem State.tableBelow_keep (s : State) (d) (a) (size) (childSize) (n) (hm : s.mem.wf = true) : (State.tableBelow s d a size childSize n).2.mem.wf = true := by
  unfold State.tableBelow; dsimp only; (repeat' split) <;> simp (maxDischargeDepth := 60) [*]

@[simp] theorem State.mapOn_keep (s : State) (d) (va) (entry) (hm : s.mem.wf = true) : (State.mapOn s d va entry).mem.wf = true := by
  simp (maxDischargeDepth := 60) [State.mapOn, hm]

@[simp] theorem State.mapFrame_keep (s : State) (va e) (hm : s.mem.wf = true) : (s.mapFrame va e).mem.wf = true := by
  unfold State.mapFrame; exact foldl_keep _ _ _ (fun s e hm => by simp [hm]) hm

@[simp] theorem State.carry_mem (s : State) (die) (out) (a) (kind) (tensor) (blocks) : (State.carry s die out a kind tensor blocks).mem = s.mem := by
  unfold State.carry; dsimp only; (repeat' split) <;> simp [*]

@[simp] theorem State.walkEvents_mem (s : State) (unit) (ps) (write) : (State.walkEvents s unit ps write).mem = s.mem := by simp [State.walkEvents]

@[simp] theorem State.readVa_wf (s : State) (unit) (evUnit) (va) (n) (t) : (State.readVa s unit evUnit va n t).2.mem.wf = s.mem.wf := by
  unfold State.readVa; dsimp only; (repeat' split)
  · simp
  · simp
  · refine (foldl_snd_wf _ _ _ ?_).trans (by simp)
    intro s x; (repeat' split) <;> simp

@[simp] theorem State.writeVa_keep (s : State) (unit) (evUnit) (va) (bs) (why) (t) (hm : s.mem.wf = true) : (State.writeVa s unit evUnit va bs why t).2.mem.wf = true := by
  unfold State.writeVa; dsimp only; (repeat' split)
  · simpa using hm
  · simpa using hm
  · refine foldl_thd_keep _ _ _ (fun s x hm => ?_) (by simpa using hm); (repeat' split) <;> simp [hm]

@[simp] theorem State.commitGo_mem (s : State) (b) (late) : (State.commitGo s b late).mem = s.mem := by
  unfold State.commitGo; dsimp only; (repeat' split) <;> simp

@[simp] theorem State.commitApply_mem (s : State) (b) : (State.commitApply s b).mem = s.mem := by
  unfold State.commitApply; dsimp only; (repeat' split) <;> simp [*]

@[simp] theorem State.enableRing_mem (s : State) (sel) : (State.enableRing s sel).mem = s.mem := by
  unfold State.enableRing; dsimp only; (repeat' split) <;> simp [*]

@[simp] theorem State.disableRing_mem (s : State) (r) : (State.disableRing s r).mem = s.mem := by simp [State.disableRing]

@[simp] theorem State.disableRecords_mem (s : State) (sel) : (State.disableRecords s sel).mem = s.mem := by
  unfold State.disableRecords; dsimp only; (repeat' split) <;> simp [*]

@[simp] theorem State.writeRingCtrl_mem (s : State) (sel) (v) : (State.writeRingCtrl s sel v).mem = s.mem := by
  unfold State.writeRingCtrl; dsimp only; (repeat' split) <;> simp [*]

@[simp] theorem State.writeRingBase_mem (s : State) (sel) (v) : (State.writeRingBase s sel v).mem = s.mem := by
  unfold State.writeRingBase; dsimp only; (repeat' split) <;> simp [*]

@[simp] theorem State.installerWrite_mem (s : State) (offset) (value) (f) (h : ∀ s, (f s).mem = s.mem) : (State.installerWrite s offset value f).mem = s.mem := by
  unfold State.installerWrite; dsimp only; (repeat' split) <;> simp [*]

@[simp] theorem State.installerWrite_wf (s : State) (offset) (value) (f) (h : ∀ s, (f s).mem.wf = s.mem.wf) : (State.installerWrite s offset value f).mem.wf = s.mem.wf := by
  unfold State.installerWrite; dsimp only; (repeat' split) <;> simp [*]

@[simp] theorem State.installerWrite_keep (s : State) (offset) (value) (f) (h : ∀ s, s.mem.wf = true → (f s).mem.wf = true) (hm : s.mem.wf = true) : (State.installerWrite s offset value f).mem.wf = true := by
  unfold State.installerWrite; dsimp only; (repeat' split) <;> simp +contextual (maxDischargeDepth := 60) [*, answer]

@[simp] theorem State.setSevWord_mem (s : State) (w) (v) : (State.setSevWord s w v).mem = s.mem := by simp [State.setSevWord]

@[simp] theorem State.severityWrite_mem (s : State) (w) (v) : (State.severityWrite s w v).mem = s.mem := by simp [State.severityWrite]

@[simp] theorem State.stickyWrite_mem (s : State) (v) : (State.stickyWrite s v).mem = s.mem := by simp [State.stickyWrite]

@[simp] theorem State.flashField_mem (s : State) (offset) (v) : (State.flashField s offset v).mem = s.mem := by
  unfold State.flashField; dsimp only; (repeat' split) <;> simp

@[simp] theorem State.flashDone_mem (s : State) (ok) : (State.flashDone s ok).mem = s.mem := by
  unfold State.flashDone; dsimp only; (repeat' split) <;> simp [*]

@[simp] theorem State.splitGo_keep (s : State) (hm : s.mem.wf = true) : (s.splitGo).mem.wf = true := by
  unfold State.splitGo; dsimp only; (repeat' split) <;> simp [hm]

@[simp] theorem State.snooperWrite_mem (s : State) (n) (ofs) (v) : (State.snooperWrite s n ofs v).mem = s.mem := by simp [State.snooperWrite]

@[simp] theorem State.msixWrite_mem (s : State) (o) (size) (v) : (State.msixWrite s o size v).mem = s.mem := by
  unfold State.msixWrite; dsimp only; (repeat' split) <;> simp [*]

@[simp] theorem State.mailboxWrite_keep (s : State) (o) (size) (v) (hm : s.mem.wf = true) : (State.mailboxWrite s o size v).mem.wf = true := by
  simp (maxDischargeDepth := 60) [State.mailboxWrite, hm]

@[simp] theorem State.ringsWrite_mem (s : State) (o) (new) : (State.ringsWrite s o new).mem = s.mem := by
  unfold State.ringsWrite; dsimp only; (repeat' split) <;> simp [*]

@[simp] theorem State.splitWriteReg_keep (s : State) (o) (new) (go) (hm : s.mem.wf = true) : (State.splitWriteReg s o new go).mem.wf = true := by
  unfold State.splitWriteReg; (repeat' split) <;> simp [hm]

@[simp] theorem State.blockWrite_keep (s : State) (o new go) (hm : s.mem.wf = true) : (s.blockWrite o new go).mem.wf = true := by
  unfold State.blockWrite; (repeat' split) <;> simp [hm]

@[simp] theorem State.regWrite_keep (s : State) (offset size v) (hm : s.mem.wf = true) : (s.regWrite offset size v).mem.wf = true := by
  unfold State.regWrite; dsimp only; (repeat' split) <;> simp [hm]

@[simp] theorem State.jobLinkLoss_mem (s : State) : (State.jobLinkLoss s).mem = s.mem := by
  unfold State.jobLinkLoss; dsimp only; (repeat' split) <;> simp [*]

@[simp] theorem State.opLinkLoss_mem (s : State) (o) : (State.opLinkLoss s o).mem = s.mem := by simp [State.opLinkLoss]

@[simp] theorem State.linkLoss_mem (s : State) : (State.linkLoss s).mem = s.mem := by simp [State.linkLoss]

@[simp] theorem State.linkTrained_mem (s : State) (speed) (width) : (State.linkTrained s speed width).mem = s.mem := by simp [State.linkTrained]

@[simp] theorem State.noteFailure_mem (s : State) (cause) (unit) : (State.noteFailure s cause unit).mem = s.mem := by simp [State.noteFailure]

@[simp] theorem State.startFailed_keep (s : State) (cause) (unit) (hm : s.mem.wf = true) : (State.startFailed s cause unit).mem.wf = true := by
  simp (maxDischargeDepth := 60) [State.startFailed, hm]

@[simp] theorem verifySlots_mem (l) (s : State) : (verifySlots l s).2.mem = s.mem := by
  induction l generalizing s with
  | nil => rfl
  | cons i is ih => unfold verifySlots; dsimp only; split <;> simp [ih]

@[simp] theorem State.endVerify_mem (s : State) : s.endVerify.mem = s.mem := by
  have h := verifySlots_mem s.boot.tryOrder s
  unfold State.endVerify; split <;> rename_i e <;> rw [e] at h <;> simpa using h

@[simp] theorem State.fenceAtStart_mem (s : State) (u) : (State.fenceAtStart s u).mem = s.mem := by simp [State.fenceAtStart]

@[simp] theorem State.endPrepare_keep (s : State) (failed) (hm : s.mem.wf = true) : (State.endPrepare s failed).mem.wf = true := by
  simp (maxDischargeDepth := 60) [State.endPrepare, hm]

@[simp] theorem State.endFill_keep (s : State) (ac) (hm : s.mem.wf = true) : (State.endFill s ac).mem.wf = true := by
  simp (maxDischargeDepth := 60) [State.endFill, hm]

@[simp] theorem State.endDies_keep (s : State) (failed) (hm : s.mem.wf = true) : (State.endDies s failed).mem.wf = true := by
  simp only [State.endDies]; (repeat' split) <;> simp_all

@[simp] theorem State.promote_mem (s : State) : (State.promote s).mem = s.mem := by simp [State.promote]

@[simp] theorem State.becomeReady_mem (s : State) : (State.becomeReady s).mem = s.mem := by simp [State.becomeReady]

@[simp] theorem State.stageDone_keep (s : State) (failed) (ac) (hm : s.mem.wf = true) : (State.stageDone s failed ac).mem.wf = true := by
  unfold State.stageDone; dsimp only; (repeat' split) <;> simp (maxDischargeDepth := 60) [*]

@[simp] theorem State.stageFailed_keep (s : State) (cause) (unit) (ac) (hm : s.mem.wf = true) : (State.stageFailed s cause unit ac).mem.wf = true := by
  simp (maxDischargeDepth := 60) [State.stageFailed, hm]

@[simp] theorem State.managementReset_keep (s : State) (hm : s.mem.wf = true) : (State.managementReset s).mem.wf = true := by
  simp (maxDischargeDepth := 60) [State.managementReset, hm]

@[simp] theorem State.powerUp_mem (s : State) (v) : (State.powerUp s v).mem = s.mem := by simp [State.powerUp]

@[simp] theorem State.shutDown_keep (s : State) (hm : s.mem.wf = true) : (State.shutDown s).mem.wf = true := by
  simp (maxDischargeDepth := 60) [State.shutDown, hm]

@[simp] theorem State.trip_keep (s : State) (hm : s.mem.wf = true) : (State.trip s).mem.wf = true := by
  simp (maxDischargeDepth := 60) [State.trip, hm]

@[simp] theorem State.tripRelease_mem (s : State) (high) : (State.tripRelease s high).mem = s.mem := by simp [State.tripRelease]

@[simp] theorem State.dieUpdate_mem (s : State) (i) (temp) : (State.dieUpdate s i temp).mem = s.mem := by simp [State.dieUpdate]

@[simp] theorem State.senseUpdate_mem (s : State) (t) : (State.senseUpdate s t).mem = s.mem := by simp [State.senseUpdate]

@[simp] theorem State.powerEvents_mem (s : State) (t) : (State.powerEvents s t).mem = s.mem := by simp [State.powerEvents]

@[simp] theorem State.telemetry_keep (s : State) (t) (hm : s.mem.wf = true) : (State.telemetry s t).mem.wf = true := by
  simp (maxDischargeDepth := 60) [State.telemetry, hm]

@[simp] theorem State.smbusRead_mem (s : State) (command) : (State.smbusRead s command).mem = s.mem := by
  unfold State.smbusRead; dsimp only; (repeat' split) <;> simp [*]

@[simp] theorem State.boundary_mem (s : State) (clamp) : (State.boundary s clamp).mem = s.mem := by simp [State.boundary]

@[simp] theorem State.jtagAccess_keep (s : State) (a) (hm : s.mem.wf = true) : (State.jtagAccess s a).mem.wf = true := by
  unfold State.jtagAccess; dsimp only; (repeat' split) <;> simp (maxDischargeDepth := 60) [*]

@[simp] theorem State.jtagSession_keep (s : State) (scope) (l) (hm : s.mem.wf = true) : (State.jtagSession s scope l).mem.wf = true := by
  unfold State.jtagSession; dsimp only; (repeat' split) <;> simp +contextual (maxDischargeDepth := 60) [*]

@[simp] theorem State.doeDiscover_mem (s : State) : (State.doeDiscover s).mem = s.mem := by simp [State.doeDiscover]

@[simp] theorem State.cdat_mem (s : State) : (State.cdat s).mem = s.mem := by simp [State.cdat]

@[simp] theorem State.backInvalidate_mem (s : State) (line) : (State.backInvalidate s line).mem = s.mem := by simp [State.backInvalidate]

@[simp] theorem State.grantLine_mem (s : State) (line) : (State.grantLine s line).mem = s.mem := by simp [State.grantLine]

@[simp] theorem State.serveRead_wf (s : State) (a) (n) (grant) : (State.serveRead s a n grant).mem.wf = s.mem.wf := by
  unfold State.serveRead; dsimp only; (repeat' split) <;> simp [*]

@[simp] theorem State.hostMemRead_wf (s : State) (d) (o) (n) (cached) : (State.hostMemRead s d o n cached).mem.wf = s.mem.wf := by simp [State.hostMemRead]

@[simp] theorem State.retryReads_wf (s : State) : (State.retryReads s).mem.wf = s.mem.wf := by
  unfold State.retryReads; dsimp only; (repeat' split) <;> simp [*]

@[simp] theorem State.hostMemWrite_keep (s : State) (d) (o) (data) (hm : s.mem.wf = true) : (State.hostMemWrite s d o data).mem.wf = true := by
  simp (maxDischargeDepth := 60) [State.hostMemWrite, hm]

@[simp] theorem State.hostSnoopAnswer_mem (s : State) (line) : (State.hostSnoopAnswer s line).mem = s.mem := by simp [State.hostSnoopAnswer]

@[simp] theorem State.hdmProgram_mem (s : State) (d) (base) : (State.hdmProgram s d base).mem = s.mem := by simp [State.hdmProgram]

@[simp] theorem State.clockStop_mem (s : State) (u) : (State.clockStop s u).mem = s.mem := by simp [State.clockStop]

@[simp] theorem State.powerGate_mem (s : State) (u) : (State.powerGate s u).mem = s.mem := by simp [State.powerGate]

@[simp] theorem State.markInvalid_mem (s : State) (l) : (State.markInvalid s l).mem = s.mem := by simp [State.markInvalid]

@[simp] theorem State.opAbandoned_mem (s : State) (unit) (dests) : (State.opAbandoned s unit dests).mem = s.mem := by simp [State.opAbandoned]

@[simp] theorem State.spoilBank_mem (s : State) (x) : (State.spoilBank s x).mem = s.mem := by
  unfold State.spoilBank; dsimp only; (repeat' split) <;> simp [*]

@[simp] theorem State.abandon_mem (s : State) (p) (d) : (State.abandon s p d).mem = s.mem := by simp [State.abandon]

@[simp] theorem State.fencedReply_mem (s : State) (r) : (State.fencedReply s r).mem = s.mem := by
  unfold State.fencedReply; dsimp only; (repeat' split) <;> simp [*]

@[simp] theorem State.cdcTimeoutOp_mem (s : State) (source) (far) (r) : (State.cdcTimeoutOp s source far r).mem = s.mem := by simp [State.cdcTimeoutOp]

@[simp] theorem State.flushLink_mem (s : State) (i) : (State.flushLink s i).mem = s.mem := by simp [State.flushLink]

@[simp] theorem State.crcFail_mem (s : State) (e) : (State.crcFail s e).mem = s.mem := by simp [State.crcFail]

@[simp] theorem State.retrainDone_mem (s : State) (i) (ok) : (State.retrainDone s i ok).mem = s.mem := by simp [State.retrainDone]

@[simp] theorem State.phyDone_mem (s : State) (n) : (State.phyDone s n).mem = s.mem := by simp [State.phyDone]

@[simp] theorem State.fenceControl_mem (s : State) (c) : (State.fenceControl s c).mem = s.mem := by simp [State.fenceControl]

@[simp] theorem State.restartFailed_mem (s : State) (c) : (State.restartFailed s c).mem = s.mem := by
  unfold State.restartFailed; dsimp only; (repeat' split) <;> simp [*]

@[simp] theorem State.controlWatchdog_mem (s : State) (c) (pc) : (State.controlWatchdog s c pc).mem = s.mem := by
  unfold State.controlWatchdog; dsimp only; (repeat' split) <;> simp [*]

@[simp] theorem State.restartDone_mem (s : State) (c) : (State.restartDone s c).mem = s.mem := by simp [State.restartDone]

@[simp] theorem State.quietDone_mem (s : State) (c) : (State.quietDone s c).mem = s.mem := by simp [State.quietDone]

@[simp] theorem State.remoteTimeout_mem (s : State) (offset) : (State.remoteTimeout s offset).mem = s.mem := by simp [State.remoteTimeout]

@[simp] theorem State.refreshEnd_wf (s : State) (bonded) (unit) (bank) : (State.refreshEnd s bonded unit bank).mem.wf = s.mem.wf := by simp [State.refreshEnd]

@[simp] theorem State.readAt_wf (s : State) (direct) (site) (a) (n) (t) : (State.readAt s direct site a n t).2.mem.wf = s.mem.wf := by
  unfold State.readAt; dsimp only; (repeat' split) <;> simp [*]

@[simp] theorem State.writeAt_keep (s : State) (direct) (site) (a) (bs) (t) (hm : s.mem.wf = true) : (State.writeAt s direct site a bs t).2.mem.wf = true := by
  unfold State.writeAt; dsimp only; (repeat' split) <;> simp (maxDischargeDepth := 60) [*]

@[simp] theorem State.readBlocks_wf (s : State) (t) (site) (L) (present) (fmts) (ofs) : (State.readBlocks s t site L present fmts ofs).2.2.mem.wf = s.mem.wf := by
  unfold State.readBlocks; dsimp only; (repeat' split) <;> simp [*]

@[simp] theorem State.countBy_mem (s : State) (layer) (f) : (State.countBy s layer f).mem = s.mem := by simp [State.countBy]

@[simp] theorem State.count_mem (s : State) (layer) (k) (n) : (State.count s layer k n).mem = s.mem := by simp [State.count]

@[simp] theorem State.concern_mem (s : State) (layer) (code) (L) : (State.concern s layer code L).mem = s.mem := by simp [State.concern]

@[simp] theorem State.refetch_mem (s : State) (layer) (L) : (State.refetch s layer L).mem = s.mem := by simp [State.refetch]

@[simp] theorem State.settleTile_mem (s : State) (t) (L) : (State.settleTile s t L).mem = s.mem := rfl

@[simp] theorem State.readStreams_wf (s : State) (t) (site) (L) : (State.readStreams s t site L).2.2.2.mem.wf = s.mem.wf := by
  unfold State.readStreams; dsimp only; (repeat' split) <;> simp [*]

@[simp] theorem State.readScaled_wf (s : State) (t) (site) (L) (written) : (State.readScaled s t site L written).2.2.mem.wf = s.mem.wf := by
  unfold State.readScaled; dsimp only; (repeat' split) <;> simp [*]

@[simp] theorem State.readPlain_wf (s : State) (t) (site) (L) : (State.readPlain s t site L).2.2.mem.wf = s.mem.wf := by simp [State.readPlain]

@[simp] theorem State.readTile_wf (s : State) (t) (site) (L) (written) : (State.readTile s t site L written).2.2.mem.wf = s.mem.wf := by
  unfold State.readTile; dsimp only; (repeat' split) <;> simp [*]

@[simp] theorem State.readTiles_wf (s : State) (t site written ls acc) : (s.readTiles t site written ls acc).2.mem.wf = s.mem.wf := by
  induction ls generalizing s acc with
  | nil => rfl
  | cons L ls ih => unfold State.readTiles; dsimp only; split <;> simp [ih]

@[simp] theorem State.putRow_mem (s : State) (t) (L) (row) (a) (bytes) (parts) : (State.putRow s t L row a bytes parts).mem = s.mem := by simp [State.putRow]

@[simp] theorem State.flushRows_keep (s : State) (site) (hm : s.mem.wf = true) : (State.flushRows s site).2.mem.wf = true := by
  simp only [State.flushRows]; (repeat' split) <;> simp_all

@[simp] theorem State.putStreams_keep (s : State) (t) (site) (L) (b) (hm : s.mem.wf = true) : (State.putStreams s t site L b).2.mem.wf = true := by
  unfold State.putStreams; dsimp only; (repeat' split) <;> simp (maxDischargeDepth := 60) [*]

@[simp] theorem State.writeStreams_keep (s : State) (t) (site) (L) (b) (hm : s.mem.wf = true) : (State.writeStreams s t site L b).2.mem.wf = true := by
  unfold State.writeStreams; dsimp only; (repeat' split) <;> simp +contextual (maxDischargeDepth := 60) [*]

@[simp] theorem State.putCodes_mem (s : State) (t) (L) (row) (col) (codes) : (State.putCodes s t L row col codes).mem = s.mem := by
  unfold State.putCodes; dsimp only; (repeat' split) <;> simp [*]

@[simp] theorem State.noteInvalid_mem (s : State) (layer) (L) (g) : (State.noteInvalid s layer L g).mem = s.mem := by simp [State.noteInvalid]

@[simp] theorem State.noteNonfinite_mem (s : State) (layer) (L) (B) : (State.noteNonfinite s layer L B).mem = s.mem := by simp [State.noteNonfinite]

@[simp] theorem State.noteDesync_mem (s : State) (layer) (L) : (State.noteDesync s layer L).mem = s.mem := by simp [State.noteDesync]

@[simp] theorem State.opFail_mem (s : State) (unit) (f) (layer) (tile) (dests) : (State.opFail s unit f layer tile dests).mem = s.mem := by
  simp only [State.opFail]; (repeat' split) <;> simp_all

@[simp] theorem State.raiseNumerics_mem (s : State) : (State.raiseNumerics s).mem = s.mem := by simp [State.raiseNumerics]

@[simp] theorem State.setCore_mem (s : State) (x) : (State.setCore s x).mem = s.mem := by simp [State.setCore]

@[simp] theorem State.setSeq_mem (s : State) (x) : (State.setSeq s x).mem = s.mem := by simp [State.setSeq]

@[simp] theorem State.spanStep_mem (s : State) (p) : (State.spanStep s p).2.mem = s.mem := by
  unfold State.spanStep; dsimp only; (repeat' split) <;> simp [*]

@[simp] theorem State.noteDests_mem (s : State) (p) (dests) : (State.noteDests s p dests).mem = s.mem := by simp [State.noteDests]

@[simp] theorem State.runTiles_mem (s : State) (i) (f) (h : ∀ s, (f s).mem = s.mem) : (State.runTiles s i f).mem = s.mem := by
  unfold State.runTiles; dsimp only; (repeat' split) <;> simp [*]

@[simp] theorem State.runTiles_wf (s : State) (i) (f) (h : ∀ s, (f s).mem.wf = s.mem.wf) : (State.runTiles s i f).mem.wf = s.mem.wf := by
  unfold State.runTiles; dsimp only; (repeat' split) <;> simp [*]

@[simp] theorem State.runTiles_keep (s : State) (i) (f) (h : ∀ s, s.mem.wf = true → (f s).mem.wf = true) (hm : s.mem.wf = true) : (State.runTiles s i f).mem.wf = true := by
  unfold State.runTiles; dsimp only; (repeat' split) <;> simp +contextual (maxDischargeDepth := 60) [*, answer]

@[simp] theorem State.noteEnd_mem (t : State) (p) (i) (b : State) : (State.noteEnd t p i b).mem = t.mem := by
  unfold State.noteEnd; dsimp only; (repeat' split) <;> simp [*]

@[simp] theorem State.issue_mem (s : State) (p) (i) (f) (h : ∀ s, (f s).mem = s.mem) : (State.issue s p i f).mem = s.mem := by
  unfold State.issue; dsimp only; (repeat' split) <;> simp [*]

@[simp] theorem State.issue_wf (s : State) (p) (i) (f) (h : ∀ s, (f s).mem.wf = s.mem.wf) : (State.issue s p i f).mem.wf = s.mem.wf := by
  unfold State.issue; dsimp only; (repeat' split) <;> simp [*]

@[simp] theorem State.issue_keep (s : State) (p) (i) (f) (h : ∀ s, s.mem.wf = true → (f s).mem.wf = true) (hm : s.mem.wf = true) : (State.issue s p i f).mem.wf = true := by
  unfold State.issue; dsimp only; (repeat' split) <;> simp +contextual (maxDischargeDepth := 60) [*, answer]

@[simp] theorem State.resume_wf (s : State) (body) (h : ∀ i f, body i = some f → ∀ s, (f s).mem.wf = s.mem.wf) : (State.resume s body).mem.wf = s.mem.wf := by
  unfold State.resume
  refine (foldl_wf _ _ _ ?_).trans rfl
  intro s i
  cases hb : body i <;> cases opProg i <;> simp
  all_goals exact State.runTiles_wf _ _ _ (h _ _ hb)

@[simp] theorem State.resume_keep (s : State) (body) (h : ∀ i f, body i = some f → ∀ s, s.mem.wf = true → (f s).mem.wf = true) (hm : s.mem.wf = true) : (State.resume s body).mem.wf = true := by
  unfold State.resume
  refine foldl_keep _ _ _ ?_ hm
  intro s i hm
  cases hb : body i <;> cases opProg i <;> simp [hm]
  all_goals exact State.runTiles_keep _ _ _ (h _ _ hb) hm

@[simp] theorem State.addToken_mem (s : State) (die) (t) : (State.addToken s die t).mem = s.mem := by simp [State.addToken]

@[simp] theorem State.signalToken_mem (s : State) (c) (h) (die) (t) (atDone) : (State.signalToken s c h die t atDone).mem = s.mem := by
  unfold State.signalToken; dsimp only; (repeat' split) <;> simp [*]

@[simp] theorem State.setBank_mem (s : State) (c) (b) : (State.setBank s c b).mem = s.mem := by simp [State.setBank]

@[simp] theorem State.fileProduct_mem (s : State) (k) (all) : (State.fileProduct s k all).mem = s.mem := by simp [State.fileProduct]

@[simp] theorem State.failProduct_mem (s : State) (k) (site) (layer) (e) : (State.failProduct s k site layer e).mem = s.mem := by simp [State.failProduct]

@[simp] theorem State.product_wf (s : State) (c) (h) (fpath) (pairs) (a) : (State.product s c h fpath pairs a).mem.wf = s.mem.wf := by
  unfold State.product; dsimp only; (repeat' split) <;> simp [*]

@[simp] theorem fMmOp_wf (c) (h) (a) (s : State) : (fMmOp c h a s).mem.wf = s.mem.wf := by simp [fMmOp]

@[simp] theorem bMmIgOp_wf (c) (h) (a) (s : State) : (bMmIgOp c h a s).mem.wf = s.mem.wf := by simp [bMmIgOp]

@[simp] theorem bMmWgOp_wf (c) (h) (a) (s : State) : (bMmWgOp c h a s).mem.wf = s.mem.wf := by simp [bMmWgOp]

@[simp] theorem State.noteStored_mem (s : State) (a) (n) (inv) : (State.noteStored s a n inv).mem = s.mem := by simp [State.noteStored]

@[simp] theorem State.markFinal_mem (s : State) (t) (L) : (State.markFinal s t L).mem = s.mem := by simp [State.markFinal]

@[simp] theorem State.storePlan_keep (s : State) (p) (r) (off) (bytes) (hm : s.mem.wf = true) : (State.storePlan s p r off bytes).mem.wf = true := by
  unfold State.storePlan; dsimp only; (repeat' split) <;> simp (maxDischargeDepth := 60) [*]

@[simp] theorem State.storeTracker_keep (s : State) (key) (hm : s.mem.wf = true) : (State.storeTracker s key).mem.wf = true := by
  unfold State.storeTracker; dsimp only; (repeat' split) <;> simp (maxDischargeDepth := 60) [*]

@[simp] theorem State.storeTrackers_keep (s : State) (hm : s.mem.wf = true) : (State.storeTrackers s).mem.wf = true := by
  simp only [State.storeTrackers]; (repeat' split) <;> simp_all

@[simp] theorem State.storeTotals_keep (s : State) (layer) (hm : s.mem.wf = true) : (State.storeTotals s layer).mem.wf = true := by
  unfold State.storeTotals; (repeat' split) <;> simp (maxDischargeDepth := 60) [*]

@[simp] theorem State.readScale_wf (s : State) (site) (t) (row) : (State.readScale s site t row).2.2.mem.wf = s.mem.wf := by
  unfold State.readScale; dsimp only; (repeat' split) <;> simp [*]

@[simp] theorem State.writeScale_keep (s : State) (site) (t) (row) (v) (hm : s.mem.wf = true) : (State.writeScale s site t row v).2.mem.wf = true := by
  unfold State.writeScale; dsimp only; (repeat' split) <;> simp (maxDischargeDepth := 60) [*]

@[simp] theorem State.prepFor_wf (s : State) (k) (site) (i) : (State.prepFor s k site i).2.2.mem.wf = s.mem.wf := by
  unfold State.prepFor; dsimp only; (repeat' split) <;> simp [*]

@[simp] theorem State.observe_keep (s : State) (p) (t) (L) (mx) (hm : s.mem.wf = true) : (State.observe s p t L mx).mem.wf = true := by
  unfold State.observe; dsimp only; (repeat' split) <;> simp (maxDischargeDepth := 60) [*]

@[simp] theorem State.finalCounts_mem (s : State) (layer) (o) : (State.finalCounts s layer o).mem = s.mem := by simp [State.finalCounts]

@[simp] theorem State.rowStats_mem (s : State) (k) (L) (tile) : (State.rowStats s k L tile).mem = s.mem := by simp [State.rowStats]

@[simp] theorem State.wroteOp_mem (s : State) (unit) (layer) (L) (dests) (w) : (State.wroteOp s unit layer L dests w).2.mem = s.mem := by simp [State.wroteOp]

@[simp] theorem eachTile_wf (f : Nat → State → Bool × State) (l) (s : State) (h : ∀ L s, (f L s).2.mem.wf = s.mem.wf) : (eachTile f l s).mem.wf = s.mem.wf := by
  induction l generalizing s with
  | nil => rfl
  | cons L ls ih => unfold eachTile; split <;> simp [h, ih]

@[simp] theorem eachTile_keep (f : Nat → State → Bool × State) (l) (s : State) (h : ∀ L s, s.mem.wf = true → (f L s).2.mem.wf = true) (hm : s.mem.wf = true) : (eachTile f l s).mem.wf = true := by
  induction l generalizing s with
  | nil => exact hm
  | cons L ls ih => unfold eachTile; split <;> simp [h, ih, hm]

@[simp] theorem State.endWrites_keep (s : State) (site) (layer) (L) (dests) (hm : s.mem.wf = true) : (State.endWrites s site layer L dests).mem.wf = true := by simp (maxDischargeDepth := 60) [State.endWrites, hm]

@[simp] theorem State.emitTile_keep (s : State) (k) (site) (L) (mx) (o) (slag) (coarse) (clipped) (nonfin) (inv) (hm : s.mem.wf = true) : (State.emitTile s k site L mx o slag coarse clipped nonfin inv).2.mem.wf = true := by
  unfold State.emitTile; dsimp only; split <;> simp (maxDischargeDepth := 60) [hm]

@[simp] theorem State.nonfinite_mem (s : State) (unit) (layer) (L) (blocks) (n) : (State.nonfinite s unit layer L blocks n).mem = s.mem := by
  unfold State.nonfinite; dsimp only; (repeat' split) <;> simp [*]

@[simp] theorem State.keepTile_keep (s : State) (p) (c) (site) (els) (hm : s.mem.wf = true) : (State.keepTile s p c site els).mem.wf = true := by
  simp only [State.keepTile]; (repeat' split) <;> simp_all

@[simp] theorem State.firstAttempt_keep (s : State) (p) (k) (c) (site) (kind) (L) (cfgIdx) (els) (hm : s.mem.wf = true) : (State.firstAttempt s p k c site kind L cfgIdx els).2.mem.wf = true := by
  unfold State.firstAttempt; dsimp only; simp (maxDischargeDepth := 60) [hm]

@[simp] theorem State.writeNode_keep (s : State) (direct) (site) (t) (n) (L) (a) (size) (els) (hm : s.mem.wf = true) : (State.writeNode s direct site t n L a size els).2.mem.wf = true := by
  unfold State.writeNode; refine foldl_snd_keep _ _ _ ?_ hm; intro s r hm; dsimp only
  refine ite_snd_keep (foldl_snd_keep _ _ _ (fun _ _ h => by simp [h]) hm) ?_
  exact State.writeAt_keep _ _ _ _ _ _ (foldl_snd_keep _ _ _ (fun _ _ h => by simp [h]) hm)

@[simp] theorem State.putPlain_mem (s : State) (t) (L) (els) : (State.putPlain s t L els).mem = s.mem := by
  unfold State.putPlain; dsimp only; (repeat' split) <;> simp [*]

@[simp] theorem State.noteFed_mem (s : State) (t) (L) (inv) : (State.noteFed s t L inv).mem = s.mem := by simp [State.noteFed]

@[simp] theorem State.emitPlain_keep (s : State) (p) (k) (site) (L) (els) (hm : s.mem.wf = true) : (State.emitPlain s p k site L els).2.mem.wf = true := by
  unfold State.emitPlain; dsimp only; (repeat' split) <;> simp (maxDischargeDepth := 60) [hm]

@[simp] theorem State.readCodes_wf (s : State) (site) (n) (tensor) (L) : (State.readCodes s site n tensor L).2.2.mem.wf = s.mem.wf := by
  unfold State.readCodes; dsimp only; (repeat' split) <;> simp [*]

@[simp] theorem State.readRes_wf (s : State) (need) (idx) (site) (L) : (State.readRes s need idx site L).2.2.mem.wf = s.mem.wf := by
  unfold State.readRes; dsimp only; (repeat' split) <;> simp [*]

@[simp] theorem State.drainReads_wf (s : State) (p) (k) (site) (L) : (State.drainReads s p k site L).2.2.2.mem.wf = s.mem.wf := by
  unfold State.drainReads; dsimp only; (repeat' split) <;> simp [*]

@[simp] theorem State.tilePreps_wf (s : State) (k) (site) (L) : (State.tilePreps s k site L).2.2.mem.wf = s.mem.wf := by
  unfold State.tilePreps; dsimp only; (repeat' split) <;> simp [*]

@[simp] theorem State.keepScales_keep (s : State) (k) (site) (preps) (hm : s.mem.wf = true) : (State.keepScales s k site preps).2.mem.wf = true := by
  unfold State.keepScales; refine foldl_snd_keep _ _ _ ?_ hm; intro s e hm; split <;> simp [hm]

@[simp] theorem State.writeCodes_keep (s : State) (k) (site) (L) (flat) (hm : s.mem.wf = true) : (State.writeCodes s k site L flat).2.mem.wf = true := by
  unfold State.writeCodes; dsimp only; (repeat' split) <;> simp (maxDischargeDepth := 60) [*]

@[simp] theorem State.stashXhat_keep (s : State) (p) (k) (c) (site) (cfgIdx) (L) (x) (hm : s.mem.wf = true) : (State.stashXhat s p k c site cfgIdx L x).2.mem.wf = true := by
  unfold State.stashXhat; dsimp only; (repeat' split) <;> simp (maxDischargeDepth := 60) [*]

@[simp] theorem State.drainTile_keep (s : State) (p) (k) (c) (site) (cfgIdx) (L) (root) (hm : s.mem.wf = true) : (State.drainTile s p k c site cfgIdx L root).2.mem.wf = true := by
  unfold State.drainTile; dsimp only; (repeat' split) <;> simp (maxDischargeDepth := 60) [*]

@[simp] theorem State.drainPairs_keep (s : State) (p) (k) (site) (layer) (L) (root) (hm : s.mem.wf = true) : (State.drainPairs s p k site layer L root).2.mem.wf = true := by
  unfold State.drainPairs; dsimp only; (repeat' split) <;> simp (maxDischargeDepth := 60) [*]

@[simp] theorem State.drain_keep (s : State) (c) (h) (engine) (bank) (first) (tiles) (hm : s.mem.wf = true) : (State.drain s c h engine bank first tiles).mem.wf = true := by
  unfold State.drain; dsimp only; (repeat' split) <;> simp +contextual (maxDischargeDepth := 60) [*]

@[simp] theorem State.convertOp_keep (s : State) (c) (h) (tensor) (first) (tiles) (hm : s.mem.wf = true) : (State.convertOp s c h tensor first tiles).mem.wf = true := by
  unfold State.convertOp; dsimp only; (repeat' split)
  · refine State.endWrites_keep _ _ _ _ _ (eachTile_keep _ _ _ (fun L s hm => ?_) (by simp [hm]))
    exact ite_snd_keep (by simp [hm]) (by simp [hm])
  all_goals simp [hm]

@[simp] theorem State.recomputeTile_keep (s : State) (c) (r) (hm : s.mem.wf = true) : (State.recomputeTile s c r).mem.wf = true := by
  unfold State.recomputeTile; dsimp only; (repeat' split) <;> simp (maxDischargeDepth := 60) [*]

@[simp] theorem State.recomputeNext_keep (s : State) (c) (hm : s.mem.wf = true) : (State.recomputeNext s c).mem.wf = true := by
  unfold State.recomputeNext; dsimp only; (repeat' split) <;> simp (maxDischargeDepth := 60) [*]

@[simp] theorem State.budgetMiss_mem (s : State) (c) (r) : (State.budgetMiss s c r).mem = s.mem := by
  unfold State.budgetMiss; dsimp only; (repeat' split) <;> simp [*]

@[simp] theorem State.closeCore_keep (s : State) (c) (hm : s.mem.wf = true) : (State.closeCore s c).mem.wf = true := by
  unfold State.closeCore; dsimp only; (repeat' split) <;> simp +contextual (maxDischargeDepth := 60) [*]

@[simp] theorem drainCfgOp_mem (c) (h) (cfg) (s : State) : (drainCfgOp c h cfg s).mem = s.mem := by simp [drainCfgOp]

@[simp] theorem drainOp_keep (c) (h) (engine) (bank) (first) (tiles) (s : State) (hm : s.mem.wf = true) : (drainOp c h engine bank first tiles s).mem.wf = true := by
  unfold drainOp; refine State.issue_keep _ _ _ _ (fun s hm => ?_) hm; (repeat' split) <;> simp (maxDischargeDepth := 60) [*]

@[simp] theorem convertTilesOp_keep (c) (h) (tensor) (first) (tiles) (s : State) (hm : s.mem.wf = true) : (convertTilesOp c h tensor first tiles s).mem.wf = true := by
  unfold convertTilesOp; refine State.issue_keep _ _ _ _ (fun s hm => ?_) hm; (repeat' split) <;> simp (maxDischargeDepth := 60) [*]

@[simp] theorem tileRecomputeOp_keep (c) (s : State) (hm : s.mem.wf = true) : (tileRecomputeOp c s).mem.wf = true := by
  simp (maxDischargeDepth := 60) [tileRecomputeOp, hm]

@[simp] theorem State.putTile_keep (s : State) (t) (site) (snoop) (L) (d) (inv) (hm : s.mem.wf = true) : (State.putTile s t site snoop L d inv).2.mem.wf = true := by
  unfold State.putTile; dsimp only; (repeat' split) <;> simp (maxDischargeDepth := 60) [*]

@[simp] theorem State.endMove_keep (s : State) (site) (snoop) (layer) (L) (dests) (hm : s.mem.wf = true) : (State.endMove s site snoop layer L dests).mem.wf = true := by simp (maxDischargeDepth := 60) [State.endMove, hm]

@[simp] theorem State.moveTiles_keep (s : State) (c) (h) (a) (src) (dst) (hm : s.mem.wf = true) : (State.moveTiles s c h a src dst).mem.wf = true := by
  unfold State.moveTiles; dsimp only; refine ite_keep (by simp [hm]) ?_; split
  · refine State.endMove_keep _ _ _ _ _ _ (eachTile_keep _ _ _ (fun L s hm => ?_) (by simp [hm]))
    exact ite_snd_keep (by simp [hm]) (by simp [hm])
  · simp [hm]

@[simp] theorem stashPutOp_keep (c) (h) (a) (s : State) (hm : s.mem.wf = true) : (stashPutOp c h a s).mem.wf = true := by
  unfold stashPutOp; refine State.issue_keep _ _ _ _ (fun s hm => ?_) hm; (repeat' split) <;> simp (maxDischargeDepth := 60) [*]

@[simp] theorem stashGetOp_keep (c) (h) (a) (s : State) (hm : s.mem.wf = true) : (stashGetOp c h a s).mem.wf = true := by
  unfold stashGetOp; refine State.issue_keep _ _ _ _ (fun s hm => ?_) hm; (repeat' split) <;> simp (maxDischargeDepth := 60) [*]

@[simp] theorem spillOp_keep (c) (h) (a) (read) (s : State) (hm : s.mem.wf = true) : (spillOp c h a read s).mem.wf = true := by
  unfold spillOp; refine State.issue_keep _ _ _ _ (fun s hm => ?_) hm; (repeat' split) <;> simp (maxDischargeDepth := 60) [*]

@[simp] theorem State.readNode_wf (s : State) (site) (pairs) (t) (n) (L) (a) (direct) : (State.readNode s site pairs t n L a direct).2.2.mem.wf = s.mem.wf := by
  unfold State.readNode; dsimp only; (repeat' split) <;> simp [*]

@[simp] theorem State.readNodes_wf (s : State) (site) (pairs) (t) (L0) (a) (tiles) (direct) : (State.readNodes s site pairs t L0 a tiles direct).2.2.mem.wf = s.mem.wf := by
  unfold State.readNodes; dsimp only; (repeat' split) <;> simp [*]

@[simp] theorem State.noteRoot_mem (s : State) (e) (site) : (State.noteRoot s e site).mem = s.mem := by
  unfold State.noteRoot; (repeat' split) <;> simp [*]

@[simp] theorem State.writeParent_keep (s : State) (e) (site) (a) (b) (bad) (inv) (hm : s.mem.wf = true) : (State.writeParent s e site a b bad inv).mem.wf = true := by
  simp only [State.writeParent]; (repeat' split) <;> simp_all

@[simp] theorem State.nodeAdd_keep (s : State) (c) (h) (entry) (hm : s.mem.wf = true) : (State.nodeAdd s c h entry).mem.wf = true := by
  unfold State.nodeAdd; (repeat' split) <;> simp [hm]

@[simp] theorem nodeAddOp_keep (c) (h) (entry) (s : State) (hm : s.mem.wf = true) : (nodeAddOp c h entry s).mem.wf = true := by
  unfold nodeAddOp; refine State.issue_keep _ _ _ _ (fun s hm => ?_) hm; (repeat' split) <;> simp (maxDischargeDepth := 60) [*]

@[simp] theorem State.linkReduce_keep (s : State) (c) (h) (entry) (hm : s.mem.wf = true) : (State.linkReduce s c h entry).mem.wf = true := by
  unfold State.linkReduce; dsimp only; (repeat' split) <;> simp (maxDischargeDepth := 60) [*]

@[simp] theorem linkReduceOp_keep (c) (h) (entry) (s : State) (hm : s.mem.wf = true) : (linkReduceOp c h entry s).mem.wf = true := by
  unfold linkReduceOp; refine State.issue_keep _ _ _ _ (fun s hm => ?_) hm; (repeat' split) <;> simp (maxDischargeDepth := 60) [*]

@[simp] theorem State.arriveTile_mem (s : State) (far) (t) (L) (d) : (State.arriveTile s far t L d).mem = s.mem := by
  unfold State.arriveTile; dsimp only; (repeat' split) <;> simp [*]

@[simp] theorem State.arriveNode_mem (s : State) (far) (pairs) (t) (L0) (tiles) : (State.arriveNode s far pairs t L0 tiles).mem = s.mem := by
  unfold State.arriveNode; dsimp only; (repeat' split) <;> simp [*]

@[simp] theorem State.keepStream_mem (s : State) (l) : (State.keepStream s l).mem = s.mem := by simp [State.keepStream]

@[simp] theorem State.sendNode_wf (s : State) (site) (far) (tensor) (first) (tiles) (e) (dests) : (State.sendNode s site far tensor first tiles e dests).mem.wf = s.mem.wf := by
  unfold State.sendNode; dsimp only; (repeat' split) <;> simp [*]

@[simp] theorem State.sendTiles_keep (s : State) (site) (far) (tensor) (first) (tiles) (dests) (hm : s.mem.wf = true) : (State.sendTiles s site far tensor first tiles dests).mem.wf = true := by
  unfold State.sendTiles; dsimp only; (repeat' split)
  case h_1.isFalse => exact State.endWrites_keep _ _ _ _ _ (eachTile_keep _ _ _ (fun L s hm => by simp [hm]) (by simp [hm]))
  all_goals simp [hm]

@[simp] theorem State.linkSend_keep (s : State) (c) (h) (linkEnd) (tensor) (first) (tiles) (hm : s.mem.wf = true) : (State.linkSend s c h linkEnd tensor first tiles).mem.wf = true := by
  unfold State.linkSend; dsimp only; (repeat' split) <;> simp +contextual (maxDischargeDepth := 60) [*]

@[simp] theorem State.runReduces_keep (s : State) (hm : s.mem.wf = true) : (s.runReduces).mem.wf = true := by
  refine State.resume_keep _ _ (fun i f h s hm => ?_) hm; split at h <;> simp at h <;> subst h <;> simp [hm]

@[simp] theorem linkSendOp_keep (c) (h) (linkEnd) (tensor) (first) (tiles) (s : State) (hm : s.mem.wf = true) : (linkSendOp c h linkEnd tensor first tiles s).mem.wf = true := by
  exact State.runReduces_keep _ (State.issue_keep _ _ _ _ (fun s hm => State.linkSend_keep _ _ _ _ _ _ _ hm) hm)

@[simp] theorem tokenWaitOp_mem (c) (h) (token) (count) (s : State) : (tokenWaitOp c h token count s).mem = s.mem := by simp [tokenWaitOp]

@[simp] theorem State.waitEnds_mem (s : State) (c) : (State.waitEnds s c).mem = s.mem := by
  unfold State.waitEnds; dsimp only; (repeat' split) <;> simp [*]

@[simp] theorem tokenWaitTimeoutOp_mem (c) (s : State) : (tokenWaitTimeoutOp c s).mem = s.mem := by simp [tokenWaitTimeoutOp]

@[simp] theorem tokenSignalOp_mem (c) (h) (die) (token) (atDone) (s : State) : (tokenSignalOp c h die token atDone s).mem = s.mem := by simp [tokenSignalOp]

@[simp] theorem tokenArrivalOp_mem (die) (token) (s : State) : (tokenArrivalOp die token s).mem = s.mem := by
  simp only [tokenArrivalOp]; (repeat' split) <;> simp_all

@[simp] theorem recomputeAltOp_mem (c) (h) (flag) (mask) (count) (s : State) : (recomputeAltOp c h flag mask count s).mem = s.mem := by simp [recomputeAltOp]

@[simp] theorem State.urgentPoint_mem (s : State) : (State.urgentPoint s).mem = s.mem := by
  unfold State.urgentPoint; dsimp only; (repeat' split) <;> simp [*]

@[simp] theorem suspendPointOp_mem (c) (h) (point) (s : State) : (suspendPointOp c h point s).mem = s.mem := by simp [suspendPointOp]

@[simp] theorem loopOp_mem (p) (x1) (outer) (count) (increment) (s : State) : (loopOp p x1 outer count increment s).mem = s.mem := by simp [loopOp]

@[simp] theorem endloopOp_mem (p) (s : State) : (endloopOp p s).mem = s.mem := by
  unfold endloopOp; dsimp only; (repeat' split) <;> simp [*]

@[simp] theorem opAbandonOp_mem (p) (d) (hostError) (s : State) : (opAbandonOp p d hostError s).mem = s.mem := by
  unfold opAbandonOp; dsimp only; (repeat' split) <;> simp [*]

@[simp] theorem State.wroteUpdate_mem (s : State) (site) (t) (L) (w) : (State.wroteUpdate s site t L w).mem = s.mem := by simp [State.wroteUpdate]

@[simp] theorem State.readParam_wf (s : State) (md) (t) (n) (r) (moments) (k) : (State.readParam s md t n r moments k).2.mem.wf = s.mem.wf := by
  unfold State.readParam; dsimp only; (repeat' split) <;> simp [*]

@[simp] theorem State.lateCount_mem (s : State) (layer) (k) (code) (n) (L) : (State.lateCount s layer k code n L).mem = s.mem := by simp [State.lateCount]

@[simp] theorem State.lateNonfinite_mem (s : State) (unit) (layer) (L) (blocks) (n) : (State.lateNonfinite s unit layer L blocks n).mem = s.mem := by
  unfold State.lateNonfinite; dsimp only; (repeat' split) <;> simp [*]

@[simp] theorem State.updateParam_keep (s : State) (p) (u) (layer) (pass) (num) (t) (n) (k) (hm : s.mem.wf = true) : (State.updateParam s p u layer pass num t n k).mem.wf = true := by
  unfold State.updateParam; split <;> simp (maxDischargeDepth := 60) [hm]

@[simp] theorem State.sendMaster_wf (s : State) (md) (t) (n) (k) (r) : (State.sendMaster s md t n k r).mem.wf = s.mem.wf := by
  unfold State.sendMaster; dsimp only; (repeat' split) <;> simp [*]

@[simp] theorem State.putColSums_mem (s : State) (t) (n) (L) (o) : (State.putColSums s t n L o).mem = s.mem := by simp [State.putColSums]

@[simp] theorem State.requantise_keep (s : State) (p) (u) (layer) (t) (L) (hm : s.mem.wf = true) : (State.requantise s p u layer t L).mem.wf = true := by
  simp (maxDischargeDepth := 60) [State.requantise, hm]

@[simp] theorem State.forwardCopy_keep (s : State) (p) (u) (layer) (first) (count) (e) (hm : s.mem.wf = true) : (State.forwardCopy s p u layer first count e).mem.wf = true := by
  unfold State.forwardCopy; dsimp only; refine ite_keep (foldl_keep _ _ _ (fun _ _ h => by split <;> exact h) hm) ?_
  split
  · exact foldl_keep _ _ _ (fun _ _ h => State.requantise_keep _ _ _ _ _ _ h) hm
  · exact hm

@[simp] theorem State.masterWork_keep (s : State) (p) (u) (layer) (pass) (step) (first) (count) (hm : s.mem.wf = true) : (State.masterWork s p u layer pass step first count).mem.wf = true := by
  unfold State.masterWork; refine foldl_keep _ _ _ ?_ hm; intro s i hm; dsimp only; (repeat' split) <;> simp (maxDischargeDepth := 60) [hm]

@[simp] theorem State.updateBody_keep (s : State) (u h a) (hm : s.mem.wf = true) : (s.updateBody u h a).mem.wf = true := by
  simp only [State.updateBody]; (repeat' split) <;> simp_all

@[simp] theorem State.runSends_keep (s : State) (hm : s.mem.wf = true) : (State.runSends s).mem.wf = true := by
  refine State.resume_keep _ _ (fun i f h s hm => ?_) hm; split at h <;> simp at h; obtain ⟨-, rfl⟩ := h; simp [hm]

@[simp] theorem updateOp_keep (u) (h) (a) (s : State) (hm : s.mem.wf = true) : (updateOp u h a s).mem.wf = true := by
  exact State.runSends_keep _ (State.issue_keep _ _ _ _ (fun s hm => State.updateBody_keep _ _ _ _ hm) hm)

@[simp] theorem State.settled_mem (s : State) : (State.settled s).mem = s.mem := by simp [State.settled]

@[simp] theorem State.copyRange_keep (s : State) (src) (dst) (n) (hm : s.mem.wf = true) : (State.copyRange s src dst n).mem.wf = true := by
  simp (maxDischargeDepth := 60) [State.copyRange, hm]

@[simp] theorem State.moveStores_keep (s : State) (old) (new) (hm : s.mem.wf = true) : (State.moveStores s old new).mem.wf = true := by
  unfold State.moveStores; dsimp only; (repeat' split) <;> simp +contextual (maxDischargeDepth := 60) [*]

@[simp] theorem State.replacePattern_keep (s : State) (hm : s.mem.wf = true) : (State.replacePattern s).mem.wf = true := by
  unfold State.replacePattern; (repeat' split) <;> simp [hm]

@[simp] theorem State.checkRiser_mem (s : State) (p) (r) : (State.checkRiser s p r).mem = s.mem := by simp [State.checkRiser]

@[simp] theorem State.riserCheck_mem (s : State) : (State.riserCheck s).mem = s.mem := by
  simp only [State.riserCheck]; (repeat' split) <;> simp_all

@[simp] theorem State.retireFrame_keep (s : State) (f) (hm : s.mem.wf = true) : (State.retireFrame s f).mem.wf = true := by
  unfold State.retireFrame; dsimp only; (repeat' split) <;> simp +contextual (maxDischargeDepth := 60) [*]

@[simp] theorem State.retireFrames_keep (s : State) (l) (hm : s.mem.wf = true) : (s.retireFrames l).mem.wf = true := by
  unfold State.retireFrames; exact foldl_keep _ _ _ (fun s e hm => by simp [hm]) hm

@[simp] theorem State.settleFrames_keep (s : State) (hm : s.mem.wf = true) : (State.settleFrames s).mem.wf = true := by
  simp (maxDischargeDepth := 60) [State.settleFrames, hm]

@[simp] theorem State.settle_keep (s : State) (hm : s.mem.wf = true) : (State.settle s).mem.wf = true := by
  simp (maxDischargeDepth := 60) [State.settle, hm]

@[simp] theorem State.leaveFleet_mem (s : State) : (State.leaveFleet s).mem = s.mem := by simp [State.leaveFleet]

@[simp] theorem State.restartController_mem (s : State) : (State.restartController s).mem = s.mem := by simp [State.restartController]

@[simp] theorem State.unmapAll_keep (s : State) (hm : s.mem.wf = true) : (State.unmapAll s).mem.wf = true := by
  unfold State.unmapAll; dsimp only; (repeat' split) <;> simp +contextual (maxDischargeDepth := 60) [*]

@[simp] theorem State.install_keep (s : State) (p) (frames) (reset) (hm : s.mem.wf = true) : (State.install s p frames reset).mem.wf = true := by
  unfold State.install; dsimp only; (repeat' split) <;> simp +contextual (maxDischargeDepth := 60) [*]

@[simp] theorem State.auditLoad_mem (s : State) (role) (st) (key) (hash) : (State.auditLoad s role st key hash).mem = s.mem := by simp [State.auditLoad]

@[simp] theorem State.imageRead_keep (s : State) (o) (len) (role) (reset) (bs) (hm : s.mem.wf = true) : (State.imageRead s o len role reset bs).mem.wf = true := by
  unfold State.imageRead; dsimp only; (repeat' split) <;> simp (maxDischargeDepth := 60) [*]

@[simp] theorem State.readRun_wf (s : State) (site) (va) (n) : (State.readRun s site va n).2.2.mem.wf = s.mem.wf := by simp [State.readRun]

@[simp] theorem State.readBlock_wf (s : State) (site opc a b perm m) : (s.readBlock site opc a b perm m).2.mem.wf = s.mem.wf := by
  unfold State.readBlock; refine foldl_snd_wf _ _ _ ?_; intro s g; dsimp only; split <;> simp

@[simp] theorem State.dataOfsAt_wf (s : State) (site) (t) (L) : (State.dataOfsAt s site t L).2.mem.wf = s.mem.wf := by
  unfold State.dataOfsAt; dsimp only; (repeat' split) <;> simp [*]

@[simp] theorem State.zeroRuns_wf (s : State) (site) (t) (L) : (State.zeroRuns s site t L).2.mem.wf = s.mem.wf := by simp [State.zeroRuns]

@[simp] theorem State.readTwice_wf (s : State) (x) (site) (L) : (State.readTwice s x site L).2.2.2.mem.wf = s.mem.wf := by
  unfold State.readTwice; dsimp only; (repeat' split) <;> simp [*]

@[simp] theorem State.readTileMove_wf (s : State) (site) (x) (y) (opc) (perm) (m) : (State.readTileMove s site x y opc perm m).2.mem.wf = s.mem.wf := by
  unfold State.readTileMove; dsimp only; (repeat' split) <;> simp [*]

@[simp] theorem State.fillTile_wf (s : State) (site) (a) (t) (L) : (State.fillTile s site a t L).2.mem.wf = s.mem.wf := by simp [State.fillTile]

@[simp] theorem State.fillUnit_wf (s : State) (site) (a) (t) (e) : (State.fillUnit s site a t e).2.mem.wf = s.mem.wf := by
  simp only [State.fillUnit]; (repeat' split) <;> simp_all

@[simp] theorem State.askList_mem (s : State) (o) (c) : (State.askList s o c).mem = s.mem := by simp [State.askList]

@[simp] theorem State.takeLadle_mem (s : State) (o) (l) (body) : (State.takeLadle s o l body).mem = s.mem := by simp [State.takeLadle]

@[simp] theorem State.copyAccept_mem (s : State) (o) (c) : (State.copyAccept s o c).mem = s.mem := by
  unfold State.copyAccept; dsimp only; (repeat' split) <;> simp [*]

@[simp] theorem State.scatterLadle_wf (s : State) (o) (c) : (State.scatterLadle s o c).mem.wf = s.mem.wf := by
  unfold State.scatterLadle; dsimp only; (repeat' split) <;> simp [*]

@[simp] theorem State.fillAccept_mem (s : State) (o) (f) : (State.fillAccept s o f).mem = s.mem := by
  unfold State.fillAccept; dsimp only; (repeat' split) <;> simp [*]

@[simp] theorem State.doPuts_keep (s : State) (o) (l) (puts) (hm : s.mem.wf = true) : (State.doPuts s o l puts).2.2.mem.wf = true := by
  unfold State.doPuts; refine foldl_thd_keep _ _ _ (fun s w hm => ?_) hm; dsimp only
  refine foldl_keep _ _ _ (fun s x hm => ?_) (by simp [hm]); split <;> simp [hm]

@[simp] theorem State.postSuspended_mem (s : State) (c) (opc) (sqHead) : (State.postSuspended s c opc sqHead).mem = s.mem := by simp [State.postSuspended]

@[simp] theorem State.chunkBoundary_mem (s : State) (o) (done) : (State.chunkBoundary s o done).mem = s.mem := by
  simp only [State.chunkBoundary]; (repeat' split) <;> simp_all

@[simp] theorem State.deviceList_wf (s : State) (site) (c) (n) : (State.deviceList s site c n).2.2.mem.wf = s.mem.wf := by simp [State.deviceList]

@[simp] theorem State.readChunk_wf (s : State) (o c n entries) : (s.readChunk o c n entries).2.mem.wf = s.mem.wf := by
  unfold State.readChunk; refine (foldl_snd_wf _ _ _ ?_).trans rfl; intro s i; dsimp only; (repeat' split) <;> simp

@[simp] theorem State.waitLines_mem (s : State) (o) (lines) : (State.waitLines s o lines).mem = s.mem := by simp [State.waitLines]

@[simp] theorem State.chunkHalf_wf (s : State) (o) (c) (n) : (State.chunkHalf s o c n).2.mem.wf = s.mem.wf := by
  unfold State.chunkHalf; dsimp only; (repeat' split) <;> simp [*]

@[simp] theorem State.askLeaves_mem (s : State) (o) (miss) : (State.askLeaves s o miss).mem = s.mem := by simp [State.askLeaves]

@[simp] theorem State.chunkEnds_mem (s : State) (o) : (State.chunkEnds s o).mem = s.mem := by
  unfold State.chunkEnds; dsimp only; (repeat' split) <;> simp [*]

@[simp] theorem State.writeChunk_keep (s : State) (o) (c) (n) (r) (stop) (hm : s.mem.wf = true) : (State.writeChunk s o c n r stop).mem.wf = true := by
  simp (maxDischargeDepth := 60) [State.writeChunk, hm]

@[simp] theorem State.copyChunk_keep (s : State) (o) (c) (hm : s.mem.wf = true) : (State.copyChunk s o c).mem.wf = true := by
  simp (maxDischargeDepth := 60) [State.copyChunk, hm]

@[simp] theorem State.fillChunk_keep (s : State) (o) (f) (hm : s.mem.wf = true) : (State.fillChunk s o f).mem.wf = true := by
  unfold State.fillChunk; dsimp only; (repeat' split) <;> simp (maxDischargeDepth := 60) [*]

@[simp] theorem copyChunkOp_keep (ring tag) (s : State) (hm : s.mem.wf = true) : (copyChunkOp ring tag s).mem.wf = true := by
  unfold copyChunkOp; (repeat' split) <;> simp [hm]

@[simp] theorem State.skimWord_keep (s : State) (k) (a) (hm : s.mem.wf = true) : (State.skimWord s k a).2.mem.wf = true := by
  unfold State.skimWord; dsimp only; (repeat' split) <;> simp (maxDischargeDepth := 60) [*]

@[simp] theorem State.skimRange_keep (s : State) (k) (a) (n) (hm : s.mem.wf = true) : (State.skimRange s k a n).2.mem.wf = true := by
  unfold State.skimRange; dsimp only; (repeat' split) <;> simp +contextual (maxDischargeDepth := 60) [*]

@[simp] theorem skimChunkOp_keep (ring) (tag) (s : State) (hm : s.mem.wf = true) : (skimChunkOp ring tag s).mem.wf = true := by
  unfold skimChunkOp; (repeat' split) <;> simp [hm]

@[simp] theorem State.skimEnds_mem (s : State) (o) (k) : (State.skimEnds s o k).mem = s.mem := by simp [State.skimEnds]

@[simp] theorem State.skimStart_mem (s : State) (o) (base) (len) (summary) : (State.skimStart s o base len summary).mem = s.mem := by simp [State.skimStart]

@[simp] theorem State.setChans_mem (s : State) (e) : (State.setChans s e).mem = s.mem := by
  unfold State.setChans; dsimp only; (repeat' split) <;> simp [*]

@[simp] theorem State.setExp_mem (s : State) (e) : (State.setExp s e).mem = s.mem := by
  unfold State.setExp; dsimp only; (repeat' split) <;> simp [*]

@[simp] theorem State.readHeld_wf (s : State) (direct) (a) (n) (t) : (State.readHeld s direct a n t).2.mem.wf = s.mem.wf := by
  unfold State.readHeld; dsimp only; (repeat' split) <;> simp [*]

@[simp] theorem State.saveCopy_wf (s : State) (x) : (State.saveCopy s x).2.mem.wf = s.mem.wf := by
  unfold State.saveCopy; dsimp only; (repeat' split) <;> simp [*]

@[simp] theorem State.saveMaster_wf (s : State) (p) (e) : (State.saveMaster s p e).2.mem.wf = s.mem.wf := by
  unfold State.saveMaster; (repeat' split) <;> simp [*]

@[simp] theorem State.saveResiduals_wf (s : State) (m) (e) : (State.saveResiduals s m e).2.mem.wf = s.mem.wf := by simp [State.saveResiduals]

@[simp] theorem State.saveSection_wf (s : State) (p) (e) : (State.saveSection s p e).2.mem.wf = s.mem.wf := by
  unfold State.saveSection; dsimp only; (repeat' split) <;> simp [*]

@[simp] theorem State.contextImage_wf (s : State) (p) : (State.contextImage s p).2.mem.wf = s.mem.wf := by simp [State.contextImage]

@[simp] theorem State.restoreCopy_keep (s : State) (x) (b) (hm : s.mem.wf = true) : (State.restoreCopy s x b).mem.wf = true := by
  unfold State.restoreCopy; dsimp only; (repeat' split) <;> simp +contextual (maxDischargeDepth := 60) [*]

@[simp] theorem State.restoreResiduals_keep (s : State) (m) (e) (b) (hm : s.mem.wf = true) : (State.restoreResiduals s m e b).mem.wf = true := by
  unfold State.restoreResiduals; dsimp only; (repeat' split) <;> simp +contextual (maxDischargeDepth := 60) [*]

@[simp] theorem State.restoreEst_mem (s : State) (p) (e) (b) : (State.restoreEst s p e b).mem = s.mem := by
  unfold State.restoreEst; dsimp only; (repeat' split) <;> simp [*]

@[simp] theorem State.restoreSection_keep (s : State) (p) (e) (b) (hm : s.mem.wf = true) : (State.restoreSection s p e b).mem.wf = true := by
  unfold State.restoreSection; dsimp only; (repeat' split) <;> simp +contextual (maxDischargeDepth := 60) [*]

@[simp] theorem State.restoreImage_keep (s : State) (o) (p) (b) (bad) (hm : s.mem.wf = true) : (State.restoreImage s o p b bad).mem.wf = true := by
  unfold State.restoreImage; refine ite_keep (by simp [hm]) ?_
  dsimp only
  refine ite_keep ?_ ?_ <;> simp
  · exact foldl_snd_keep _ _ _ (fun _ _ hm => ite_snd_keep hm (by simp [hm])) hm
  · refine State.storeTrackers_keep _ ?_
    exact foldl_snd_keep _ _ _ (fun _ _ hm => ite_snd_keep hm (by simp [hm])) hm

@[simp] theorem State.saveStart_wf (s : State) (o) (area) (len) (host) : (State.saveStart s o area len host).mem.wf = s.mem.wf := by
  unfold State.saveStart; dsimp only; (repeat' split) <;> simp [*]

@[simp] theorem State.restoreStart_mem (s : State) (o) (area) (len) (host) : (State.restoreStart s o area len host).mem = s.mem := by simp [State.restoreStart]

@[simp] theorem contextTransferOp_keep (ring tag) (s : State) (hm : s.mem.wf = true) : (contextTransferOp ring tag s).mem.wf = true := by
  simp only [contextTransferOp]; (repeat' split) <;> simp_all

@[simp] theorem State.clearRange_keep (s : State) (a n) (hm : s.mem.wf = true) : (s.clearRange a n).mem.wf = true := by
  simp only [Mem.wf, Bool.and_eq_true] at hm ⊢
  exact ⟨canonical_filter _ _ _ hm.1, canonical_filter _ _ _ hm.2⟩

@[simp] theorem State.joinTable_keep (s : State) (c) (a) (sqHead) (b) (hm : s.mem.wf = true) : (State.joinTable s c a sqHead b).mem.wf = true := by
  unfold State.joinTable; dsimp only; (repeat' split) <;> simp (maxDischargeDepth := 60) [*]

@[simp] theorem State.joinStart_mem (s : State) (c) (a) (sqHead) : (State.joinStart s c a sqHead).mem = s.mem := by simp [State.joinStart]

@[simp] theorem State.leave_mem (s : State) : (State.leave s).mem = s.mem := by simp [State.leave]

@[simp] theorem State.setExch_mem (s : State) (f) : (State.setExch s f).mem = s.mem := by simp [State.setExch]

@[simp] theorem State.losePeer_mem (s : State) (m) (rank) (reason) (heat) : (State.losePeer s m rank reason heat).mem = s.mem := by simp [State.losePeer]

@[simp] theorem State.sendPeer_mem (s : State) (m) (rank) (ofs) (tensor) (b) : (State.sendPeer s m rank ofs tensor b).mem = s.mem := by simp [State.sendPeer]

@[simp] theorem State.sendMsg_mem (s : State) (m) (ofs) (h) (payload) : (State.sendMsg s m ofs h payload).mem = s.mem := by
  unfold State.sendMsg; dsimp only; (repeat' split) <;> simp [*]

@[simp] theorem State.readPairs_wf (s : State) (tensor) (n) (L) : (State.readPairs s tensor n L).2.2.mem.wf = s.mem.wf := by
  unfold State.readPairs; dsimp only; (repeat' split) <;> simp [*]

@[simp] theorem State.writePairs_keep (s : State) (tensor n L vals) (hm : s.mem.wf = true) : (s.writePairs tensor n L vals).mem.wf = true := by
  unfold State.writePairs; split
  · exact hm
  · exact foldl_keep _ _ _ (fun s e hm => by simp [hm]) hm

@[simp] theorem State.readRes32_wf (s : State) (m) (half) (tensor) (L) (count) : (State.readRes32 s m half tensor L count).2.mem.wf = s.mem.wf := by simp [State.readRes32]

@[simp] theorem State.writeRes32_keep (s : State) (m) (half) (tensor) (L) (l) (hm : s.mem.wf = true) : (State.writeRes32 s m half tensor L l).mem.wf = true := by
  simp (maxDischargeDepth := 60) [State.writeRes32, hm]

@[simp] theorem State.wireNonfinite_mem (s : State) (layer) (wire) (L) (n) (vals) : (State.wireNonfinite s layer wire L n vals).mem = s.mem := by
  unfold State.wireNonfinite; generalize List.filter _ _ = l; cases l <;> simp

@[simp] theorem State.uplinkTile_keep (s : State) (m) (tensor) (d) (L) (hm : s.mem.wf = true) : (State.uplinkTile s m tensor d L).mem.wf = true := by
  simp (maxDischargeDepth := 60) [State.uplinkTile, hm]

@[simp] theorem fleetUplinkOp_keep (tensor) (s : State) (hm : s.mem.wf = true) : (fleetUplinkOp tensor s).mem.wf = true := by
  unfold fleetUplinkOp; dsimp only; (repeat' split) <;> simp +contextual (maxDischargeDepth := 60) [*]

@[simp] theorem fleetReduceOp_keep (t) (s : State) (hm : s.mem.wf = true) : (fleetReduceOp t s).mem.wf = true := by
  unfold fleetReduceOp; (repeat' split) <;> simp [hm]

@[simp] theorem State.wireDesync_mem (s : State) (layer) (L) : (State.wireDesync s layer L).mem = s.mem := by simp [State.wireDesync]

@[simp] theorem State.acceptUp_mem (s : State) (m) (h) (d) (t) (b) : (State.acceptUp s m h d t b).mem = s.mem := by simp [State.acceptUp]

@[simp] theorem State.acceptDown_keep (s : State) (m) (h) (d) (t) (b) (hm : s.mem.wf = true) : (State.acceptDown s m h d t b).mem.wf = true := by
  simp (maxDischargeDepth := 60) [State.acceptDown, hm]

@[simp] theorem State.acceptMsg_keep (s : State) (m) (h) (b) (hm : s.mem.wf = true) : (State.acceptMsg s m h b).mem.wf = true := by
  unfold State.acceptMsg; (repeat' split) <;> simp [hm]

@[simp] theorem fleetAcceptOp_keep (offset) (message) (s : State) (hm : s.mem.wf = true) : (fleetAcceptOp offset message s).mem.wf = true := by
  unfold fleetAcceptOp; (repeat' split) <;> simp [hm]

@[simp] theorem State.freezeWord_mem (s : State) (m) : (State.freezeWord s m).mem = s.mem := by simp [State.freezeWord]

@[simp] theorem fleetFreezeOp_mem (s : State) : (fleetFreezeOp s).mem = s.mem := by
  simp only [fleetFreezeOp]; (repeat' split) <;> simp_all

@[simp] theorem fleetDeadlineOp_mem (s : State) : (fleetDeadlineOp s).mem = s.mem := by
  unfold fleetDeadlineOp; dsimp only; (repeat' split) <;> simp [*]

@[simp] theorem fleetVerdictOp_mem (s : State) : (fleetVerdictOp s).mem = s.mem := by
  unfold fleetVerdictOp; dsimp only; (repeat' split) <;> simp [*]

@[simp] theorem fleetWriteFailedOp_mem (rank) (s : State) : (fleetWriteFailedOp rank s).mem = s.mem := by
  simp only [fleetWriteFailedOp]; (repeat' split) <;> simp_all

@[simp] theorem State.beginExchange_mem (s : State) : (State.beginExchange s).mem = s.mem := by
  unfold State.beginExchange; dsimp only; (repeat' split) <;> simp [*]

@[simp] theorem State.flipHalf_mem (s : State) : (State.flipHalf s).mem = s.mem := by simp [State.flipHalf]

@[simp] theorem State.setJob_mem (s : State) (f) : (State.setJob s f).mem = s.mem := by simp [State.setJob]

@[simp] theorem State.openAdmit_keep (s : State) (hm : s.mem.wf = true) : (State.openAdmit s).mem.wf = true := by
  unfold State.openAdmit; dsimp only; (repeat' split) <;> simp (maxDischargeDepth := 60) [*]

@[simp] theorem State.commitDue_mem (s : State) (b) : (State.commitDue s b).mem = s.mem := by simp [State.commitDue]

@[simp] theorem State.clearLate_mem (s : State) : (State.clearLate s).mem = s.mem := by simp [State.clearLate]

@[simp] theorem State.putWords_keep (s : State) (l b) (hm : s.mem.wf = true) : (State.putWords s l b).mem.wf = true := by
  induction l generalizing s b with
  | nil => exact hm
  | cons r rs ih => unfold State.putWords; split <;> simp [ih, hm]

@[simp] theorem State.movePartial_keep (s : State) (v) (back) (hm : s.mem.wf = true) : (State.movePartial s v back).mem.wf = true := by
  unfold State.movePartial; split
  · exact hm
  · dsimp only
    refine ite_keep ?_ (State.putWords_keep _ _ _ ?_) <;> exact foldl_keep _ _ _ (fun s e hm => by split <;> simp [hm]) hm

@[simp] theorem State.suspendedRecord_mem (s : State) : (State.suspendedRecord s).mem = s.mem := by
  simp only [State.suspendedRecord]; (repeat' split) <;> simp_all

@[simp] theorem State.suspendPartial_keep (s : State) (next) (hm : s.mem.wf = true) : (State.suspendPartial s next).mem.wf = true := by
  simp (maxDischargeDepth := 60) [State.suspendPartial, hm]

@[simp] theorem State.suspendWhole_mem (s : State) : (State.suspendWhole s).mem = s.mem := by simp [State.suspendWhole]

@[simp] theorem State.resumePartial_keep (s : State) (v) (hm : s.mem.wf = true) : (State.resumePartial s v).mem.wf = true := by
  simp (maxDischargeDepth := 60) [State.resumePartial, hm]

@[simp] theorem State.admitNext_keep (s : State) (hm : s.mem.wf = true) : (State.admitNext s).mem.wf = true := by
  unfold State.admitNext; (repeat' split) <;> simp (maxDischargeDepth := 60) [*]

@[simp] theorem State.heatBoundary_keep (s : State) (hm : s.mem.wf = true) : (State.heatBoundary s).mem.wf = true := by
  unfold State.heatBoundary; dsimp only; (repeat' split) <;> simp (maxDischargeDepth := 60) [*]

@[simp] theorem State.startTick_keep (s : State) (hm : s.mem.wf = true) : (State.startTick s).mem.wf = true := by
  unfold State.startTick; (repeat' split) <;> simp [hm]

@[simp] theorem State.setSync_mem (s : State) (f) : (State.setSync s f).mem = s.mem := by simp [State.setSync]

@[simp] theorem State.driveSync_mem (s : State) (b) : (State.driveSync s b).mem = s.mem := by simp [State.driveSync]

@[simp] theorem State.syncEffect_mem (s : State) : (State.syncEffect s).mem = s.mem := by simp [State.syncEffect]

@[simp] theorem State.syncEffects_mem (s : State) (k : Nat) : (s.syncEffects k).mem = s.mem := by
  induction k generalizing s with
  | zero => rfl
  | succ k ih => simp [State.syncEffects, ih]

@[simp] theorem State.tickEdges_mem (s : State) : (State.tickEdges s).mem = s.mem := by simp [State.tickEdges]

@[simp] theorem syncInEdgeOp_mem (level) (acBefore) (s : State) : (syncInEdgeOp level acBefore s).mem = s.mem := by simp [syncInEdgeOp]

@[simp] theorem State.limitReached_keep (s : State) (hm : s.mem.wf = true) : (State.limitReached s).mem.wf = true := by
  unfold State.limitReached; dsimp only; (repeat' split) <;> simp (maxDischargeDepth := 60) [*]

@[simp] theorem syncExpiryOp_keep (s : State) (hm : s.mem.wf = true) : (syncExpiryOp s).mem.wf = true := by simp (maxDischargeDepth := 60) [syncExpiryOp, hm]

@[simp] theorem masterPulseOp_mem (s : State) : (masterPulseOp s).mem = s.mem := by simp [masterPulseOp]

@[simp] theorem State.followerTick_keep (s : State) (hm : s.mem.wf = true) : (State.followerTick s).mem.wf = true := by
  unfold State.followerTick; dsimp only; (repeat' split) <;> simp (maxDischargeDepth := 60) [*]

@[simp] theorem State.masterTick_keep (s : State) (hm : s.mem.wf = true) : (State.masterTick s).mem.wf = true := by
  unfold State.masterTick; dsimp only; (repeat' split) <;> simp (maxDischargeDepth := 60) [*]

@[simp] theorem State.doneTick_keep (s : State) (hm : s.mem.wf = true) : (State.doneTick s).mem.wf = true := by
  unfold State.doneTick; (repeat' split) <;> simp (maxDischargeDepth := 60) [*]

@[simp] theorem State.workDone_keep (s : State) (hm : s.mem.wf = true) : (State.workDone s).mem.wf = true := by
  unfold State.workDone; dsimp only; (repeat' split) <;> simp (maxDischargeDepth := 60) [*]

@[simp] theorem State.waitTick_keep (s : State) (hm : s.mem.wf = true) : (State.waitTick s).mem.wf = true := by simp (maxDischargeDepth := 60) [State.waitTick, hm]

@[simp] theorem State.sampleLevel_mem (s : State) : (State.sampleLevel s).mem = s.mem := by simp [State.sampleLevel]

@[simp] theorem State.fixWord_mem (s : State) : (State.fixWord s).mem = s.mem := by simp [State.fixWord]

@[simp] theorem verdictFixOp_mem (s : State) : (verdictFixOp s).mem = s.mem := by simp [verdictFixOp]

@[simp] theorem State.openPour_mem (s : State) (w) : (State.openPour s w).mem = s.mem := by
  unfold State.openPour; dsimp only; (repeat' split) <;> simp [*]

@[simp] theorem pourOp_mem (s : State) : (pourOp s).mem = s.mem := by
  unfold pourOp; dsimp only; (repeat' split) <;> simp [*]

@[simp] theorem State.foldTrackers_keep (s : State) (hm : s.mem.wf = true) : (State.foldTrackers s).mem.wf = true := by
  unfold State.foldTrackers; dsimp only; (repeat' split) <;> simp (maxDischargeDepth := 60) [*]

@[simp] theorem State.completeFences_mem (s : State) : (State.completeFences s).mem = s.mem := by simp [State.completeFences]

@[simp] theorem State.applyWrites_mem (s : State) : (State.applyWrites s).mem = s.mem := by
  unfold State.applyWrites; dsimp only; (repeat' split) <;> simp [*]

@[simp] theorem State.pourApply_keep (s : State) (commit) (hm : s.mem.wf = true) : (s.pourApply commit).mem.wf = true := by
  unfold State.pourApply; dsimp only; (repeat' split) <;> simp [hm]

@[simp] theorem State.pourAdvance_mem (s : State) (j) : (State.pourAdvance s j).mem = s.mem := by simp [State.pourAdvance]

@[simp] theorem State.pourRecord_keep (s : State) (p) (j) (hm : s.mem.wf = true) : (State.pourRecord s p j).mem.wf = true := by
  simp only [State.pourRecord]; (repeat' split) <;> simp_all

@[simp] theorem State.pourStep_keep (s : State) (p) (j) (hm : s.mem.wf = true) : (State.pourStep s p j).mem.wf = true := by
  unfold State.pourStep; (repeat' split) <;> simp [hm]

@[simp] theorem pourStepOp_keep (s : State) (hm : s.mem.wf = true) : (pourStepOp s).mem.wf = true := by
  unfold pourStepOp; (repeat' split) <;> simp [hm]

@[simp] theorem State.opBody_keep (s : State) (i) (hm : s.mem.wf = true) : (s.opBody i).mem.wf = true := by
  unfold State.opBody; (repeat' split) <;> simp (maxDischargeDepth := 60) [hm]

@[simp] theorem State.rerunOps_keep (s : State) (hm : s.mem.wf = true) : (State.rerunOps s).mem.wf = true := by
  exact State.runSends_keep _ (State.runReduces_keep _ (State.resume_keep _ _ (fun i f h s hm => by simp at h; subst h; simp [hm]) hm))

@[simp] theorem State.abandonOp_mem (s : State) (i) : (State.abandonOp s i).mem = s.mem := by
  unfold State.abandonOp; dsimp only; (repeat' split) <;> simp [*]

@[simp] theorem State.abandonOps_mem (s : State) : (State.abandonOps s).mem = s.mem := by
  unfold State.abandonOps; refine (foldl_mem _ _ _ ?_).trans ?_
  · intro s a; split <;> simp
  · exact foldl_mem _ _ _ fun _ _ => by simp

@[simp] theorem State.closeCores_keep (s : State) (hm : s.mem.wf = true) : (s.closeCores).mem.wf = true := by
  unfold State.closeCores; dsimp only
  refine foldl_keep _ _ _ (fun s q hm => by split <;> simp [hm]) ?_
  have := foldl_keep State.closeCore (s.heat.cores.map (·.core)) s (fun s q hm => by simp [hm]) hm
  split <;> simp [this]

@[simp] theorem State.closeDue_keep (s : State) (hm : s.mem.wf = true) : (State.closeDue s).mem.wf = true := by
  unfold State.closeDue; dsimp only; (repeat' split) <;> simp (maxDischargeDepth := 60) [*]

@[simp] theorem State.countSlot_mem (s : State) : (State.countSlot s).mem = s.mem := by
  unfold State.countSlot; dsimp only; (repeat' split) <;> simp [*]

@[simp] theorem State.tickCommits_mem (s : State) : (State.tickCommits s).mem = s.mem := by simp [State.tickCommits]

@[simp] theorem State.openSlot_mem (s : State) : (State.openSlot s).mem = s.mem := by simp [State.openSlot]

@[simp] theorem State.runTick_keep (s : State) (j) (hm : s.mem.wf = true) : (State.runTick s j).mem.wf = true := by
  simp (maxDischargeDepth := 60) [State.runTick, hm]

@[simp] theorem State.finishPour_keep (s : State) (hm : s.mem.wf = true) : (State.finishPour s).mem.wf = true := by
  simp only [State.finishPour]; (repeat' split) <;> simp_all

@[simp] theorem State.pourTick_keep (s : State) (j) (hm : s.mem.wf = true) : (State.pourTick s j).mem.wf = true := by
  unfold State.pourTick; dsimp only; (repeat' split) <;> simp (maxDischargeDepth := 60) [*]

@[simp] theorem State.verdictTick_mem (s : State) : (State.verdictTick s).mem = s.mem := by
  unfold State.verdictTick; dsimp only; (repeat' split) <;> simp [*]

@[simp] theorem State.jobTick_keep (s : State) (hm : s.mem.wf = true) : (State.jobTick s).mem.wf = true := by
  unfold State.jobTick; (repeat' split) <;> simp [hm]

@[simp] theorem State.closeHeld_mem (s : State) (before) : (State.closeHeld s before).mem = s.mem := by simp [State.closeHeld]

@[simp] theorem slotTickOp_keep (s : State) (hm : s.mem.wf = true) : (slotTickOp s).mem.wf = true := by
  unfold slotTickOp; dsimp only; (repeat' split) <;> simp (maxDischargeDepth := 60) [*]

@[simp] theorem State.mapWindow_keep (s : State) (w on) (hm : s.mem.wf = true) : (s.mapWindow w on).mem.wf = true := by
  unfold State.mapWindow; exact foldl_keep _ _ _ (fun s e hm => by simp [hm]) hm

@[simp] theorem State.bindOne_keep (s : State) (e) (hm : s.mem.wf = true) : (s.bindOne e).mem.wf = true := by
  have h := foldl_keep (fun s w => State.mapWindow s w false) (s.mem.windows.filter fun w => w.tensor = e.tensor) s
    (fun s e hm => by simp [hm]) hm
  unfold State.bindOne; dsimp only; split
  · exact h
  · exact State.mapWindow_keep _ _ _ h

@[simp] theorem State.bindTable_keep (s : State) (c entries sqHead b) (hm : s.mem.wf = true) : (s.bindTable c entries sqHead b).mem.wf = true := by
  unfold State.bindTable; extract_lets l st; split
  · simp [hm]
  · rw [State.complete_mem]; exact foldl_keep State.bindOne _ s (fun s e hm => by simp [hm]) hm

@[simp] theorem State.query_mem (s : State) (c) (sqHead) (code) (tag) (out) (len) : (State.query s c sqHead code tag out len).mem = s.mem := by simp [State.query]

@[simp] theorem State.forceSync_mem (s : State) : (State.forceSync s).mem = s.mem := by simp [State.forceSync]

@[simp] theorem State.invalidatePlan_mem (s : State) : (State.invalidatePlan s).mem = s.mem := by simp [State.invalidatePlan]

@[simp] theorem State.controlJob_mem (s : State) (j) (k) : (State.controlJob s j k).mem = s.mem := by
  unfold State.controlJob; dsimp only; (repeat' split) <;> simp [*]

@[simp] theorem State.controlOp_mem (s : State) (o) (k) : (State.controlOp s o k).mem = s.mem := by
  simp only [State.controlOp]; (repeat' split) <;> simp_all

@[simp] theorem State.control_mem (s : State) (c) (opc) (sqHead) (ring) (tag) (k) : (State.control s c opc sqHead ring tag k).mem = s.mem := by
  unfold State.control; dsimp only; (repeat' split) <;> simp [*]

@[simp] theorem State.fenceCommand_mem (s : State) (code) : (State.fenceCommand s code).mem = s.mem := by simp [State.fenceCommand]

@[simp] theorem State.setSeverityTo_mem (s : State) (code) (sev) : (State.setSeverityTo s code sev).mem = s.mem := by simp [State.setSeverityTo]

@[simp] theorem State.ackEvent_mem (s : State) (seq) : (State.ackEvent s seq).mem = s.mem := by simp [State.ackEvent]

@[simp] theorem State.heatsStart_keep (s : State) (c) (a) (sqHead) (hm : s.mem.wf = true) : (State.heatsStart s c a sqHead).mem.wf = true := by
  simp (maxDischargeDepth := 60) [State.heatsStart, hm]

@[simp] theorem State.addOp_mem (s : State) (o) : (State.addOp s o).mem = s.mem := by simp [State.addOp]

@[simp] theorem State.copyStart_mem (s : State) (c) (opc) (sqHead) (src) (dst) (perm) (list) (entries) (inHost) : (State.copyStart s c opc sqHead src dst perm list entries inHost).mem = s.mem := by simp [State.copyStart]

@[simp] theorem State.fillStart_mem (s : State) (c) (sqHead) (a) : (State.fillStart s c sqHead a).mem = s.mem := by simp [State.fillStart]

@[simp] theorem State.runCmd_keep (s : State) (i) (sqHead) (hm : s.mem.wf = true) : (State.runCmd s i sqHead).mem.wf = true := by
  unfold State.runCmd; (repeat' split) <;> simp [hm]

@[simp] theorem State.countCommand_mem (s : State) (ring) (opc) : (State.countCommand s ring opc).mem = s.mem := by simp [State.countCommand]

@[simp] theorem State.dispatchCmd_keep (s : State) (i) (c) (opc) (sqHead) (hm : s.mem.wf = true) : (State.dispatchCmd s i c opc sqHead).mem.wf = true := by
  unfold State.dispatchCmd; (repeat' split) <;> simp [hm]

@[simp] theorem State.fetchNext_mem (s : State) (r) : (State.fetchNext s r).mem = s.mem := by simp [State.fetchNext]

@[simp] theorem State.runFetched_keep (s : State) (f) (hm : s.mem.wf = true) : (State.runFetched s f).mem.wf = true := by
  unfold State.runFetched; (repeat' split) <;> simp [hm]

@[simp] theorem dispatchOp_keep (r) (s : State) (hm : s.mem.wf = true) : (dispatchOp r s).mem.wf = true := by
  unfold dispatchOp; (repeat' split) <;> simp [hm]

@[simp] theorem State.submit_keep (s : State) (i) (c) (opc) (hm : s.mem.wf = true) : (State.submit s i c opc).mem.wf = true := by
  simp (maxDischargeDepth := 60) [State.submit, hm]

@[simp] theorem submissionDoorbellOp_mem (r) (value) (s : State) : (submissionDoorbellOp r value s).mem = s.mem := by simp [submissionDoorbellOp]

@[simp] theorem completionHeadOp_mem (value) (s : State) : (completionHeadOp value s).mem = s.mem := by simp [completionHeadOp]

@[simp] theorem eventHeadOp_mem (value) (s : State) : (eventHeadOp value s).mem = s.mem := by simp [eventHeadOp]

@[simp] theorem interruptOp_mem (v) (s : State) : (interruptOp v s).mem = s.mem := by
  unfold interruptOp; dsimp only; (repeat' split) <;> simp [*]

@[simp] theorem State.jobHostFail_mem (s : State) (st) : (State.jobHostFail s st).mem = s.mem := by
  simp only [State.jobHostFail]; (repeat' split) <;> simp_all

@[simp] theorem State.failOp_mem (s : State) (ring) (id) (st) : (State.failOp s ring id st).mem = s.mem := by
  simp only [State.failOp]; (repeat' split) <;> simp_all

@[simp] theorem State.failShort_mem (s : State) (c) (opc) (sqHead) (st) : (State.failShort s c opc sqHead st).mem = s.mem := by simp [State.failShort]

@[simp] theorem State.leafError_keep (s : State) (iova) (hm : s.mem.wf = true) : (State.leafError s iova).mem.wf = true := by
  simp (maxDischargeDepth := 60) [State.leafError, hm]

@[simp] theorem State.leafWriteError_mem (s : State) (ev) (iova) : (State.leafWriteError s ev iova).mem = s.mem := by simp [State.leafWriteError]

@[simp] theorem State.fetchFail_mem (s : State) (r) (st) : (State.fetchFail s r st).mem = s.mem := by simp [State.fetchFail]

@[simp] theorem State.hostFail_keep (s : State) (a) (st) (hm : s.mem.wf = true) : (State.hostFail s a st).mem.wf = true := by
  unfold State.hostFail; (repeat' split) <;> simp [hm]

@[simp] theorem State.copyData_mem (s : State) (o) (c) (p) (iova) (b) : (State.copyData s o c p iova b).mem = s.mem := by
  simp only [State.copyData]; (repeat' split) <;> simp_all

@[simp] theorem State.opData_keep (s : State) (o) (p) (iova) (b) (hm : s.mem.wf = true) : (State.opData s o p iova b).mem.wf = true := by
  unfold State.opData; (repeat' split) <;> simp [hm]

@[simp] theorem State.hostData_keep (s : State) (a) (b) (hm : s.mem.wf = true) : (State.hostData s a b).mem.wf = true := by
  unfold State.hostData; dsimp only; (repeat' split) <;> simp (maxDischargeDepth := 60) [*]

@[simp] theorem State.hostAccepted_mem (s : State) (a) : (State.hostAccepted s a).mem = s.mem := by
  simp only [State.hostAccepted]; (repeat' split) <;> simp_all

theorem takeAcc_mem (s t : State) (id) (a : HostAcc) (h : s.takeAcc id = some (a, t)) : t.mem = s.mem := by
  simp only [State.takeAcc, Option.map_eq_some_iff, Prod.mk.injEq] at h; obtain ⟨x, -, -, rfl⟩ := h; rfl

@[simp] theorem hostResponseOp_keep (id r) (s : State) (hm : s.mem.wf = true) : (hostResponseOp id r s).mem.wf = true := by
  unfold hostResponseOp; split
  · exact hm
  · split
    · exact hm
    · rename_i e; have := takeAcc_mem _ _ _ _ e; (repeat' split) <;> simp [this, hm]

@[simp] theorem hostTimeoutOp_keep (id) (s : State) (hm : s.mem.wf = true) : (hostTimeoutOp id s).mem.wf = true := by
  unfold hostTimeoutOp; split
  · exact hm
  · rename_i e; have := takeAcc_mem _ _ _ _ e; split <;> simp [this, hm]

@[simp] theorem bisnpResponseOp_keep (line) (modified) (s : State) (hm : s.mem.wf = true) : (bisnpResponseOp line modified s).mem.wf = true := by
  unfold bisnpResponseOp; (repeat' split) <;> simp [hm]

@[simp] theorem State.onBar_mem (s : State) (f) (h : ∀ s, (f s).mem = s.mem) : (State.onBar s f).mem = s.mem := by
  unfold State.onBar; split <;> simp [*]

@[simp] theorem State.onBar_wf (s : State) (f) (h : ∀ s, (f s).mem.wf = s.mem.wf) : (State.onBar s f).mem.wf = s.mem.wf := by
  unfold State.onBar; split <;> simp [*]

@[simp] theorem State.onBar_keep (s : State) (f) (h : ∀ s, s.mem.wf = true → (f s).mem.wf = true) (hm : s.mem.wf = true) : (State.onBar s f).mem.wf = true := by
  unfold State.onBar; split
  · exact h s hm
  · exact hm

@[simp] theorem State.perstLow_mem (s : State) : (State.perstLow s).mem = s.mem := by simp [State.perstLow]

@[simp] theorem State.perstHigh_mem (s : State) : (State.perstHigh s).mem = s.mem := by simp [State.perstHigh]

@[simp] theorem State.resetFor_keep (s : State) (cause) (hm : s.mem.wf = true) : (State.resetFor s cause).mem.wf = true := by
  simp (maxDischargeDepth := 60) [State.resetFor, hm]

@[simp] theorem State.dieTrip_keep (s : State) (unit) (hm : s.mem.wf = true) : (State.dieTrip s unit).mem.wf = true := by
  simp (maxDischargeDepth := 60) [State.dieTrip, hm]

@[simp] theorem State.smbusOther_mem (s : State) : (State.smbusOther s).mem = s.mem := by simp [State.smbusOther]

@[simp] theorem State.withFetchWord_mem (s : State) (nbits) (w) : (State.withFetchWord s nbits w).mem = s.mem := by
  simp only [State.withFetchWord]; (repeat' split) <;> simp_all

@[simp] theorem State.done_keep (s x : State) (hm : x.mem.wf = true) : (s.done x).mem.wf = true := by
  simp [State.done, hm]

@[simp] theorem State.logged_mem (s : State) (c) (action) (object) : (State.logged s c action object).mem = s.mem := by simp [State.logged]

@[simp] theorem State.opBase_mem (s : State) (p) : (State.opBase s p).mem = s.mem := by simp [State.opBase]

end Sys2Proof.Machine
end

