-- ==== Sys2Proof/Laws/PerInstr.lean ====
section
/-! SUPPORT. Statements about every command as syntax, one lemma per constructor: the common fields of a well-formed command that a ring
carries fit their descriptor fields (R297), and a ring carries exactly the commands that have an opcode (R299). -/

namespace Sys2Proof.Laws.Wf

/-- What the family says of a command. -/
def Statement (i : Instr) : Prop :=
  (i.wf = true → ∀ c, Machine.rcOf i = some c → c.ring < 8 ∧ c.tag < 2 ^ 32 ∧ c.vector < 64) ∧
  (Machine.rcOf i).isSome = (Machine.opcodeOf i).isSome

/-- The first of two checks that hold. -/
theorem first {a b : Bool} (h : (a && b) = true) : a = true := (Bool.and_eq_true_iff.1 h).1

/-- The statement for a ring command whose check includes that of its common fields. -/
theorem carried {i : Instr} (c : Rc) (opc : Nat) (h1 : Machine.rcOf i = some c) (h2 : Machine.opcodeOf i = some opc)
    (h : i.wf = true → c.wf = true) : Statement i := by
  refine ⟨fun w d e => ?_, by rw [h1, h2]; rfl⟩
  obtain rfl : c = d := Option.some.inj (h1.symm.trans e)
  simpa [Rc.wf, isRing, fits32, and_assoc] using h w

/-- The statement for a command that no ring carries. -/
theorem other {i : Instr} (h1 : Machine.rcOf i = none) (h2 : Machine.opcodeOf i = none) : Statement i := by
  refine ⟨fun _ d e => ?_, by rw [h1, h2]; rfl⟩
  cases h1.symm.trans e

theorem nop (c : Rc) : Statement (.nop c) := carried c 0x00 rfl rfl fun h => h

theorem loadPattern (c : Rc) (image length : Nat) (resetTrackers : Bool) : Statement (.loadPattern c image length resetTrackers) := carried c 0x01 rfl rfl fun h => first (first h)

theorem bindTensors (c : Rc) (list entries : Nat) : Statement (.bindTensors c list entries) := carried c 0x02 rfl rfl fun h => first (first h)

theorem runHeats (c : Rc) (a : RunArgs) : Statement (.runHeats c a) := carried c 0x03 rfl rfl fun h => first h

theorem suspend (c : Rc) (ring tag : Nat) : Statement (.suspend c ring tag) := carried c 0x04 rfl rfl fun h => first (first h)

theorem resume (c : Rc) (ring tag : Nat) : Statement (.resume c ring tag) := carried c 0x05 rfl rfl fun h => first (first h)

theorem cancel (c : Rc) (ring tag : Nat) : Statement (.cancel c ring tag) := carried c 0x06 rfl rfl fun h => first (first h)

theorem saveContext (c : Rc) (area length : Nat) (host : Bool) : Statement (.saveContext c area length host) := carried c 0x07 rfl rfl fun h => first (first h)

theorem restoreContext (c : Rc) (area length : Nat) (host : Bool) : Statement (.restoreContext c area length host) := carried c 0x08 rfl rfl fun h => first (first h)

theorem copy (c : Rc) (src dst : Nat) (perm : List Nat) : Statement (.copy c src dst perm) := carried c 0x10 rfl rfl fun h => first (first (first h))

theorem gather (c : Rc) (src dst : Nat) (perm : List Nat) (list entries : Nat) (listHost : Bool) : Statement (.gather c src dst perm list entries listHost) := carried c 0x11 rfl rfl fun h => first (first (first (first (first h))))

theorem scatter (c : Rc) (src dst : Nat) (perm : List Nat) (list entries : Nat) (listHost : Bool) : Statement (.scatter c src dst perm list entries listHost) := carried c 0x12 rfl rfl fun h => first (first (first (first (first h))))

theorem fill (c : Rc) (a : FillArgs) : Statement (.fill c a) := carried c 0x13 rfl rfl fun h => first h

theorem skim (c : Rc) (base length summary : Nat) : Statement (.skim c base length summary) := carried c 0x20 rfl rfl fun h => first (first (first h))

theorem fenceUnit (c : Rc) (unit : Nat) : Statement (.fenceUnit c unit) := carried c 0x21 rfl rfl fun h => first h

theorem query (c : Rc) (code target out outLen : Nat) : Statement (.query c code target out outLen) := carried c 0x22 rfl rfl fun h => first (first (first (first h)))

theorem setSeverity (c : Rc) (code sev : Nat) : Statement (.setSeverity c code sev) := carried c 0x23 rfl rfl fun h => first (first h)

theorem ackEvent (c : Rc) (seq : Nat) : Statement (.ackEvent c seq) := carried c 0x24 rfl rfl fun h => first h

theorem fleetJoin (c : Rc) (a : JoinArgs) : Statement (.fleetJoin c a) := carried c 0x40 rfl rfl fun h => first h

theorem fleetLeave (c : Rc) : Statement (.fleetLeave c) := carried c 0x41 rfl rfl fun h => h

theorem submissionDoorbell (ring value : Nat) : Statement (.submissionDoorbell ring value) := other rfl rfl

theorem descriptorDispatch (ring : Nat) : Statement (.descriptorDispatch ring) := other rfl rfl

theorem completionHeadDoorbell (value : Nat) : Statement (.completionHeadDoorbell value) := other rfl rfl

theorem eventHeadDoorbell (value : Nat) : Statement (.eventHeadDoorbell value) := other rfl rfl

theorem interruptSend (vector : Nat) : Statement (.interruptSend vector) := other rfl rfl

theorem hostTimeoutExpiry (id : Nat) : Statement (.hostTimeoutExpiry id) := other rfl rfl

theorem getIdentity (req : List Byte) : Statement (.getIdentity req) := other rfl rfl

theorem authNonce (req : List Byte) : Statement (.authNonce req) := other rfl rfl

theorem auth (req : List Byte) : Statement (.auth req) := other rfl rfl

theorem authLockoutExpiry : Statement (.authLockoutExpiry) := other rfl rfl

theorem release (req : List Byte) : Statement (.release req) := other rfl rfl

theorem enrollKey (req : List Byte) : Statement (.enrollKey req) := other rfl rfl

theorem revokeKey (req : List Byte) : Statement (.revokeKey req) := other rfl rfl

theorem stageFirmware (req : List Byte) : Statement (.stageFirmware req) := other rfl rfl

theorem advanceSvn (req : List Byte) : Statement (.advanceSvn req) := other rfl rfl

theorem clearStartFail (req : List Byte) : Statement (.clearStartFail req) := other rfl rfl

theorem resetModule (req : List Byte) : Statement (.resetModule req) := other rfl rfl

theorem auditRead (req : List Byte) : Statement (.auditRead req) := other rfl rfl

theorem auditCheckpoint (req : List Byte) : Statement (.auditCheckpoint req) := other rfl rfl

theorem debugNonce (req : List Byte) : Statement (.debugNonce req) := other rfl rfl

theorem debugUnlock (req : List Byte) : Statement (.debugUnlock req) := other rfl rfl

theorem getCerts (offset length : Nat) : Statement (.getCerts offset length) := other rfl rfl

theorem attest (nonce : List Byte) : Statement (.attest nonce) := other rfl rfl

theorem smbusBlockRead (command : Nat) : Statement (.smbusBlockRead command) := other rfl rfl

theorem jtagBoundaryInstruction (clamp : Bool) : Statement (.jtagBoundaryInstruction clamp) := other rfl rfl

theorem jtagPrivateSession (scope : Nat) (accesses : List JtagAccess) : Statement (.jtagPrivateSession scope accesses) := other rfl rfl

theorem commit (block : CommitBlock) (acBefore : Nat) : Statement (.commit block acBefore) := other rfl rfl

theorem ringEnable (ring : RingSel) : Statement (.ringEnable ring) := other rfl rfl

theorem ringDisable (ring : Nat) : Statement (.ringDisable ring) := other rfl rfl

theorem severityMapWrite (w : Nat) (value : Word) : Statement (.severityMapWrite w value) := other rfl rfl

theorem clearSticky : Statement (.clearSticky) := other rfl rfl

theorem cancelClear : Statement (.cancelClear) := other rfl rfl

theorem splitWrite : Statement (.splitWrite) := other rfl rfl

theorem snooperRunWrite (snooper : Nat) (value : Word) : Statement (.snooperRunWrite snooper value) := other rfl rfl

theorem registerWrite (offset size : Nat) (value : Word) : Statement (.registerWrite offset size value) := other rfl rfl

theorem installerFieldFlashWrite (ok : Bool) : Statement (.installerFieldFlashWrite ok) := other rfl rfl

theorem hostMemRead (decoder offset length : Nat) (cached : Bool) : Statement (.hostMemRead decoder offset length cached) := other rfl rfl

theorem hostMemWrite (decoder offset : Nat) (data : List Byte) : Statement (.hostMemWrite decoder offset data) := other rfl rfl

theorem hostSnoop (line : Nat) : Statement (.hostSnoop line) := other rfl rfl

theorem bisnpResponse (line : Nat) (modified : Option (List Byte)) : Statement (.bisnpResponse line modified) := other rfl rfl

theorem powerOn (volts10 : Nat) : Statement (.powerOn volts10) := other rfl rfl

theorem inputShutdown : Statement (.inputShutdown) := other rfl rfl

theorem perstAssert : Statement (.perstAssert) := other rfl rfl

theorem perstDeassert : Statement (.perstDeassert) := other rfl rfl

theorem cxlLinkLoss : Statement (.cxlLinkLoss) := other rfl rfl

theorem cxlLinkTrained (speed width : Nat) : Statement (.cxlLinkTrained speed width) := other rfl rfl

theorem refclkLoss : Statement (.refclkLoss) := other rfl rfl

theorem thermTripInput : Statement (.thermTripInput) := other rfl rfl

theorem thermTripRelease (high : Bool) : Statement (.thermTripRelease high) := other rfl rfl

theorem stretchUpdate (t : Telemetry) : Statement (.stretchUpdate t) := other rfl rfl

theorem moduleReset (cause : Nat) : Statement (.moduleReset cause) := other rfl rfl

theorem startStageDone (failed : List Nat) (ac : Nat) : Statement (.startStageDone failed ac) := other rfl rfl

theorem startStageTimeout (cause unit ac : Nat) : Statement (.startStageTimeout cause unit ac) := other rfl rfl

theorem managementWatchdog : Statement (.managementWatchdog) := other rfl rfl

theorem controlCoreWatchdog (core pc : Nat) : Statement (.controlCoreWatchdog core pc) := other rfl rfl

theorem controlCoreRestartDone (core : Nat) : Statement (.controlCoreRestartDone core) := other rfl rfl

theorem controlCoreRestartTimeout (core : Nat) : Statement (.controlCoreRestartTimeout core) := other rfl rfl

theorem restartQuietExpiry (core : Nat) : Statement (.restartQuietExpiry core) := other rfl rfl

theorem slotTick : Statement (.slotTick) := other rfl rfl

theorem opAbandon (p : Prog) (dest : DestKind) (first tiles : Nat) (hostError : Option (Nat × Bool)) :
    Statement (.opAbandon p dest first tiles hostError) := other rfl rfl

theorem fMm (core : Nat) (h : OpHead) (a : ProductArgs) : Statement (.fMm core h a) := other rfl rfl

theorem bMmIg (core : Nat) (h : OpHead) (a : ProductArgs) : Statement (.bMmIg core h a) := other rfl rfl

theorem bMmWg (core : Nat) (h : OpHead) (a : ProductArgs) : Statement (.bMmWg core h a) := other rfl rfl

theorem drainCfg (core : Nat) (h : OpHead) (cfg : Nat) : Statement (.drainCfg core h cfg) := other rfl rfl

theorem drain (core : Nat) (h : OpHead) (engine bank first tiles : Nat) : Statement (.drain core h engine bank first tiles) := other rfl rfl

theorem convert (core : Nat) (h : OpHead) (tensor first tiles : Nat) : Statement (.convert core h tensor first tiles) := other rfl rfl

theorem stashPut (core : Nat) (h : OpHead) (a : StashArgs) : Statement (.stashPut core h a) := other rfl rfl

theorem stashGet (core : Nat) (h : OpHead) (a : StashArgs) : Statement (.stashGet core h a) := other rfl rfl

theorem spill (core : Nat) (h : OpHead) (a : StashArgs) (read : Bool) : Statement (.spill core h a read) := other rfl rfl

theorem linkSend (core : Nat) (h : OpHead) (linkEnd tensor first tiles : Nat) : Statement (.linkSend core h linkEnd tensor first tiles) := other rfl rfl

theorem linkReduce (core : Nat) (h : OpHead) (entry : Nat) : Statement (.linkReduce core h entry) := other rfl rfl

theorem nodeAdd (core : Nat) (h : OpHead) (entry : Nat) : Statement (.nodeAdd core h entry) := other rfl rfl

theorem tokenWait (core : Nat) (h : OpHead) (token count : Nat) : Statement (.tokenWait core h token count) := other rfl rfl

theorem tokenWaitTimeout (core : Nat) : Statement (.tokenWaitTimeout core) := other rfl rfl

theorem tokenSignal (core : Nat) (h : OpHead) (die token : Nat) (atDone : Bool) : Statement (.tokenSignal core h die token atDone) := other rfl rfl

theorem tokenIncrementArrival (die token : Nat) : Statement (.tokenIncrementArrival die token) := other rfl rfl

theorem recomputeAlt (core : Nat) (h : OpHead) (flag mask count : Nat) : Statement (.recomputeAlt core h flag mask count) := other rfl rfl

theorem suspendPoint (core : Nat) (h : OpHead) (point : Nat) : Statement (.suspendPoint core h point) := other rfl rfl

theorem update (u : Nat) (h : OpHead) (a : UpdateArgs) : Statement (.update u h a) := other rfl rfl

theorem loop (p : Prog) (h : OpHead) (outer : Bool) (count : Nat) (increment : Int) : Statement (.loop p h outer count increment) := other rfl rfl

theorem endloop (p : Prog) : Statement (.endloop p) := other rfl rfl

theorem tileRecompute (core : Nat) : Statement (.tileRecompute core) := other rfl rfl

theorem verdictFix : Statement (.verdictFix) := other rfl rfl

theorem pour : Statement (.pour) := other rfl rfl

theorem pourStepDone : Statement (.pourStepDone) := other rfl rfl

theorem pourSyncInEdge (level : Bool) (acBefore : Nat) : Statement (.pourSyncInEdge level acBefore) := other rfl rfl

theorem masterSyncPulse : Statement (.masterSyncPulse) := other rfl rfl

theorem syncWaitExpiry : Statement (.syncWaitExpiry) := other rfl rfl

theorem fenceClockStop (unit : Nat) : Statement (.fenceClockStop unit) := other rfl rfl

theorem fencePowerGate (unit : Nat) : Statement (.fencePowerGate unit) := other rfl rfl

theorem cdcHandshakeTimeout (source far : Nat) (r : Requester) : Statement (.cdcHandshakeTimeout source far r) := other rfl rfl

theorem remoteRegisterReadTimeout (offset : Nat) : Statement (.remoteRegisterReadTimeout offset) := other rfl rfl

theorem linkCrcFail (linkEnd : Nat) : Statement (.linkCrcFail linkEnd) := other rfl rfl

theorem linkRetrainDone (link : Nat) (ok : Bool) : Statement (.linkRetrainDone link ok) := other rfl rfl

theorem channelPhyRetrainDone (channel : Nat) : Statement (.channelPhyRetrainDone channel) := other rfl rfl

theorem copyChunkDone (ring tag : Nat) : Statement (.copyChunkDone ring tag) := other rfl rfl

theorem skimChunkDone (ring tag : Nat) : Statement (.skimChunkDone ring tag) := other rfl rfl

theorem fleetUplink (tensor : Nat) : Statement (.fleetUplink tensor) := other rfl rfl

theorem fleetMessageAccept (offset : Nat) (message : List Byte) : Statement (.fleetMessageAccept offset message) := other rfl rfl

theorem fleetReduceTile (t : Nat) : Statement (.fleetReduceTile t) := other rfl rfl

theorem fleetWriteFailed (rank : Nat) : Statement (.fleetWriteFailed rank) := other rfl rfl

theorem fleetStatusFreeze : Statement (.fleetStatusFreeze) := other rfl rfl

theorem fleetDeadlineExpiry : Statement (.fleetDeadlineExpiry) := other rfl rfl

theorem fleetVerdictEnd : Statement (.fleetVerdictEnd) := other rfl rfl

theorem hostAccessResponse (id : Nat) (r : HostResp) : Statement (.hostAccessResponse id r) := other rfl rfl

theorem contextTransferDone (ring tag : Nat) : Statement (.contextTransferDone ring tag) := other rfl rfl

theorem tripTemperatureReached (unit : Nat) : Statement (.tripTemperatureReached unit) := other rfl rfl

theorem refreshWindowEnd (bonded : Bool) (unit bank : Nat) : Statement (.refreshWindowEnd bonded unit bank) := other rfl rfl

theorem flashWritesAcceptedAgain : Statement (.flashWritesAcceptedAgain) := other rfl rfl

theorem doeDiscovery : Statement (.doeDiscovery) := other rfl rfl

theorem cdatTableAccess : Statement (.cdatTableAccess) := other rfl rfl

theorem hdmDecoderProgram (decoder base : Nat) : Statement (.hdmDecoderProgram decoder base) := other rfl rfl

theorem smbusOtherCommand : Statement (.smbusOtherCommand) := other rfl rfl

end Sys2Proof.Laws.Wf
end

