-- ==== Sys2Proof/Laws/Shared.lean ====
section
/-! SUPPORT. One lemma per shared operation: a mailbox command, a ring command, a slot op, a register write, each with what it does
when it is taken and when it is not. -/

namespace Sys2Proof.Machine

/-! ## The mailbox -/

/-- A mailbox command that is taken, in a mode and role that allow it, with a request of the right layout: its body on the
taken request, and the response. -/
theorem mailbox_runs (s : State) (code : Nat) (req : List Byte) (inCruc : Bool) (role len : Nat) (zero : List (Nat × Nat))
    (f : State → Reply) (h : s.mailboxOpen req = true) (hm : s.inCrucible = false ∨ inCruc = true) (hr : role ≤ s.mbx.session)
    (hl : len ≤ req.length) (hz : zero.all (fun z => zeroBytes req z.1 z.2) = true) :
    s.mailbox code req inCruc role len zero f =
      (f (s.takeRequest code req)).state.respond (f (s.takeRequest code req)).status (f (s.takeRequest code req)).bytes := by
  simp only [State.mailboxOpen, Bool.and_eq_true, Bool.not_eq_true', decide_eq_true_eq] at h
  have hc : (s.takeRequest code req).inCrucible = s.inCrucible := rfl
  have hs : (s.takeRequest code req).mbx.session = s.mbx.session := rfl
  have hk : ((s.takeRequest code req).inCrucible && !inCruc) = false := by rw [hc]; rcases hm with e | e <;> simp [e]
  have hq : (decide (req.length < len) || !(zero.all fun z => zeroBytes req z.1 z.2)) = false := by simp [hz, hl]
  simp only [State.mailbox, h.1.1, h.1.2, Nat.not_lt.mpr h.2, hk, hs, Nat.not_lt.mpr hr, hq]
  simp

/-- Crucible mode refuses the commands that are not for it (R379, R386). -/
theorem mailbox_crucible (s : State) (code : Nat) (req : List Byte) (role len : Nat) (zero : List (Nat × Nat)) (f : State → Reply)
    (h : s.mailboxOpen req = true) (hm : s.inCrucible = true) :
    s.mailbox code req false role len zero f = (s.takeRequest code req).respond stConfig [] := by
  simp only [State.mailboxOpen, Bool.and_eq_true, Bool.not_eq_true', decide_eq_true_eq] at h
  have hc : (s.takeRequest code req).inCrucible = true := hm
  simp [State.mailbox, h, Nat.not_lt.mpr h.2, hc, answer]

/-- A role below the command's is refused (R386). -/
theorem mailbox_role (s : State) (code : Nat) (req : List Byte) (inCruc : Bool) (role len : Nat) (zero : List (Nat × Nat))
    (f : State → Reply) (h : s.mailboxOpen req = true) (hm : s.inCrucible = false ∨ inCruc = true) (hr : s.mbx.session < role) :
    s.mailbox code req inCruc role len zero f = (s.takeRequest code req).respond stRights [] := by
  simp only [State.mailboxOpen, Bool.and_eq_true, Bool.not_eq_true', decide_eq_true_eq] at h
  have hc : (s.takeRequest code req).inCrucible = s.inCrucible := rfl
  have hs : (s.takeRequest code req).mbx.session = s.mbx.session := rfl
  have hk : ((s.takeRequest code req).inCrucible && !inCruc) = false := by rw [hc]; rcases hm with e | e <;> simp [e]
  simp only [State.mailbox, h.1.1, h.1.2, Nat.not_lt.mpr h.2, hk, hs, hr, answer]
  simp

/-! ## Ring commands -/

/-- A ring command comes in through its ring. -/
theorem exec_ring (i : Instr) (c : Rc) (opc : Nat) (s : State) (h1 : rcOf i = some c) (h2 : opcodeOf i = some opc) :
    exec i s = .next (s.done (s.submit i c opc)) := by
  cases i <;> simp [rcOf, opcodeOf] at h1 h2 <;> subst h1 <;> subst h2 <;> rfl

/-- A ring that is ready runs the command at once, unless it must wait for a copy (R260). -/
theorem submit_ready (s : State) (i : Instr) (c : Rc) (opc : Nat) (h : s.ready c = true) (ht : s.tablesHold opc = false) :
    s.submit i c opc =
      s.runFetched { cmd := if ringAccepts c.ring opc then some i else none, opc := opc, rc := c, sqHead := s.headOf c } := by
  simp [State.ready] at h
  simp [State.submit, h, ht, State.headOf]

/-- An accepted ring command reaches dispatch. -/
theorem exec_accepted (s : State) (i : Instr) (c : Rc) (opc : Nat) (h1 : rcOf i = some c) (h2 : opcodeOf i = some opc)
    (h : s.accepts i c opc = true) : exec i s = .next (s.done (s.dispatchCmd i c opc (s.headOf c))) := by
  simp [State.accepts, State.permits] at h
  rw [exec_ring i c opc s h1 h2, submit_ready s i c opc h.1.1.1 h.1.1.2]
  simp [State.runFetched, h]

/-- An accepted command without an audit entry runs, counted for its role (R387). -/
theorem dispatch_counted (s : State) (i : Instr) (c : Rc) (opc head : Nat) (h : s.accepts i c opc = true) (h1 : opc ≠ 0x01)
    (h2 : s.auditObject i = none) : s.dispatchCmd i c opc head = (s.countCommand c.ring opc).runCmd i head := by
  simp [State.accepts, State.permits] at h
  simp [State.dispatchCmd, h1, h2, h, Nat.not_lt.mpr h.1.2.2]

/-- An accepted command with an audit entry runs once the entry stands (R387, R389). -/
theorem dispatch_logged (s : State) (i : Instr) (c : Rc) (opc head action : Nat) (object : List Byte) (h : s.accepts i c opc = true)
    (h1 : opc ≠ 0x01) (h2 : s.auditObject i = some (action, object)) (hf : s.audit.flashOk = true) :
    s.dispatchCmd i c opc head = (s.logged c action object).runCmd i head := by
  simp [State.accepts, State.permits] at h
  simp [State.dispatchCmd, h1, h2, h, Nat.not_lt.mpr h.1.2.2, hf, State.logged]

/-- An audit entry changes the audit log and the count of free values alone. -/
theorem auditAppend_frame (s : State) (action role status : Nat) (key object : List Byte) :
    ∃ a n, s.auditAppend action role status key object = { s with audit := a, freeCtr := n } := by
  unfold State.auditAppend
  simp only
  split
  · exact ⟨_, _, rfl⟩
  · exact ⟨_, s.freeCtr, rfl⟩

/-! ## Slot ops -/

/-- A slot op that is taken and meets no unanswered host read: its body on the state it starts from, and its end noted. -/
theorem issue_taken (s : State) (p : Prog) (i : Instr) (f : State → State) (h : s.takesOp p = true)
    (hm : (f (s.opBase p)).heat.leafMiss = []) : s.issue p i f = (f (s.opBase p)).noteEnd p i (s.opBase p) := by
  have h1 : s.issues p = true ∧ (s.spanStep p).1 = true := by simpa [State.takesOp] using h
  have h3 : (f (s.opBase p)).heat.leafMiss.isEmpty = true := by rw [hm]; rfl
  have h2 : (s.spanStep p).2.runTiles i f = f (s.opBase p) := if_pos h3
  unfold State.issue
  simp only [h1.1, h1.2, h2, Bool.not_true, Bool.false_eq_true, if_false, if_true]
  rfl

/-- An op of a program that issues none now has no effect (R221). -/
theorem issue_idle (s : State) (p : Prog) (i : Instr) (f : State → State) (h : s.issues p = false) : s.issue p i f = s := by
  simp [State.issue, h]

/-- An op that a span of RECOMPUTE_ALT takes away only counts (R228). -/
theorem issue_skipped (s : State) (p : Prog) (i : Instr) (f : State → State) (h : s.issues p = true) (hs : (s.spanStep p).1 = false) :
    s.issue p i f = (s.spanStep p).2.noteEnd p i (s.spanStep p).2 := by
  simp [State.issue, h, hs]

/-! ## Registers -/

/-- A write reaches BAR0 while the link is up, outside crucible mode (R379, R394). -/
theorem onBar_live (s : State) (f : State → State) (h : s.barLive = true) : s.onBar f = f s := by simp [State.onBar, h]

/-- Else it has no effect. -/
theorem onBar_dead (s : State) (f : State → State) (h : s.barLive = false) : s.onBar f = s := by simp [State.onBar, h]

/-- An installer field under an installer session: its effect, and the entry (R384, R387). -/
theorem installerWrite_allowed (s : State) (offset value : Nat) (f : State → State) (h : 2 ≤ s.mbx.session) (hf : s.audit.flashOk = true) :
    s.installerWrite offset value f = (f s).auditAppend 0x10 2 stOk s.mbx.sessionKey (fieldObject offset value) := by
  simp [State.installerWrite, Nat.not_lt.mpr h, hf]

/-! ## The end of a command -/

/-- A calm state stands as the effect left it. -/
theorem done_calm (s x : State) (h : x.calm = true) : s.done x = { x with pending := s.pending } := by
  simp [State.calm] at h
  obtain ⟨h1, h2⟩ := h
  rcases h2 with h2 | h2 <;> simp [State.done, State.settle, h1, State.settleFrames, h2]

/-! ## Reading a tile again (R122) -/

/-- A tile whose stream checks fail and hold on the re-read is used, and counts as re-fetched; what is left of the op has no re-read. -/
theorem State.readScaled_reread (s s1 s2 : State) (t : Tensor) (site : Site) (L : Nat) (x1 x2 : Tile)
    (h1 : s.readStreams t site L = (x1, .good, false, s1)) (hr : s1.heat.refetched = false)
    (h2 : s1.readStreams t site L = (x2, .good, true, s2)) :
    s.readScaled t site L true = (x2, .good, s2.refetch t.layer L) := by
  simp [State.readScaled, h1, hr, h2]

/-- A tile whose stream checks fail twice, or fail after the op's re-read, is not used. -/
theorem State.readScaled_desync (s s1 s2 : State) (t : Tensor) (site : Site) (L : Nat) (x1 x2 : Tile)
    (h1 : s.readStreams t site L = (x1, .good, false, s1)) (h2 : s1.readStreams t site L = (x2, .good, false, s2)) :
    (s.readScaled t site L true).2.1 = .desync := by
  cases h : s1.heat.refetched <;> simp [State.readScaled, h1, h, h2]

/-- A channel is covered by itself. -/
theorem channel_covered : ∀ n < 128, channelUnit n ∈ covering (channelUnit n) := by decide

/-- A channel whose PHY retrains answers no source until the retrain ends (R356). -/
theorem State.deadTo_retraining (s : State) (source n : Nat) (hn : n < 128) (h : n ∈ s.fences.phyRetrain) :
    s.deadTo source (channelUnit n) = true := by
  simp only [State.deadTo, Bool.or_eq_true, List.any_eq_true]
  exact .inr ⟨n, h, decide_eq_true (channel_covered n hn)⟩

end Sys2Proof.Machine
end

