-- ==== Sys2Proof/Tests/Slice0.lean ====
section
/-! SUPPORT. Small tests by evaluation: ill-formed operands for each check, worked examples of the spec, and for every
obligation with hypotheses the states and operands that meet them (`wit_` after the obligation's name). -/

open Sys2Proof
open Sys2Proof.Machine

namespace Sys2Proof.Tests

set_option Elab.async false

/-! ## Small states -/

/-- The common fields on a ring. -/
def rc (ring : Nat) : Rc := { ring := ring, tag := 7, irq := true, urgent := false, wait := false, vector := 5 }

/-- A module at READY with a trained link, rings on under the installer role, and an installer session. -/
def up : State :=
  { State.reset with
    boot := { boot0 with stage := 7, ready := true }
    pins := { pins0 with perst := true }
    power := { power0 with railsOn := true }
    mbx := { mbxReset [] with session := 2, ringMask := 255 }
    regs := { regsReset policyFactory lpCfgFactory 0 with
      lpInForce := lpCfgFactory, fillDone := true, lpAct := List.range 128, xlateRoot := (List.range 16).map tableBase }
    port := { port0 with
      linkUp := true, speed := 64, width := 8
      sq := List.replicate 8 { ring0 with enable := true, role := 2, base := 0x100000 }
      cq := { recRing0 with enable := true, base := 0x200000 }
      eq := { recRing0 with enable := true, base := 0x300000 } } }

/-- A module that starts, in a stage. -/
def starting (stage : Nat) : State := { State.reset with boot := { boot0 with stage := stage } }

/-- The state after a command, or the state before it where it stops. -/
def after (c : Instr) (s : State) : State :=
  match exec c s with
  | .next t => t
  | _ => s

/-- Does a command answer a next state with a property? -/
def runs (c : Instr) (s : State) (p : State → Bool) : Bool :=
  match exec c s with
  | .next t => p t
  | _ => false

/-- The state that an outcome goes on with. -/
def nextOf (o : Host.Outcome State Fault Refusal) : Option State :=
  match o with
  | .next t => some t
  | _ => none

/-- The fault that an outcome stops with. -/
def faultOf (o : Host.Outcome State Fault Refusal) : Option Fault :=
  match o with
  | .fault f => some f
  | _ => none

/-- The status in the last completion record that went out. -/
def lastStatus (s : State) : Option Nat :=
  match s.out.getLast? with
  | some (.hostWrite _ b) => some (u b 4 1)
  | _ => none

/-! ## Operands: a term that each check refuses -/

def head0 : OpHead := { aco := 0, acl := 0, lpf := 0 }
def product0 : ProductArgs := { odx := 0, p := 0, l := 0, j := 0, bank := 0, pair := false, mask := 0, row0 := 0, rows := 0 }
def stash0 : StashArgs := { tensor := 0, first := 0, tiles := 0, ladle := 0 }
def update0 : UpdateArgs := { layer := 0, pass := 0, step := 1, first := 0, count := 0 }
def run0 : RunArgs :=
  { heatList := 0, heats := 1, recCount := 1, recArea := 0, numReplays := 1, afterHalt := false, defaultPolicy := true, replayLimit := 3,
    seeds := 0 }
def join0 : JoinArgs :=
  { peers := 0, size := 2, wire := 0x04, deadline := 1, jobId := 1, rxBase := 0, rxLen := 0, resBase := 0, resLen := 0 }
def fill0 : FillArgs := { dst := 0x5000, mode := 0, sandId := 0, a := 0, func := 0, heat := 0 }
def tele0 : Telemetry :=
  { inPower := 300, inVolt := 500, inCurr := 60, cdTemp := List.replicate 16 40, bdTemp := List.replicate 16 40,
    mdTemp := List.replicate 8 40, iodTemp := 40, flowSense := true, leakSense := true }

theorem test_wf_refuses_ring_commands :
    ([.nop { rc 8 with tag := 0 }, .nop { rc 0 with tag := 2 ^ 32 }, .nop { rc 0 with vector := 64 }, .loadPattern (rc 1) (2 ^ 64) 0 false,
      .loadPattern (rc 1) 0 (2 ^ 64) false, .bindTensors (rc 1) (2 ^ 64) 1, .bindTensors (rc 1) 0 (2 ^ 32),
      .runHeats (rc 1) { run0 with heatList := 2 ^ 64 }, .runHeats (rc 1) { run0 with heats := 2 ^ 32 },
      .runHeats (rc 1) { run0 with recCount := 2 ^ 32 }, .runHeats (rc 1) { run0 with recArea := 2 ^ 64 },
      .runHeats (rc 1) { run0 with seeds := 2 ^ 64 }, .runHeats (rc 1) { run0 with numReplays := 16, defaultPolicy := false },
      .runHeats (rc 1) { run0 with replayLimit := 16, defaultPolicy := false }, .runHeats (rc 1) { run0 with numReplays := 2 },
      .suspend (rc 0) 256 0, .resume (rc 0) 0 (2 ^ 32), .cancel (rc 0) 256 0, .saveContext (rc 1) (2 ^ 64) 0 false,
      .restoreContext (rc 1) 0 (2 ^ 64) false, .copy (rc 2) 0 0 [0, 1, 2, 3], .copy (rc 2) 0 0 [0, 1, 2, 3, 8],
      .gather (rc 2) 0 0 [0, 1, 2, 3, 4] 0 (2 ^ 32) false, .scatter (rc 2) (2 ^ 64) 0 [0, 1, 2, 3, 4] 0 0 false,
      .fill (rc 2) { fill0 with mode := 256 }, .fill (rc 2) { fill0 with sandId := 65536 }, .fill (rc 2) { fill0 with func := 65536 },
      .skim (rc 6) 0 (2 ^ 64) 0, .fenceUnit (rc 6) 65536, .query (rc 0) 256 0 0 0, .query (rc 0) 1 0 0 (2 ^ 32), .setSeverity (rc 6) 256 0,
      .ackEvent (rc 0) (2 ^ 64), .fleetJoin (rc 7) { join0 with size := 65536 }, .fleetJoin (rc 7) { join0 with wire := 256 },
      .fleetLeave (rc 9)] : List Instr).all (fun i => !i.wf) = true := by decide +kernel

theorem test_wf_refuses_ports_and_registers :
    ([.submissionDoorbell 8 0, .submissionDoorbell 0 65536, .descriptorDispatch 8, .completionHeadDoorbell 65536, .eventHeadDoorbell 65536,
      .interruptSend 64, .auth (zeros 4097), .attest (zeros 47), .smbusBlockRead 256, .jtagPrivateSession (2 ^ 32) [], .ringEnable (.sq 8),
      .ringDisable 8, .severityMapWrite 10 0, .snooperRunWrite 127 0, .registerWrite 0x200000 8 0, .registerWrite 0 2 0,
      .hostMemRead 2 0 64 false, .hostMemWrite 2 0 [], .hostSnoop 1, .bisnpResponse 1 none, .bisnpResponse 0 (some (zeros 63)),
      .stretchUpdate { tele0 with cdTemp := [] }, .moduleReset 0, .moduleReset 7, .startStageTimeout 1 65536 0, .controlCoreWatchdog 64 0,
      .controlCoreRestartDone 64, .controlCoreRestartTimeout 64, .restartQuietExpiry 64, .hdmDecoderProgram 2 0] : List Instr).all
      (fun i => !i.wf) = true := by decide +kernel

theorem test_wf_refuses_slot_ops :
    ([.opAbandon (.core 1024) .node 0 0 none, .opAbandon (.unit 24) .node 0 0 none, .opAbandon (.core 0) (.tiles 4096) 0 0 none,
      .opAbandon (.core 0) .bank 5 0 none, .opAbandon (.core 0) .bank 0 2 none, .opAbandon (.core 0) .node (2 ^ 64) 0 none,
      .fMm 1024 head0 product0, .fMm 0 { head0 with aco := 2 ^ 22 } product0, .fMm 0 { head0 with acl := 2 ^ 22 } product0,
      .fMm 0 { head0 with lpf := 4 } product0, .bMmIg 0 head0 { product0 with p := 32 }, .bMmIg 0 head0 { product0 with l := 16 },
      .bMmWg 0 head0 { product0 with j := 2 ^ 15 }, .bMmWg 0 head0 { product0 with bank := 2 }, .bMmWg 0 head0 { product0 with mask := 16 },
      .bMmWg 0 head0 { product0 with rows := 1024 }, .drainCfg 0 head0 65536, .drain 0 head0 5 0 0 0, .drain 0 head0 0 2 0 0,
      .drain 0 head0 0 0 0 65536, .convert 0 head0 4096 0 0, .stashPut 0 head0 { stash0 with ladle := 2 },
      .stashGet 0 head0 { stash0 with tiles := 65536 }, .spill 0 head0 { stash0 with first := 2 ^ 32 } false, .linkSend 0 head0 84 0 0 0,
      .linkReduce 0 head0 (2 ^ 24), .nodeAdd 0 head0 (2 ^ 24), .tokenWait 0 head0 1024 0, .tokenWaitTimeout 1024,
      .tokenSignal 0 head0 16 0 false, .tokenIncrementArrival 0 1024, .recomputeAlt 0 head0 4096 0 0, .recomputeAlt 0 head0 0 16 0,
      .suspendPoint 0 head0 65536, .update 24 head0 update0, .update 0 head0 { update0 with layer := 1024 },
      .update 0 head0 { update0 with step := 3 }, .update 0 head0 { update0 with pass := 2 }, .loop (.core 0) head0 false 0 0,
      .loop (.core 0) head0 false 1 (2 ^ 31), .endloop (.unit 24), .tileRecompute 1024] : List Instr).all (fun i => !i.wf) = true := by
  decide +kernel

theorem test_wf_refuses_time_rows :
    ([.fenceClockStop 65536, .fencePowerGate 65536, .cdcHandshakeTimeout 65536 0 .firmware, .cdcHandshakeTimeout 0 65536 .firmware,
      .remoteRegisterReadTimeout 0x200000, .linkCrcFail 84, .linkRetrainDone 42 true, .channelPhyRetrainDone 128, .copyChunkDone 8 0,
      .skimChunkDone 0 (2 ^ 32), .fleetUplink 4096, .fleetWriteFailed 4096, .contextTransferDone 8 0, .tripTemperatureReached 65536,
      .refreshWindowEnd false 65536 0] : List Instr).all (fun i => !i.wf) = true := by decide +kernel

/-! ## A pattern and a RUN_HEATS operation -/

/-- A template of RAMP 1, STEADY 2, FLUSH 0, REDUCE 1 for one class. -/
def template0 : Template := { cls := [0], ramp := 1, steady := 2, flush := 0, reduce := 1 }

/-- A small pattern: identity remap words, no tensors, no programs. -/
def pattern0 : Pattern :=
  { hash := zeros 48, verMinor := 0, fp := up.fingerprint, slotLen := 32768, reserve := 1024, pourSlots := 4, recompMax := 0, nLayers := 1,
    classes := [(16, 1)], templates := [template0], variants := [(7, 8)], products := [], drains := [], funcs := [], derivs := [],
    chans := [], colSums := [], palettes := [], maps := [], tnum := [], lnum := [], est0 := [], updTabs := [], vecs := [], chanDir := [],
    regions := [], plans := [], remap0 := [], words := List.replicate 16 0x08FAC688 ++ List.replicate 128 0x07FAC688, variant := 0, updDir := [],
    updProgs := [], programs := [], ladles := [] }

/-- A RUN_HEATS operation on ring 1 with TAG 7 in a phase. -/
def job0 (phase : Phase) : Job :=
  { ring := 1, tag := 7, sqHead := 0, irq := false, vector := 0, args := run0, phase := phase, left := 1, slotInHeat := 3, h := 0,
    disposed := 0, entry := zeros 144, nextEntry := none, seedsReady := true, template := 0, attemptOp := 0, attempt := 0, numVetoes := 0,
    nonNumRun := 0, disposal := .commit, pourStep := 0, suspend := false, urgent := false, cancel := false, endStatus := none,
    endDetail := none, silentEnd := false, noReplay := false, partialAt := none, skipOps := false, heatSlots := 3, stretchAc := 0,
    heatAt := 0 }

/-- The module with the pattern loaded, and with a RUN_HEATS operation in a phase. -/
def loaded : State := { up with heat := { heat0 with pattern := some pattern0 } }
def running (phase : Phase) : State := { up with heat := { heat0 with pattern := some pattern0, job := some (job0 phase) } }

/-! ## Worked examples of the spec -/

/-- 03, the example of an FI4 element: the tag of offset word 10 of tile 6, and the lane at bits [79:76]. -/
theorem test_format_example :
    offsetTag 6 10 = 12 ∧ laneCode 4 (natLe 16 (0xA * 2 ^ 76)) 19 = 0xA ∧
    tileIndex [256, 256, 1, 1, 1] [200, 130, 0, 0, 0] = 3 := by decide +kernel

/-- 04, the FU4 by FI4 group: -14 on either path. -/
theorem test_group_example :
    let act (q : Int) : Opd := ⟨ofDyadic (q - 5) 0, false⟩
    let wt (a : Int) : Opd := ⟨ofDyadic a 0, false⟩
    let l := [(act 9, wt 3), (act 5, wt (-2)), (act 0, wt 7), (act 14, wt 1)] ++ List.replicate 28 (act 5, wt 0)
    (groupSum true l).1 = .fin true 14 0 ∧ rne32 (groupSum false l).1 = rne32 (.fin true 14 0) := by decide +kernel

/-- 04, the window of R85: 2^24, -2^24, 2^-20 and 2^-30 sum to 2^-20. -/
theorem test_window_example :
    rne32 (windowSum [.fin false 1 24, .fin true 1 24, .fin false 1 (-20), .fin false 1 (-30)]) = rne32 (.fin false 1 (-20)) := by
  decide +kernel

/-- 05, the tracker: EST 323 with one bit of headroom predicts 3 for FI4; 9.3 rounds up to 0x4115 and asks for 4. -/
theorem test_tracker_example :
    predictExp 323 1 0x04 = 3 ∧ clampET 3 = 0x82 ∧ bfUp (FV.div (.fin false 93 0) (.fin false 10 0)) = 0x4115 ∧
    retryExp [0x04] 0x4115 = 4 ∧ clampET 4 = 0x83 ∧
    qualifies 3 { b := 0, fmt := 0x04, z := 0, vals := [.fin false 93 0, .fin false 51 0], rnds := [] } = none := by decide +kernel

/-- 06, the counter word of the SAND example. -/
theorem test_sand_counter_example : sandGamma [4608, 8192, 32, 1, 1] [1000, 37, 3, 0, 0] = 7088606 := by decide +kernel

/-- 07, the drained element: offset 1, code 4 by RNE, and 5 under SR when F is below 7. -/
theorem test_drain_example :
    let y : FV := .fin false 71 (-5)
    offsetFor 0x04 3 [y] = some 1 ∧ encF 0x04 .rne 2 0 y = (4, false) ∧ encF 0x04 (.sr 4 6) 2 0 y = (5, false) ∧
    encF 0x04 (.sr 4 7) 2 0 y = (4, false) := by decide +kernel

/-- 09, the remap of cluster 5.2: logical core 4 runs on 5.2.7. -/
theorem test_remap_example :
    let p := { pattern0 with words := pattern0.words.take 58 ++ [0x079AF688] ++ pattern0.words.drop 59 }
    pattern0.physCore 340 = 340 ∧ p.physCore 340 = 343 ∧ p.physCore 341 = 341 := by decide +kernel

/-- 10, the raw patches: the dense strides of the source. -/
theorem test_dense_strides_example :
    (denseStrides 0x33 [3328, 24, 720, 40, 1]).take 3 = [6656, 159744, 115015680] := by decide +kernel

/-- 11, the windows of a -2T module: the local window of MD2, and the channel of 0x0100_0012_3456 with and without channel 35. -/
theorem test_channel_example :
    up.localBase 2 = 0x02A000000000 ∧ up.lpResolve 0x010000123456 = some (35, 0x2456) ∧
    (let s := { up with regs := { up.regs with lpAct := (List.range 128).filter (· ≠ 35) } }
     (s.lpResolve 0x010000123456).map (·.1) = some 38) := by decide +kernel

/-- 11, the address-folded code: the check byte, a flipped bit 4, and a read that lands on word 10. -/
theorem test_code_example :
    (up.locate 0xC00000040).map (·.loc) = some (8 + 3 * 2 ^ 31) ∧
    foldCheck 0x11 (8 + 3 * 2 ^ 31) = 0x1E ∧ classify (foldCheck 0x11 (8 + 3 * 2 ^ 31) ^^^ foldCheck 0x01 (8 + 3 * 2 ^ 31)) = .fixedData 4 ∧
    foldCheck 0 (10 + 3 * 2 ^ 31) = 0x0F ∧ classify (foldCheck 0 (10 + 3 * 2 ^ 31) ^^^ foldCheck 0 (8 + 3 * 2 ^ 31)) = .addrFault 1 := by
  decide +kernel

/-- 13, FLEET_FIRST of the non-finite conversion at rank 417, and the combined word at another member. -/
theorem test_fleet_example :
    fleetFirst 417 30 5122 0 true = 0x8D083C0000280410 := by decide +kernel

/-- 14, the second correction in core 5.2.4: raised one level, and the core is due at the coming pour. -/
theorem test_escalation_example :
    let s := (running .steady).raise evEccCe (coreUnit 340) 0 5
    let t := ({ s with events := { s.events with openRecs := [] } }).raise evEccCe (coreUnit 340) 0 5
    s.events.outstanding.map (·.sev) = [1] ∧ s.fences.due = [] ∧ t.events.outstanding.map (fun e => (e.sev, e.escalated)) = [(1, false), (2, true)] ∧
    t.fences.due = [(340, 1)] := by decide +kernel

/-- 16, the master's two commits: 0x031, then 0x100 with the pulse moved only when the copy becomes active. -/
theorem test_commit_example :
    let s0 := { running .steady with regs := { up.regs with pourSync := { up.regs.pourSync with shadow := [0x17705, 0, 0] } } }
    let s1 := after (.commit .pourSync 3000) s0
    let s2 := after (.registerWrite 0x3000 8 0x8005) s1
    let s3 := after (.commit .pourSync 3000) s2
    s1.readReg 0x30F8 = 0x031 ∧ s1.readReg 0x3000 = 0x17705 ∧ s3.readReg 0x30F8 = 0x100 ∧ s3.regs.pourSync.active = up.regs.pourSync.active := by
  decide +kernel

/-- 17, the five updates of the capped module. -/
theorem test_stretch_example :
    ([1100, 1052, 1011, 973, 982].foldl (fun l p => l ++ [powerTerm 32768 p 1000 (l.getLast?.getD 0)]) []) =
      [2048, 4096, 6144, 5632, 5632] := by decide +kernel

/-! ## Witnesses: the machine and the rings -/

theorem test_wit_StepTakesTheQueueInOrder :
    State.reset.pending = [] ∧
    nextOf (step { up with pending := [.smbusOtherCommand, .doeDiscovery] }) =
      some { up with pending := [.doeDiscovery], out := [.smbusNack] } := by decide +kernel

theorem test_wit_OnlyTheInputLimitStops :
    (∀ v, Instr.powerOn 600 = .powerOn v → v ≤ 600) ∧ 600 < 601 ∧ faultOf (exec (.powerOn 601) up) = some (.inputDamage 601) := by
  refine ⟨fun v h => ?_, by decide, by decide +kernel⟩
  injection h with h
  omega

theorem test_wit_EndOfCommand :
    up.calm = true ∧ ({ up with events := { events0 with resetDue := some (zeros 64) } } : State).events.resetDue = some (zeros 64) := by
  decide +kernel

theorem test_wit_NoFuseIsCleared :
    let s := { up with boot := { up.boot with slotA := { up.boot.slotA with svn := 3 } }, pending := [.advanceSvn []] }
    (nextOf (step s)).map (·.fuses.svn) = some 3 := by decide +kernel

theorem test_wit_MemoryStaysCanonical :
    let s := { up.poke 0x40 [1, 2] with pending := [.hostMemWrite 0 0 (zeros 64)] }
    s.memOk = true ∧ s.mem.cells.length = 2 ∧ (nextOf (step s)).isSome = true := by decide +kernel

/-- One command per opcode, every field at its highest value, on a ring that takes it. -/
def ringExamples : List (Instr × Rc × Nat) :=
  let c (ring : Nat) : Rc := { ring := ring, tag := 2 ^ 32 - 1, irq := true, urgent := true, wait := true, vector := 63 }
  let m : Nat := 2 ^ 64 - 1
  [(.nop (c 3), c 3, 0), (.loadPattern (c 1) m m true, c 1, 1), (.bindTensors (c 1) m (2 ^ 32 - 1), c 1, 2),
    (.runHeats (c 1) ⟨m, 2 ^ 32 - 1, 2 ^ 32 - 1, m, 15, true, false, 15, m⟩, c 1, 3),
    (.runHeats (c 1) run0, c 1, 3),
    (.suspend (c 0) 255 (2 ^ 32 - 1), c 0, 4), (.resume (c 0) 255 (2 ^ 32 - 1), c 0, 5), (.cancel (c 0) 255 (2 ^ 32 - 1), c 0, 6),
    (.saveContext (c 1) m m true, c 1, 7), (.restoreContext (c 1) m m true, c 1, 8)] ++
  [(.copy (c 2) m m [7, 7, 7, 7, 7], c 2, 0x10), (.gather (c 3) m m [7, 7, 7, 7, 7] m (2 ^ 32 - 1) true, c 3, 0x11),
    (.scatter (c 4) m m [0, 1, 2, 3, 4] m (2 ^ 32 - 1) false, c 4, 0x12),
    (.fill (c 5) { dst := m, mode := 255, sandId := 65535, a := 0xFFFFFFFF, func := 65535, heat := m }, c 5, 0x13),
    (.skim (c 6) m m m, c 6, 0x20), (.fenceUnit (c 6) 65535, c 6, 0x21), (.query (c 0) 255 (2 ^ 32 - 1) m (2 ^ 32 - 1), c 0, 0x22),
    (.setSeverity (c 6) 255 255, c 6, 0x23), (.ackEvent (c 0) m, c 0, 0x24),
    (.fleetJoin (c 7) ⟨m, 65535, 255, 2 ^ 32 - 1, m, m, m, m, m⟩, c 7, 0x40), (.fleetLeave (c 7), c 7, 0x41)]

theorem test_wit_DescriptorRoundTrip :
    ringExamples.all (fun e => rcOf e.1 == some e.2.1 && opcodeOf e.1 == some e.2.2 && e.1.wf && ringAccepts e.2.1.ring e.2.2 &&
      (encodeDesc e.1 e.2.1 e.2.2).length == 64 &&
      decide (decodeDesc e.2.1.ring 5 (encodeDesc e.1 e.2.1 e.2.2) = { cmd := some e.1, opc := e.2.2, rc := e.2.1, sqHead := 5 })) = true := by
  decide +kernel

/-- A descriptor written out byte by byte: NOP with TAG 0x04030201, IRQ, WAIT and vector 9; QUERY 3 with its output buffer. -/
theorem test_descriptor_bytes :
    decodeDesc 0 0 (natLe 4 0x00090500 ++ [1, 2, 3, 4] ++ zeros 56) =
      { cmd := some (.nop ⟨0, 0x04030201, true, false, true, 9⟩), opc := 0, rc := ⟨0, 0x04030201, true, false, true, 9⟩, sqHead := 0 } ∧
    (decodeDesc 0 0 ([0x22, 0, 0, 0] ++ [1, 0, 0, 0] ++ [3, 0, 0, 0, 0, 0, 0, 0] ++ natLe 8 0x5000 ++ natLe 4 8 ++ zeros 36)).cmd =
      some (.query ⟨0, 1, false, false, false, 0⟩ 3 0 0x5000 8) ∧
    (decodeDesc 0 0 ([0x22, 0, 0, 0] ++ [1, 0, 0, 0] ++ [3, 1, 0, 0, 0, 0, 0, 0] ++ natLe 8 0x5000 ++ natLe 4 8 ++ zeros 36)).cmd = none := by
  decide +kernel

theorem test_wit_WrongRingOrRoleIsRefused :
    (rcOf (.nop (rc 0)) = some (rc 0) ∧ up.ready (rc 0) = true ∧
      ringAccepts 1 0x20 = false ∧ rcOf (.skim (rc 1) 0 4096 0) = some (rc 1) ∧ opcodeOf (.skim (rc 1) 0 4096 0) = some 0x20 ∧ up.ready (rc 1) = true) ∧
    (let s := up.setRing 6 fun q => { q with role := 1 }
     s.ready (rc 6) = true ∧ ringAccepts 6 0x23 = true ∧ (s.ring 6).role < roleNeeded s.regs.policy 0x23 ∧
      lastStatus (after (.setSeverity (rc 6) 0x10 2) s) = some stRights) := by decide +kernel

theorem test_wit_BlockedCommandWaitsInOrder :
    (let c := { rc 2 with wait := true }
     let o : Op := up.newOp (rc 2) 0x13 0 (.fill { args := fill0, dst := [], pos := 0, written := 0, ladle := 40 })
     let s := { up with ops := [o] }
     (s.fullLink && (s.ring 2).enable) = true ∧ s.ready c = false) ∧
    (State.reset.fullLink && (State.reset.ring 2).enable) = false ∧
    ((up.setRing 2 fun q => { q with enable := false }).fullLink && ((up.setRing 2 fun q => { q with enable := false }).ring 2).enable) = false := by
  decide +kernel

theorem test_wit_CompletionRecordIsWritten :
    up.port.cqHeld = [] ∧ up.canWrite up.port.cq = true ∧
    (let t := up.complete (rc 2) 0x13 4 stFenced 9 8
     t.port.cq.tail = 1 ∧ t.port.msixDue = [5] ∧
     t.out = [.hostWrite 0x200000 (natLe 4 7 ++ [0x22, 0x13, 0x0A, 0x80, 4, 0, 0, 0] ++ natLe 8 9 ++ natLe 8 8 ++ zeros 4)]) := by
  decide +kernel

theorem test_wit_FullCompletionRingHoldsRecords :
    let s := { up with port := { up.port with cq := { up.port.cq with used := 64 } } }
    s.canWrite s.port.cq = false ∧ (s.complete (rc 2) 0x13 4 stOk 0 0).port.cqHeld.length = 1 := by decide +kernel

/-- A record at S1 that the host has not acknowledged. -/
def rec1 : EventRec :=
  { seq := 1, code := 0x10, sev := 1, escalated := false, poison := false, unit := 340, count := 1, heatNum := 0, slot := 0, layer := 0, data := 0 }

theorem test_wit_ShortCommandsComplete :
    up.accepts (.nop (rc 0)) (rc 0) 0x00 = true ∧ up.audit.flashOk = true ∧
    ({ up with events := { events0 with outstanding := [rec1] } } : State).accepts (.ackEvent (rc 0) 1) (rc 0) 0x24 = true ∧
    up.accepts (.setSeverity (rc 6) 0x10 5) (rc 6) 0x23 = true ∧ up.accepts (.fenceUnit (rc 6) 0x9053) (rc 6) 0x21 = true ∧
    up.accepts (.fleetLeave (rc 7)) (rc 7) 0x41 = true := by decide +kernel

theorem test_wit_LongCommandsBegin :
    up.accepts (.copy (rc 2) 0x1000 0x2000 [0, 1, 2, 3, 4]) (rc 2) 0x10 = true ∧
    up.accepts (.gather (rc 2) 0x1000 0x2000 [0, 1, 2, 3, 4] 0x3000 16777216 true) (rc 2) 0x11 = true ∧
    up.accepts (.scatter (rc 5) 0x1000 0x2000 [0, 1, 2, 3, 4] 0x3000 1 false) (rc 5) 0x12 = true ∧
    up.accepts (.fill (rc 2) fill0) (rc 2) 0x13 = true ∧ up.accepts (.skim (rc 6) 0 4096 0x9000) (rc 6) 0x20 = true ∧
    up.accepts (.loadPattern (rc 1) 0x1000 2048 false) (rc 1) 0x01 = true ∧
    up.accepts (.loadPattern (rc 1) 0x1000 (2 ^ 33) true) (rc 1) 0x01 = true ∧ up.audit.flashOk = true := by decide +kernel

theorem test_wit_HostBoundCommandsBegin :
    loaded.accepts (.bindTensors (rc 1) 0x1000 4096) (rc 1) 0x02 = true ∧ up.accepts (.query (rc 0) 6 0 0x9000 64) (rc 0) 0x22 = true ∧
    up.accepts (.query (rc 0) 5 0 0x9000 64) (rc 0) 0x22 = true ∧ up.queryRecord 5 0 = [] ∧
    (let s := { loaded with regs := { up.regs with pourSync := rws0 [2 + 1024 * 16, 0, 0] } }
     s.accepts (.fleetJoin (rc 7) { join0 with rxBase := lpBase, rxLen := 2 ^ 30, resBase := lpBase + 2 ^ 30, resLen := 2 ^ 30 }) (rc 7) 0x40 = true ∧
      s.audit.flashOk = true) := by decide +kernel

theorem test_wit_RunHeatsBegins :
    loaded.accepts (.runHeats (rc 1) run0) (rc 1) 0x03 = true ∧ loaded.accepts (.runHeats (rc 1) { run0 with seeds := 0x7000 }) (rc 1) 0x03 = true ∧
    loaded.audit.flashOk = true := by decide +kernel

theorem test_wit_ContextCommandsBegin :
    loaded.heat.pattern = some pattern0 ∧ loaded.audit.flashOk = true ∧
    loaded.accepts (.saveContext (rc 1) 0x1000 loaded.contextSize true) (rc 1) 0x07 = true ∧
    loaded.accepts (.saveContext (rc 1) lpBase (2 ^ 20) false) (rc 1) 0x07 = true ∧
    loaded.accepts (.restoreContext (rc 1) 0x1000 256 true) (rc 1) 0x08 = true ∧
    loaded.accepts (.restoreContext (rc 1) lpBase (2 ^ 20) false) (rc 1) 0x08 = true := by decide +kernel

/-- An operation on ring 2 with TAG 9. -/
def op0 (st : OpState) (body : OpBody) : Op :=
  { ring := 2, tag := 9, id := 1, opc := match body with
      | .copy c => c.opc
      | .fill _ => 0x13
      | .skim _ => 0x20
      | .context c => if c.save then 0x07 else 0x08
      | .load _ _ _ _ => 0x01,
    sqHead := 0, irq := false, vector := 0, state := st, cancel := false, silent := false, waitFor := [], endWith := none, body := body }

def copy0 : CopyOp :=
  { opc := 0x10, srcIova := 0x1000, dstIova := 0x2000, perm := [0, 1, 2, 3, 4], list := 0, entries := 0, inHost := false, src := [], dst := [],
    units := [], haveLst := false, pos := 0, moved := 0, bad := 0, ladle := 40, leafs := [] }
def fillOp0 : FillOp := { args := fill0, dst := [], pos := 0, written := 0, ladle := 40 }
def skim0 : SkimOp :=
  { base := 0, length := 4096, summary := 0x9000, pos := 0, chunks := 0, read := 0, fixed := 0, bad := 0, addr := 0, back := 0, skipped := 0,
    fails := [], ending := none, noSram := false }
def context0 (save host : Bool) : CtxOp := { save := save, area := lpBase, length := 256, host := host, image := zeros 256, bad := [], done := true }

/-- The module with one operation outstanding. -/
def withOp (o : Op) : State := { loaded with ops := [o] }

theorem test_wit_ControlOfRunHeats :
    (let s := running .steady
     s.heat.job = some (job0 .steady) ∧ (job0 .steady).ring = 1 ∧ (job0 .steady).tag = 7 ∧ s.targets 1 7 = 1 ∧
     s.accepts (.suspend (rc 0) 1 7) (rc 0) 0x04 = true ∧ (job0 .steady).phase ≠ .suspended ∧ (job0 .steady).cancel = false ∧
     (job0 .steady).endStatus ≠ some stCancelled ∧ s.accepts (.cancel (rc 0) 1 7) (rc 0) 0x06 = true ∧ s.pastCommit (job0 .steady) = false) ∧
    (let s := running .suspended
     s.targets 1 7 = 1 ∧ s.accepts (.resume (rc 0) 1 7) (rc 0) 0x05 = true ∧ (job0 .suspended).phase = .suspended ∧
     s.accepts (.cancel (rc 0) 1 7) (rc 0) 0x06 = true) ∧
    (let j := { job0 .flush with suspend := true }
     let s := { loaded with heat := { loaded.heat with job := some j } }
     s.targets 1 7 = 1 ∧ s.accepts (.resume (rc 0) 1 7) (rc 0) 0x05 = true ∧ j.phase ≠ .suspended ∧ j.suspend = true) ∧
    (let s := running .waitSync
     s.targets 1 7 = 1 ∧ s.accepts (.cancel (rc 0) 1 7) (rc 0) 0x06 = true ∧ s.pastCommit (job0 .waitSync) = true) := by decide +kernel

theorem test_wit_ControlOfChunkedOperations :
    (let o := op0 .running (.skim skim0)
     let s := withOp o
     s.findTag 2 9 = some o ∧ s.targets 2 9 = 1 ∧ s.targetsJob 2 9 = false ∧ isSuspendable o.opc = true ∧
     s.accepts (.suspend (rc 0) 2 9) (rc 0) 0x04 = true ∧ o.state = .running ∧ o.cancel = false ∧ o.idle = false ∧
     s.accepts (.cancel (rc 0) 2 9) (rc 0) 0x06 = true) ∧
    (let o := op0 .suspendPending (.skim skim0)
     (withOp o).findTag 2 9 = some o ∧ (withOp o).targets 2 9 = 1 ∧ (withOp o).accepts (.resume (rc 0) 2 9) (rc 0) 0x05 = true) ∧
    (let o := op0 .suspended (.fill fillOp0)
     (withOp o).findTag 2 9 = some o ∧ (withOp o).targets 2 9 = 1 ∧ isSuspendable o.opc = true ∧ o.body = .fill fillOp0 ∧
     (withOp o).accepts (.resume (rc 0) 2 9) (rc 0) 0x05 = true ∧ (withOp o).accepts (.cancel (rc 0) 2 9) (rc 0) 0x06 = true) ∧
    (up.targets 7 9 ≠ 1 ∧ up.accepts (.suspend (rc 0) 7 9) (rc 0) 0x04 = true ∧ up.accepts (.resume (rc 0) 7 9) (rc 0) 0x05 = true ∧
     up.accepts (.cancel (rc 0) 7 9) (rc 0) 0x06 = true) := by decide +kernel

/-- Ring 2 with a descriptor to fetch. -/
def waiting : State := up.setRing 2 fun q => { q with tail := 1 }

/-- Ring 2 with a fetched NOP, and with a descriptor that was not valid. -/
def fetched0 (i : Option Instr) : State := up.setRing 2 fun q => { q with fetched := [{ cmd := i, opc := 0, rc := rc 2, sqHead := 1 }] }

theorem test_wit_DoorbellSubmitsDescriptors :
    up.fullLink = true ∧ (up.ring 2).enable = true ∧ 63 < 2 ^ (up.ring 2).log2 ∧ 2 ^ (up.ring 2).log2 ≤ 64 ∧
    ((up.setRing 2 fun q => { q with enable := false }).fullLink = true ∧ ((up.setRing 2 fun q => { q with enable := false }).ring 2).enable = false) ∧
    ((waiting.ring 2).enable = true ∧ (waiting.ring 2).fetching = false ∧ (waiting.ring 2).fetched = [] ∧ (waiting.ring 2).head ≠ (waiting.ring 2).tail) ∧
    (up.ring 2).head = (up.ring 2).tail := by decide +kernel

theorem test_wit_DispatchTakesTheOldest :
    up.fullLink = true ∧ (up.ring 2).fetched = [] ∧
    (fetched0 none).fullLink = true ∧ ((fetched0 none).ring 2).fetched = [{ cmd := none, opc := 0, rc := rc 2, sqHead := 1 }] ∧
    (fetched0 none).canDispatch (rc 2) = true ∧
    ((fetched0 (some (.nop (rc 2)))).ring 2).fetched = [{ cmd := some (.nop (rc 2)), opc := 0, rc := rc 2, sqHead := 1 }] ∧
    (fetched0 (some (.nop (rc 2)))).canDispatch (rc 2) = true ∧
    ((fetched0 none).setRing 2 fun q => { q with busy := true }).canDispatch (rc 2) = false := by decide +kernel

theorem test_wit_HeadDoorbellsFreeRecords :
    up.fullLink = true ∧ up.port.cq.enable = true ∧ 63 < 2 ^ up.port.cq.log2 ∧ 2 ^ up.port.cq.log2 ≤ 64 ∧
    up.port.eq.enable = true ∧ 63 < 2 ^ up.port.eq.log2 ∧ 2 ^ up.port.eq.log2 ≤ 64 := by decide +kernel

theorem test_wit_InterruptIsSentOrPended :
    9 ∉ up.port.msixDue ∧
    (let s := { up with port := { up.port with msixDue := [5] } }
     s.linkLive = true ∧ 5 ∈ s.port.msixDue ∧ 5 ∉ s.port.msixWindow ∧ s.port.msix[5]? = some { addr := 0, data := 0, mask := true }) ∧
    (let s := after (.registerWrite 0x1F005C 4 0) { up with port := { up.port with msixDue := [5] } }
     5 ∈ s.port.msixDue ∧ 5 ∉ s.port.msixWindow ∧ s.port.msix[5]? = some { addr := 0, data := 0, mask := false }) := by decide +kernel

/-- The state with one access to the host outstanding. -/
def asking (s : State) (write : Bool) (len : Nat) (p : Purpose) : State := { s with port := { s.port with hostAcc := [⟨0, 0x1000, len, write, p⟩], nextAcc := 1 } }

/-- The state without it. -/
def answered (s : State) : State := { s with port := { s.port with hostAcc := [], nextAcc := 1 } }

theorem test_wit_HostDataGoesToItsReader :
    (let s := asking up false 64 (.descriptor 2)
     s.linkLive = true ∧ s.takeAcc 0 = some (⟨0, 0x1000, 64, false, .descriptor 2⟩, answered up)) ∧
    (asking loaded false 160 (.bindList (rc 1) 1 0)).takeAcc 0 = some (⟨0, 0x1000, 160, false, .bindList (rc 1) 1 0⟩, answered loaded) ∧
    (asking loaded false 64 (.peerTable (rc 7) join0 0)).takeAcc 0 = some (⟨0, 0x1000, 64, false, .peerTable (rc 7) join0 0⟩, answered loaded) ∧
    (let s := running .start
     let w := (answered s).snoop 125 0xD 0 (addrBlocks 0x1000 (slice (zeros 144) 0 144))
     (asking s false 32 .seedBlock).takeAcc 0 = some (⟨0, 0x1000, 32, false, .seedBlock⟩, answered s) ∧ w.heat.job = some (job0 .start) ∧
      (asking s false 144 (.heatEntry 0)).takeAcc 0 = some (⟨0, 0x1000, 144, false, .heatEntry 0⟩, answered s)) ∧
    ([(OpBody.load 0x1000 2048 false 2, Purpose.image 2 1), (.copy copy0, .copySrc 2 1), (.copy copy0, .copyDst 2 1), (.fill fillOp0, .copyDst 2 1),
      (.copy { copy0 with opc := 0x11, inHost := true, entries := 4 }, .gatherList 2 1), (.context (context0 false true), .context 2 1)].all fun e =>
      let s := withOp (op0 .running e.1)
      let w := (answered s).snoop 125 0xD 0 (addrBlocks 0x1000 (slice (zeros 64) 0 64))
      decide ((asking s false 64 e.2).takeAcc 0 = some (⟨0, 0x1000, 64, false, e.2⟩, answered s)) && s.linkLive &&
        decide (w.findOp 2 1 = some (op0 .running e.1))) = true := by decide +kernel

theorem test_wit_HostWritesErrorsAndTimeouts :
    (asking up true 64 (.queryOut (rc 0) 64 0)).takeAcc 0 = some (⟨0, 0x1000, 64, true, .queryOut (rc 0) 64 0⟩, answered up) ∧
    (asking up true 64 (.queryOut (rc 0) 64 0)).linkLive = true ∧
    ([(OpBody.skim { skim0 with ending := some stOk }, Purpose.skimSummary 2 1), (.context (context0 true true), .context 2 1)].all fun e =>
      let s := withOp (op0 .running e.1)
      decide ((asking s true 64 e.2).takeAcc 0 = some (⟨0, 0x1000, 64, true, e.2⟩, answered s)) && (asking s true 64 e.2).linkLive &&
        decide ((answered s).findOp 2 1 = some (op0 .running e.1))) = true ∧
    (asking up false 160 (.bindList (rc 1) 1 0)).takeAcc 0 = some (⟨0, 0x1000, 160, false, .bindList (rc 1) 1 0⟩, answered up) ∧
    (let s := withOp (op0 .running (.copy copy0))
     (asking s false 128 (.copySrc 2 1)).takeAcc 0 = some (⟨0, 0x1000, 128, false, .copySrc 2 1⟩, answered s) ∧
     (answered s).findOp 2 1 = some (op0 .running (.copy copy0))) ∧
    (let s := running .start
     (asking s false 32 .seedBlock).takeAcc 0 = some (⟨0, 0x1000, 32, false, .seedBlock⟩, answered s) ∧
     (answered s).heat.job = some (job0 .start) ∧ (job0 .start).phase = .start ∧ (answered s).heat.saved = none) ∧
    (asking up false 64 .leaf).takeAcc 0 = some (⟨0, 0x1000, 64, false, .leaf⟩, answered up) := by decide +kernel

/-! ## Witnesses: the mailbox and the management port -/

/-- A key pair whose private part is 1: its public key is the generator. A signature with the nonce 1 is (x of the generator,
hash + x) modulo the order. -/
def keyG : List Byte := 4 :: natBe 48 ecGx ++ natBe 48 ecGy
def sign1 (m : List Byte) : List Byte := natBe 48 (ecGx % ecN) ++ natBe 48 ((beNat (sha384 m) + ecGx) % ecN)

/-- A second public key, and a signature by it, computed outside the model from the definitions of SHA-384 and ECDSA. -/
def keyV : List Byte := natBe 97 0x044E7436699EB1782BFED8AC0485D6A34E82E832AFA582AEE3F99A8F984214AE1411B93954C6D6634F4C84EF3DBA62B26238FE2F7F2F0F2D3FC0B1A798455807B0C4FC1B4ED7BCC15F4E566C64A22DC3E1B9074D8260305812AB7607183AE402CC
theorem test_ecdsa_vector :
    ecdsaVerify keyV (ascii "HSAUTH01 vector")
      (natBe 48 0x17DCF77BB2496483EF8EB69186291214AB6E709C85BA2BDCA4A15F7BB8E887EE4BA1FEBBF4ED154D605CD1B051B68C5C)
      (natBe 48 0x48BC6ECE220DDD585B9839B365E4E5339CF1565FF2E201C6AB25BFACF339C45509078C8DBD4690977E4E044353541768) = true ∧
    ecdsaVerify keyV (ascii "HSAUTH01 Vector")
      (natBe 48 0x17DCF77BB2496483EF8EB69186291214AB6E709C85BA2BDCA4A15F7BB8E887EE4BA1FEBBF4ED154D605CD1B051B68C5C)
      (natBe 48 0x48BC6ECE220DDD585B9839B365E4E5339CF1565FF2E201C6AB25BFACF339C45509078C8DBD4690977E4E044353541768) = false ∧
    ecdsaVerify keyG (ascii "abc") ((sign1 (ascii "abc")).take 48) ((sign1 (ascii "abc")).drop 48) = true := by decide +kernel

/-- An installer's key, an operator's, a nonce, and the module that holds them. -/
def inst : Key := { enc := keyG, id := keyIdOf keyG, role := 2 }
def oper : Key := { enc := keyV, id := keyIdOf keyV, role := 1 }
def nonce0 : List Byte := (List.range 48).map fun i => BitVec.ofNat 8 i
def keyed : State := { up with mbx := { up.mbx with keys := [inst, oper], authNonce := some nonce0, debugNonce := some nonce0, sessionKey := inst.id } }

/-- AUTH for a role by the installer's key, with the bytes of its signature. -/
def authReq (role : Byte) (sig : List Byte) : List Byte := [role, 0x81] ++ zeros 14 ++ inst.id ++ sig
def authMsg (role : Byte) : List Byte := ascii "HSAUTH01" ++ zeros 8 ++ nonce0 ++ [role, 0x81] ++ inst.id

theorem test_wit_MailboxRefusesByModeAndRole :
    (let s := { up with boot := { up.boot with crucible := 1 } }
     s.mailboxOpen (zeros 4096) = true ∧ s.inCrucible = true ∧ (after (.advanceSvn []) s).mbx.status = stConfig) ∧
    (let s := { up with mbx := { up.mbx with session := 0 } }
     s.mailboxOpen [] = true ∧ s.inCrucible = false ∧ s.mbx.session < 1 ∧ (after (.auditRead []) s).mbx.status = stRights) ∧
    (let s := { up with mbx := { up.mbx with session := 1 } }
     s.mailboxOpen [] = true ∧ s.mbx.session < 2 ∧ (after (.stageFirmware []) s).mbx.status = stRights) := by decide +kernel

theorem test_wit_MailboxQueriesAnswer :
    up.mailboxOpen (zeros 9) = true ∧ up.inCrucible = false ∧ 1 ≤ up.mbx.session ∧ 9 ≤ (zeros 9).length ∧ u (zeros 9) 8 1 = 0 ∧
    up.mailboxOpen (zeros 8 ++ [1]) = true ∧ u (zeros 8 ++ [1]) 8 1 = 1 ∧ up.audit.flashOk = true := by decide +kernel

theorem test_wit_AuthGrantsOrCounts :
    let sig := sign1 (authMsg 2)
    let req := authReq 2 sig
    keyed.mailboxOpen req = true ∧ 128 ≤ req.length ∧ zeroBytes req 2 14 = true ∧ keyed.audit.flashOk = true ∧ u req 0 1 = 2 ∧
    keyed.mbx.authLocked = false ∧ keyed.mbx.authNonce = some nonce0 ∧ keyed.mbx.keys.find? (fun k => k.id = slice req 16 16) = some inst ∧
    2 ≤ inst.role ∧
    ecdsaVerify inst.enc (ascii "HSAUTH01" ++ natLe 8 keyed.fuses.serial ++ nonce0 ++ natLe 1 2 ++ natLe 1 (u req 1 1) ++ slice req 16 16)
      (slice req 32 48) (slice req 80 48) = true ∧
    (after (.auth req) keyed).mbx.session = 2 ∧ (after (.auth req) keyed).mbx.authNonce = none ∧
    ((after (.auth req) keyed).ring 7).key = inst.id := by decide +kernel

theorem test_wit_AuthGrantsOrCounts_refused :
    let req := authReq 2 (zeros 96)
    let locked : State := { keyed with mbx := { keyed.mbx with authLocked := true } }
    let eighth := after (.auth req) { keyed with mbx := { keyed.mbx with authFailRun := 7 } }
    keyed.mailboxOpen req = true ∧ 128 ≤ req.length ∧ zeroBytes req 2 14 = true ∧ u req 0 1 = 2 ∧ locked.mbx.authLocked = true ∧
    ({ keyed with mbx := { keyed.mbx with authNonce := none } } : State).mbx.authNonce = none ∧
    up.mbx.keys.find? (fun k => k.id = inst.id) = none ∧
    ecdsaVerify inst.enc (authMsg 2) (slice req 32 48) (slice req 80 48) = false ∧ eighth.mbx.authLocked = true ∧ eighth.mbx.status = stRights := by
  decide +kernel

theorem test_wit_SessionsAndKeysChange :
    (up.mailboxOpen [0, 0xFF] = true ∧ 1 ≤ up.mbx.session ∧ 2 ≤ ([0, 0xFF] : List Byte).length ∧ zeroBytes [0, 0xFF] 0 1 = true) ∧
    (let req := [2] ++ zeros 15 ++ keyG
     let s := { up with mbx := { up.mbx with session := 0 } }
     s.mailboxOpen req = true ∧ s.inCrucible = false ∧ 113 ≤ req.length ∧ zeroBytes req 1 15 = true ∧ s.audit.flashOk = true ∧ u req 0 1 = 2 ∧
     s.claimed = false ∧ (ecDecode (slice req 16 97)).isSome = true ∧ s.mbx.keys = [] ∧ (after (.enrollKey req) s).mbx.keys.length = 1) ∧
    (let req := [1] ++ zeros 15 ++ keyV
     up.mailboxOpen req = true ∧ u req 0 1 = 1 ∧ 2 ≤ up.mbx.session ∧ (ecDecode (slice req 16 97)).isSome = true) ∧
    (let req := zeros 16 ++ inst.id
     keyed.mailboxOpen req = true ∧ 32 ≤ req.length ∧ zeroBytes req 0 16 = true ∧
     keyed.mbx.keys.find? (fun x => x.id = slice req 16 16) = some inst ∧ inst.role = 2 ∧ (keyed.mbx.keys.filter fun x => x.role = 2).length = 1) ∧
    (let req := zeros 16 ++ oper.id
     keyed.mailboxOpen req = true ∧ keyed.mbx.keys.find? (fun x => x.id = slice req 16 16) = some oper ∧ oper.role = 1) := by decide +kernel

theorem test_wit_FirmwareCommandsAct :
    (let req := natLe 8 0 ++ natLe 4 3968 ++ [1] ++ zeros 115 ++ zeros 3968
     up.mailboxOpen req = true ∧ 2 ≤ up.mbx.session ∧ up.audit.flashOk = true ∧ u req 0 8 = 0 ∧ u req 8 4 = 3968 ∧ u req 12 1 = 1 ∧
     128 + 3968 ≤ req.length ∧ zeroBytes req 13 115 = true) ∧
    (let req := natLe 8 (96 * 2 ^ 20 - 1) ++ natLe 4 1 ++ [0] ++ zeros 116
     u req 0 8 = 96 * 2 ^ 20 - 1 ∧ u req 8 4 = 1 ∧ u req 12 1 = 0 ∧ 128 + 1 ≤ req.length ∧ u req 0 8 + 1 ≤ 96 * 2 ^ 20 ∧ zeroBytes req 13 115 = true) ∧
    up.inCrucible = false ∧ up.boot.activeSlot = some 0 := by decide +kernel

/-- A firmware image: a header, the public key of slot 0 and one more component, signed by that key. -/
def image0 : List Byte :=
  let body := keyG ++ zeros 3
  let head := ascii "TIHOYFW1" ++ natLe 4 1 ++ natLe 4 5 ++ natLe 8 100 ++ zeros 8 ++ sha384 body ++
    ([1, 0, 0, 0] ++ natLe 4 0 ++ natLe 4 97 ++ zeros 4) ++ ([2, 0, 0, 0] ++ natLe 4 97 ++ natLe 4 3 ++ zeros 4) ++ zeros 304
  head ++ sign1 head ++ body

theorem test_firmware_image_verifies :
    let f := { fuses0 with fwKeyHash0 := sha384 keyG }
    image0.length = 612 ∧ fwVerifies f image0 = true ∧ fwVerifies { f with svn := 6 } image0 = false ∧
    fwVerifies { f with fwKeyRevoke := 1 } image0 = false ∧ fwVerifies f (patch image0 600 [1]) = false := by decide +kernel

/-- A consent token and an unlock over one scope. -/
def unlockReq (scope : Nat) : List Byte :=
  let part := ascii "HSCONSNT" ++ zeros 8 ++ nonce0 ++ natLe 4 scope ++ inst.id
  let token := part ++ sign1 part
  let part2 := ascii "HSUNLOCK" ++ zeros 8 ++ nonce0 ++ natLe 4 scope ++ sha384 token
  token ++ zeros 12 ++ part2 ++ sign1 part2

theorem test_wit_DebugUnlockNeedsBothSignatures :
    let s := { keyed with boot := { keyed.boot with dbgKey := keyG }, fuses := { keyed.fuses with dbgKeyHash := sha384 keyG } }
    let req := unlockReq 1
    s.mailboxOpen req = true ∧ s.inCrucible = false ∧ 404 ≤ req.length ∧ zeroBytes req 180 12 = true ∧ s.audit.flashOk = true ∧
    s.unlockOk req = true ∧ (u req 64 4).testBit 1 = false ∧ keyed.unlockOk req = false ∧
    s.unlockOk (unlockReq 2) = true ∧ (u (unlockReq 2) 64 4).testBit 1 = true ∧ s.mailboxOpen (unlockReq 2) = true ∧
    zeroBytes (unlockReq 2) 180 12 = true := by decide +kernel

theorem test_wit_ManagementReadsAnswer :
    up.linkLive = true ∧ up.inCrucible = false ∧ ({ up with boot := { up.boot with crucible := 2 } } : State).inCrucible = true ∧
    ({ up with boot := { up.boot with crucible := 2 } } : State).linkLive = true ∧ up.power.powered = true := by decide +kernel

theorem test_wit_JtagFollowsTheScope :
    up.alive = true ∧ (1 ≠ 0 ∧ 1 &&& ({ up.mbx with debugScope := 1 } : Mailbox).debugScope = 1 ∧ up.audit.flashOk = true) ∧
    2 &&& ({ up.mbx with debugScope := 1 } : Mailbox).debugScope ≠ 2 ∧
    up.inStores 0x080000000000 = true ∧ up.inStores 0x0800FFFFFFFF = true ∧ up.inStores 0x07FFFFFFFFFF = false ∧ up.inStores 0x080100000000 = false := by
  decide +kernel

/-! ## Witnesses: power, reset, start, registers -/

def fencedAt (s : State) (unit : Nat) : State := { s with fences := { s.fences with fenced := [unit] } }

theorem test_wit_ResetsHaveTheirCauses :
    (let s := { up with power := { up.power with powered := false } }
     s.power.powered = false ∧ 430 ≤ 430 ∧ 429 < 430 ∧ 600 ≤ 600 ∧ (after (.powerOn 430) s).pins.pwrGood = true) ∧
    (up.alive = true ∧ (up.boot.ready || up.inCrucible) = true) ∧
    ((starting 3).alive = true ∧ ((starting 3).boot.ready || (starting 3).inCrucible) = false ∧ (after .managementWatchdog (starting 3)).boot.startFail = 1) ∧
    (up.fencedNow (dieUnit 3) = false ∧ (fencedAt up (dieUnit 3)).fencedNow (dieUnit 3) = true) ∧
    (up.mailboxOpen [] = true ∧ 2 ≤ up.mbx.session ∧ (after (.resetModule []) up).boot.resetCause = 4) ∧
    (let s := after .thermTripInput up
     s.power.powered = true ∧ s.power.tripHeld = true ∧ s.boot.resetCause = 5 ∧ s.pins.thermTrip = false) := by decide +kernel

theorem test_wit_LinkComesAndGoes :
    State.reset.port.linkUp = false ∧ up.port.linkUp = true ∧
    (let s := { starting 6 with pins := { pins0 with perst := true } }
     linkModeOk 64 8 = true ∧ linkModeOk 8 1 = true ∧ s.alive = true ∧ s.pins.perst = true ∧ s.mbx.jtagClamp = none ∧ s.inCrucible = false ∧ 6 ≤ s.boot.stage ∧
      (after (.cxlLinkTrained 64 8) s).port.linkUp = true) ∧
    (let s := { starting 2 with pins := { pins0 with perst := true }, boot := { boot0 with stage := 2, crucible := 1 } }
     s.alive = true ∧ s.pins.perst = true ∧ s.mbx.jtagClamp = none ∧ s.inCrucible = true) ∧
    (let s := { starting 5 with pins := { pins0 with perst := true } }
     s.alive = true ∧ s.pins.perst = true ∧ s.inCrucible = false ∧ s.boot.stage < 6) := by decide +kernel

theorem test_wit_StartStagesInOrder :
    ([1, 2, 3, 4, 5, 6].all fun n => (starting n).alive && !(starting n).inCrucible && !(starting n).boot.ready && decide ((starting n).boot.stage = n)) = true ∧
    (¬ (linkUnit 40 ∈ [linkUnit 40] ∧ linkUnit 41 ∈ [linkUnit 40])) ∧ (linkUnit 40 ∈ [linkUnit 41, linkUnit 40] ∧ linkUnit 41 ∈ [linkUnit 41, linkUnit 40]) ∧
    ({ starting 6 with port := { port0 with linkUp := true } } : State).port.linkUp = true ∧ (starting 6).port.linkUp = false ∧
    ¬ ((starting 6).boot.stage = 6 ∧ 2 = 1 ∧ (starting 6).pins.perst = false) ∧ (starting 6).pins.perst = false ∧
    (after (.startStageDone [] 0) (after (.startStageDone [] 0) (starting 1))).boot.stage = 3 := by decide +kernel

theorem test_wit_StretchFollowsItsTerms :
    up.alive = true ∧ (1000 < 1001 ∧ 974 + 25 < 1000 ∧ 1000 ≤ 1000 ∧ 1000 ≤ 975 + 25) ∧
    (100 < 105 ∧ 105 ≤ 105 ∧ 100 < 101 ∧ 104 < 105 ∧ 97 + 2 < 100 ∧ 100 ≤ 98 + 2 ∧ 98 ≤ 100) ∧
    (({ power0 with flowLost := true } : Power).flowLost = true ∧ ({ power0 with leak := true } : Power).leak = true ∧ power0.flowLost = false ∧
      power0.leak = false) ∧
    (after (.stretchUpdate { tele0 with inPower := 1300 }) up).power.nextStretch = 2048 := by decide +kernel

theorem test_wit_ControlCoresRestartTwice :
    (63 < 64 ∧ up.fencedNow (controlUnit 63) = false ∧ (∀ r ∈ up.fences.restarts, r.core ≠ 63) ∧ (fencedAt up (controlUnit 63)).fencedNow (controlUnit 63) = true) ∧
    (let s (tries : Nat) : State := { up with fences := { up.fences with restarts := [({ core := 63, tries := tries, quiet := false } : Restart)] } }
     (s 1).fences.restarts.find? (fun r => r.core = 63) = some { core := 63, tries := 1, quiet := false } ∧ 1 < 2 ∧
     (s 2).fences.restarts.find? (fun r => r.core = 63) = some { core := 63, tries := 2, quiet := false } ∧ 2 ≤ 2 ∧
     controlUnit 63 ∈ (after (.controlCoreRestartTimeout 63) (s 2)).fences.marked) := by decide +kernel

theorem test_wit_CommitStagesAWholeBlock :
    up.barLive = true ∧ up.commitOk .defaults = true ∧ 2 ≤ up.mbx.session ∧ up.audit.flashOk = true ∧ up.commitOk .pourSync = true ∧
    up.commitOk .limits = true ∧
    (let s := { up with regs := { up.regs with limits := { up.regs.limits with shadow := [0, 0] }, defaults := { up.regs.defaults with shadow := [3] } } }
     s.barLive = true ∧ s.commitOk .limits = false ∧ s.commitOk .defaults = false) ∧
    ({ up with mbx := { up.mbx with session := 1 } } : State).mbx.session < 2 ∧
    (let s := after (.commit .limits 64) up
     (s.regs.rws .limits).pending = true ∧ (up.regs.rws .limits).pending = false) := by decide +kernel

theorem test_wit_RingsTurnOnAndOff :
    up.barLive = true ∧
    (let s := up.setRing 7 fun q => { q with enable := false }
     (s.ring 7).enable = false ∧ s.enableOk (.sq 7) = true ∧ s.barLive = true) ∧
    (let s := up.setRing 7 fun q => { q with enable := false, base := 0x100040 }
     (s.ring 7).enable = false ∧ s.enableOk (.sq 7) = false) ∧
    (let s (b : Nat) : State := { up with port := { up.port with cq := { up.port.cq with enable := false, base := b }, eq := { up.port.eq with enable := false, base := b } } }
     (s 0).port.cq.enable = false ∧ (s 0).enableOk .cq = true ∧ (s 32).enableOk .cq = false ∧ (s 0).enableOk .eq = true ∧ (s 32).enableOk .eq = false) ∧
    up.ringOn (.sq 0) = true ∧ up.ringOn .cq = true ∧ up.ringOn .eq = true ∧ (up.ring 7).enable = true := by decide +kernel

theorem test_wit_InstallerFieldsNeedTheirSession :
    up.barLive = true ∧ up.audit.flashOk = true ∧ 2 ≤ up.mbx.session ∧ 9 ≤ 9 ∧
    (let s := { up with mbx := { up.mbx with session := 1 } }
     s.barLive = true ∧ s.mbx.session < 2) ∧
    up.fencedNow (snooperUnit 126) = false ∧ (fencedAt up (ladleUnit 39)).fencedNow (snooperUnit 39) = true ∧
    look 9 (after (.severityMapWrite 4 0x0505) up).events.sevSet 0x20 = 5 := by decide +kernel

theorem test_wit_RegisterWritesReachTheirFields :
    up.barLive = true ∧ (0x1FFFFC < 0x200000 ∧ 0x1FFFFC % 8 ≠ 0 ∧ 0x1FFFFE % 4 ≠ 0) ∧ (0x1FF8 < 0x2000 ∧ 0x1FF8 % 8 = 0) ∧
    ((up.setRing 7 fun q => { q with enable := false }).ring 7).enable = false ∧ (up.ring 7).enable = true ∧ 511 < 512 ∧
    2 ≤ up.mbx.session ∧ up.audit.flashOk = true ∧
    ({ up with regs := { up.regs with flashWrites := [(0x7000, 5)] } } : State).regs.flashWrites = (0x7000, 5) :: [] ∧ up.regs.flashWrites = [] := by
  decide +kernel

/-- The split-write registers set. -/
def splitting (a a2 : Nat) : State := { up with regs := { up.regs with splitA := a, splitA2 := a2, splitD := 0x11, splitD2 := 0x01, splitX := 0 } }

theorem test_wit_SplitWriteStoresTheChosenCheck :
    (let s := splitting 0xC00000040 0xC00000040
     s.barLive = true ∧ s.audit.flashOk = true ∧ 2 ≤ s.mbx.session ∧ s.running = false ∧ s.regs.splitA % 8 = 0 ∧ s.regs.splitA2 % 8 = 0 ∧
     s.populated s.regs.splitA = true ∧ s.populated s.regs.splitA2 = true ∧ s.locate s.regs.splitA = some ⟨bondedUnit 3, 8 + 3 * 2 ^ 31⟩ ∧
     (after .splitWrite s).mem.readWord 0xC00000040 = (0x01, .fixedData 4)) ∧
    ({ splitting 0 0 with mbx := { up.mbx with session := 1 } } : State).mbx.session < 2 ∧
    (let s := { running .steady with regs := (splitting 0 0).regs }
     s.barLive = true ∧ 2 ≤ s.mbx.session ∧ s.running = true) ∧
    (splitting 4 0).regs.splitA % 8 ≠ 0 ∧ (splitting 0 4).regs.splitA2 % 8 ≠ 0 ∧ (splitting 0x4000000000 0).populated 0x4000000000 = false := by
  decide +kernel

/-! ## Witnesses: memory, events, fences, links -/

theorem test_wit_ReadsClassifyTheirSyndrome :
    255 < 256 ∧ nth dataColumns 63 < 256 ∧ 63 < 64 ∧ 2 ^ 7 < 256 ∧ (byteWeight 0xFD % 2 = 1 ∧ 0xFD ∉ dataColumns ∧ ∀ i < 8, 0xFD ≠ 2 ^ i) ∧
    39 < 40 ∧ nth locColumns 39 < 256 ∧ (byteWeight 0xFC % 2 = 0 ∧ 0xFC ≠ 0 ∧ 0xFC ≠ 0xFF ∧ 0xFC ∉ locColumns) ∧
    (let s (S : Nat) : State := { up with mem := { up.mem with synd := [(0, S)] } }
     (s 1).locate 0 = some ⟨bondedUnit 0, 0⟩ ∧ classify ((s (nth dataColumns 4)).mem.syndrome 0) = .fixedData 4) ∧ 0 ≠ 63 := by decide +kernel

/-- Both decoders programmed. -/
def decoding : State := { up with port := { up.port with hdm := [some 0, some 0x8000000000] } }

theorem test_wit_HostAccessesAreServedOrRejected :
    decoding.hdmHit 0 (256 * gib - 63) 64 = false ∧ decoding.hdmHit 0 (256 * gib - 64) 64 = true ∧ decoding.hdmHit 1 0 64 = true ∧
    decoding.hdmHit 1 (2048 * gib) 1 = false ∧
    decoding.hostRejected 0 64 false = false ∧ decoding.hostRejected ((decoding.hdmTarget 0).1 + 16 * gib - 64) 64 false = true ∧
    (decoding.snoop 125 0x8 0 (addrBlocks 0 (zeros 64))).hostRejected 0 64 true = false ∧
    (decoding.snoop 125 0x8 0 (addrBlocks (16 * gib - 64) (zeros 64))).hostRejected (16 * gib - 64) 64 true = true ∧
    up.fullLink = true ∧ up.linkLive = true ∧ 64 ∈ ({ up.port with bisnp := [64] } : Port).bisnp ∧
    (after (.hostMemRead 0 64 4 false) (after (.hostMemWrite 0 64 [1, 2, 3, 4]) decoding)).out =
      [.writeDone true, .memData [1, 2, 3, 4] [false]] := by decide +kernel

theorem test_wit_EventsFormRecordsAndReact :
    up.events.resetDue = none ∧
    (let e := { rec1 with code := evLinkCrc, unit := 5, layer := 0 }
     let s := { up with events := { events0 with openRecs := [e] } }
     s.events.resetDue = none ∧
      s.events.openRecs.find? (fun e => decide (e.code = evLinkCrc) && decide (e.unit = 5) && decide (e.layer = 0)) = some e) ∧
    (up.events.openRecs.find? fun e => decide (e.code = evEccCe) && decide (e.unit = 5) && decide (e.layer = 0)) = none ∧
    (let s := { up with events := { events0 with sevForce := put defaultSev evEccCe 5 } }
     s.sevOf evEccCe = 5 ∧ (s.raise evEccCe 5 0 0).events.resetDue.isSome = true ∧ up.sevOf evEccCe ≠ 5) ∧
    up.heat.job = none ∧ (running .steady).wordOpen = true ∧ up.running = false ∧ fenceable (coreUnit 1023) = true := by decide +kernel

theorem test_wit_FencesAndCrossingsTakeTheirSteps :
    (let s (stopped : Bool) : State := { up with fences := { up.fences with fencing := [({ unit := 340, stopped := stopped, cause := 0 } : Fencing)] } }
     (∃ f ∈ (s true).fences.fencing, f.unit = 340 ∧ f.stopped = true) ∧ (∀ f ∈ (s false).fences.fencing, f.unit = 340 → f.stopped = false) ∧
      (after (.fencePowerGate 340) (after (.fenceClockStop 340) (s false))).fences.fenced = [340]) ∧
    (withOp (op0 .running (.copy copy0))).findTag 2 9 = some (op0 .running (.copy copy0)) := by decide +kernel

theorem test_wit_LinksRetrainThenFail :
    (let s := { up with fences := { up.fences with linkDown := [41] } }
     s.linkBroken (83 / 2) = true ∧ up.linkBroken (83 / 2) = false ∧ look 0 up.fences.crcRun 83 < 7) ∧
    (let s := { up with fences := { up.fences with crcRun := [(83, 7)] } }
     s.linkBroken (83 / 2) = false ∧ 7 ≤ look 0 s.fences.crcRun 83 ∧ (after (.linkCrcFail 83) s).fences.retrain = [41]) ∧
    41 ∉ up.fences.retrain ∧
    (let s := { up with fences := { up.fences with retrain := [41], retrainBad := [(41, 1)] } }
     41 ∈ s.fences.retrain ∧ look 0 s.fences.retrainBad 41 < 2) ∧
    (let s := { up with fences := { up.fences with retrain := [41], retrainBad := [(41, 2)] } }
     41 ∈ s.fences.retrain ∧ 2 ≤ look 0 s.fences.retrainBad 41 ∧ (after (.linkRetrainDone 41 false) s).fences.linkDown = [41]) := by decide +kernel

/-! ## Witnesses: slots, the verdict and the pour -/

/-- A slot under way: core 0 of the pattern issues, in an attempt. -/
def steady : State := running .steady

/-- A committed heat's pour. -/
def pouring (step : Nat) (d : Disposal) : State :=
  { loaded with heat := { loaded.heat with job := some { job0 .pour with pourStep := step, disposal := d } } }

theorem test_wit_SlotOpsRunTheirBodies :
    steady.takesOp (.core 0) = true ∧ (pouring 1 .commit).takesOp (.unit 23) = true ∧
    (let w := steady.opBase (.core 0)
     (w.product 0 head0 true product0.pair product0).heat.leafMiss = [] ∧ (w.product 0 head0 false product0.pair product0).heat.leafMiss = [] ∧
     (w.product 0 head0 false true product0).heat.leafMiss = [] ∧ (w.setCore { w.core 0 with cfg := some 0 }).heat.leafMiss = [] ∧
     (w.drain 0 head0 0 0 0 0).heat.leafMiss = [] ∧ (w.convertOp 0 head0 0 0 0).heat.leafMiss = [] ∧
     (w.moveTiles 0 head0 stash0 1 2).heat.leafMiss = [] ∧ ((w.linkSend 0 head0 0 0 0 0).runReduces).heat.leafMiss = [] ∧
     (w.linkReduce 0 head0 0).heat.leafMiss = [] ∧ (w.nodeAdd 0 head0 0).heat.leafMiss = []) ∧
    (((pouring 1 .commit).opBase (.unit 23)).updateBody 23 head0 update0).heat.leafMiss = [] ∧
    (let s := steady.setSeq { seq0 (.core 0) with span := 1, effect := false }
     s.issues (.core 0) = true ∧ (s.spanStep (.core 0)).1 = false) ∧
    up.issues (.core 0) = false ∧ steady.issues (.unit 23) = false := by decide +kernel

theorem test_wit_GroupSumsAreExact :
    let l := List.replicate 32 ((⟨.fin true 7 (-3), false⟩, ⟨.fin false 15 4, false⟩) : Opd × Opd)
    ∀ p ∈ l, p.1.v.isFin = true ∧ p.2.v.isFin = true ∧ p.1.esc = false ∧ p.2.esc = false := by decide +kernel

/-- The node function of R87 over three values, by its own recursion. -/
def node3 (l j : Nat) : Nat :=
  match l with
  | 0 => [5, 6, 7].getD j 0
  | l + 1 => if (2 * j + 1) * 2 ^ l < 3 then node3 l (2 * j) + node3 l (2 * j + 1) else node3 l (2 * j)

theorem test_wit_TreeAddsItsNodesInPairs :
    ([5, 6, 7] : List Nat) ≠ [] ∧ (∀ j, node3 0 j = [5, 6, 7].getD j 0) ∧
    (∀ l j, node3 (l + 1) j =
      if (2 * j + 1) * 2 ^ l < ([5, 6, 7] : List Nat).length then node3 l (2 * j) + node3 l (2 * j + 1) else node3 l (2 * j)) ∧
    ([5, 6, 7] : List Nat).length ≤ 2 ^ 2 ∧ (2 = 0 ∨ 2 ^ (2 - 1) < ([5, 6, 7] : List Nat).length) ∧ treeRoot (· + ·) 0 [5, 6, 7] = 18 := by
  refine ⟨by decide, fun _ => rfl, fun _ _ => rfl, by decide, by decide, by decide +kernel⟩

theorem test_wit_ControlOpsSteerTheirPrograms :
    (let w := steady.opBase (.core 0)
     steady.takesOp (.core 0) = true ∧ w.indexed (.core 0) 0 0 ≤ w.token 0 1023 ∧ w.token 0 1023 < w.indexed (.core 0) 0 1 ∧
     (w.seq (.core 0)).prev = .done ∧ 15 ≠ 0 / 64 ∧ w.answers (dieUnit 0) (w.siteOf 0).ev (dieUnit 15) = true) ∧
    (let s := { steady with fences := { steady.fences with fenced := [dieUnit 15] } }
     s.takesOp (.core 0) = true ∧ (s.opBase (.core 0)).answers (dieUnit 0) ((s.opBase (.core 0)).siteOf 0).ev (dieUnit 15) = false) ∧
    ([OpEnd.waiting, .abandoned].all fun e =>
      let s := steady.setSeq { seq0 (.core 0) with prev := e }
      s.takesOp (.core 0) && decide (((s.opBase (.core 0)).seq (.core 0)).prev = e)) = true ∧
    (up.issues (.core 0) = false ∧
      (let s := steady.setSeq { seq0 (.core 0) with span := 1, effect := false }
       s.issues (.core 0) = true ∧ (s.spanStep (.core 0)).1 = false)) ∧
    steady.coreIssues 0 = true ∧ up.coreIssues 0 = false ∧
    (let s (have_ : Nat) (rest : List TokenWait) : State := { steady with heat := { steady.heat with
       seqs := [{ seq0 (.core 0) with waits := ⟨3, 2, 0⟩ :: rest }], tokens := if have_ = 0 then [] else [((0, 3), have_)] } }
     ((s 1 []).seq (.core 0)).waits = [⟨3, 2, 0⟩] ∧ (s 1 []).token 0 3 < 2 ∧ ((s 2 [⟨4, 1, 0⟩]).seq (.core 0)).waits = [⟨3, 2, 0⟩, ⟨4, 1, 0⟩] ∧
      2 ≤ (s 2 []).token 0 3 ∧ (steady.seq (.core 0)).waits = [] ∧
      (((s 1 []).waitEnds 0).seq (.core 0)).spoiled = true) ∧
    steady.heat.job = some (job0 .steady) ∧ (job0 .steady).phase.runs = true ∧ up.heat.job = none ∧ (job0 .pour).phase.runs = false ∧
    steady.issues (.core 0) = true ∧
    (let l : LoopSt := ⟨true, 3, 1, 1, 0, false⟩
     let w := (steady.setSeq { seq0 (.core 0) with loops := [l] })
     ((w.spanStep (.core 0)).2.seq (.core 0)).loops.getLast? = some l ∧ l.iter + 1 < l.count ∧ w.issues (.core 0) = true ∧
      ((steady.spanStep (.core 0)).2.seq (.core 0)).loops = [] ∧ (2 : Nat) ≤ 1 + 1) ∧
    steady.running = true ∧ up.running = false ∧
    (steady.raise evXlate (steady.progUnit (.core 0)) 0 (xlateData 0x5000 true 5)).running = true := by decide +kernel

theorem test_wit_HeatsRunTickByTick :
    (let s := { up with power := { up.power with tripHeld := true } }
     s.alive = false ∧ up.alive = true ∧ up.heat.job = none) ∧
    (let j := { job0 .steady with cancel := true }
     ({ loaded with heat := { loaded.heat with job := some j } } : State).heat.job = some j ∧ j.cancel = true) ∧
    ((running .verdict).heat.job = some (job0 .verdict) ∧ (job0 .verdict).cancel = false ∧ (running .verdict).heat.fixed = none) ∧
    ((job0 .admitting).skipOps = false ∧ 1 < ({ job0 .steady with left := 2 } : Job).left ∧ (job0 .admitting).left ≤ 1 ∧ 0 < template0.ramp ∧
      (let t := { template0 with ramp := 0 }
       t.ramp = 0 ∧ 0 < t.steady) ∧
      (let t : Template := { cls := [0], ramp := 0, steady := 0, flush := 0, reduce := 0 }
       t.ramp = 0 ∧ t.steady = 0 ∧ t.flush = 0 ∧ t.reduce = 0)) ∧
    ((running .verdict).fixDue = true ∧ up.fixDue = false) ∧
    (2 ≠ 0 ∧ ({ job0 .verdict with noReplay := true } : Job).noReplay = true ∧ (job0 .verdict).noReplay = false ∧ otherCauses 1 = 0 ∧ 1 ≠ 0 ∧
      (job0 .verdict).numVetoes < (job0 .verdict).args.numReplays ∧
      ({ job0 .verdict with numVetoes := 1 } : Job).args.numReplays ≤ 1 ∧ (job0 .verdict).args.afterHalt = false ∧
      ({ run0 with afterHalt := true } : RunArgs).afterHalt = true) ∧
    ([0, 1, 2, 3, 4, 6].all fun n => decide ((pouring n .commit).heat.job = some { job0 .pour with pourStep := n }) &&
      decide ((pouring n .commit).heat.pattern = some pattern0)) = true := by decide +kernel

theorem test_wit_ReplayKeepsItsHeatAndSkipMovesOn :
    ([Disposal.commit, .replay, .skip].all fun d => decide ((pouring 5 d).heat.job = some { job0 .pour with pourStep := 5, disposal := d }) &&
      decide ((pouring 5 d).heat.pattern = some pattern0)) = true ∧
    (after .pourStepDone (pouring 5 .replay)).heat.heatNum = 0 ∧ (after .pourStepDone (pouring 5 .skip)).heat.heatNum = 1 ∧
    (after .pourStepDone (pouring 5 .skip)).heat.updates = 0 ∧ (after .pourStepDone (pouring 5 .commit)).heat.updates = 1 := by decide +kernel

/-- A follower that waits at a done boundary, past its limit. -/
def follower (waited : Nat) : State :=
  { running .waitSync with
    regs := { up.regs with pourSync := { up.regs.pourSync with active := [2 + 1024 * 16, 65536 + 256 * 2 ^ 20, 0] } }
    heat := { (running .waitSync).heat with sync := { sync0 with waited := waited } } }

theorem test_wit_PourSyncSeesItsEdges :
    up.pins.syncIn = false ∧ ({ pins0 with syncIn := true } : Pins).syncIn = true ∧ ({ sync0 with pulseDue := true } : Sync).pulseDue = true ∧
    up.heat.sync.pulseDue = false ∧ (follower (follower 0).pourWaitMax).limitDue = true ∧ (follower ((follower 0).pourWaitMax - 1)).limitDue = false := by
  decide +kernel

/-! ## Witnesses: long operations and the fleet -/

theorem test_wit_ChunksMoveOperationsOn :
    (let c := { copy0 with src := zeros 128, dst := zeros 128, ladle := 3 }
     let o := op0 .running (.copy c)
     (withOp o).findTag 2 9 = some o ∧ o.state ≠ .suspended ∧ o.waitFor = [] ∧ o.endWith ≠ some stFenced ∧ o.body = .copy c ∧ c.src ≠ [] ∧ c.dst ≠ [] ∧
      c.ladle < 40 ∧ (withOp o).ladleWaits o = false ∧ o.opc = 0x10) ∧
    (let f := { fillOp0 with dst := zeros 128 }
     (withOp (op0 .running (.fill f))).findTag 2 9 = some (op0 .running (.fill f)) ∧ f.dst ≠ []) ∧
    (op0 .suspended (.skim skim0)).state = .suspended ∧ (op0 .suspended (.skim skim0)).body = .skim skim0 ∧
    ((op0 .running (.skim skim0)).state ≠ .suspended ∧ skim0.ending = none ∧ (op0 .running (.skim skim0)).endWith ≠ some stFenced ∧
      (after (.skimChunkDone 2 9) (withOp (op0 .running (.skim skim0)))).regs.skimChunks = 1) ∧
    (({ op0 .running (.skim skim0) with endWith := some stCancelled } : Op).endWith = some stCancelled ∧
      ({ op0 .running (.skim skim0) with cancel := true } : Op).cancel = true ∧ (op0 .running (.skim skim0)).endWith = none ∧
      (op0 .running (.skim skim0)).cancel = false) ∧
    (let o (save host : Bool) : Op := op0 .running (.context (context0 save host))
     (withOp (o true false)).findTag 2 9 = some (o true false) ∧ (context0 true false).done = true ∧ (o true false).waitFor = [] ∧
     (context0 true false).save = true ∧ (withOp (o false true)).findTag 2 9 = some (o false true) ∧ (context0 false true).save = false ∧
     (withOp (o false true)).running = false ∧ (withOp (o false true)).planLines = [] ∧ (withOp (o false true)).heat.pattern = some pattern0 ∧
     (context0 false true).host = true) := by decide +kernel

/-- A member of a fleet of two, rank 0, in an attempt; its pattern has one trained tensor of one element. -/
def member0 : Member :=
  { jobId := 1, size := 2, wire := 0x04, deadline := 10, rank := 0, present := [0, 1], rxAddr := [(0, 0), (1, 0x4000000)], rxBase := lpBase,
    rxLen := 2 ^ 30, resBase := lpBase + 2 ^ 30, resLen := 2 ^ 20, half := 0, fseq := 1 }
def gradRegion : Region := { kind := 4, place := 0, tensor := 5, alt := 0, base := 0x100000, size := 4096, spill := 0, unit := 0 }
def oneElement : List Byte :=
  natLe 128 (0x34 * 2 ^ 64 + 2 ^ 80 + 2 ^ 128 + 2 ^ 160 + 2 ^ 192 + 2 ^ 224 + 2 ^ 256)
def fleeting (phase : Phase) (x : Exchange) : State :=
  { loaded with
    fleet := { fleet0 with member := some member0, exch := x }
    heat := { loaded.heat with
      pattern := some { pattern0 with regions := [gradRegion] }, shapes := [(5, oneElement)], job := some (job0 phase), written := [(8197, 0)] } }

theorem test_wit_FleetExchangesAndAgrees :
    (fleeting .flush exch0).fleet.member = some member0 ∧ (fleeting .flush exch0).fleet.exch.on = false ∧
    (let s := fleeting .flush { exch0 with on := true }
     s.trainedDescs.find? (fun e => e.1 = 5) = some (5, descOf oneElement) ∧ s.fleet.exch.on = true ∧ s.wordOpen = true ∧
     5 ∉ s.fleet.exch.uplinked ∧ s.rootsWritten 5 (descOf oneElement) = true ∧ 1 ∈ member0.present ∧ 1 ≠ member0.rank ∧ s.fleet.exch.ended = false) ∧
    (let s := fleeting .flush { exch0 with on := true, leaves := [(0, 0, some [0]), (0, 1, none)] }
     tileAtPos s.trainedDescs 0 = some (5, descOf oneElement, 0) ∧ member0.owner (tileTotal s.trainedDescs) 0 = member0.rank ∧
     0 ∉ s.fleet.exch.reduced ∧ s.fleet.exch.leavesIn member0 0 = true) ∧
    (let s := fleeting .verdict { exch0 with on := true }
     s.inVerdict = true ∧ s.fleet.exch.frozen = none ∧ s.exchangeDone member0 = false ∧ s.fleet.exch.slots < member0.deadline) ∧
    (let s := fleeting .verdict { exch0 with on := true, uplinked := [5], reduced := [0], slots := 10 }
     s.exchangeDone member0 = true ∧ member0.deadline ≤ s.fleet.exch.slots) ∧
    (let s := fleeting .verdict { exch0 with on := true, frozen := some 1, statuses := [(1, 0, 0)] }
     s.inVerdict = true ∧ s.fleet.exch.frozen = some 1 ∧ s.fleet.exch.ended = false ∧
     ∀ r ∈ member0.present, r = member0.rank ∨ ∃ e ∈ s.fleet.exch.statuses, e.1 = r) := by decide +kernel

theorem test_wit_FleetExchangesAndAgrees_message :
    let s := fleeting .verdict { exch0 with on := true }
    let h (src : Nat) : MsgHdr :=
      { kind := 3, src := src, dst := 0, fseq := 1, job := 1, heat := 0, updates := 0, tensor := 0, l := 0, status := 1, first := 0 }
    let b := (h 1).enc
    let w := (s.writeMem (member0.rxBase + 64) b).2.snoop 125 0x6 (MsgHdr.dec b).tensor (addrBlocks (member0.rxBase + 64) b)
    let g := MsgHdr.dec b
    s.linkLive = true ∧ 64 + b.length ≤ member0.rxLen ∧ headerPasses member0 (zeros 64) = false ∧ headerPasses member0 b = true ∧
    w.fleet.exch.on = true ∧ w.fleet.exch.ended = false ∧ w.slotOf member0 g = some 64 ∧ g.kind = 3 ∧ g.src ≠ member0.rank ∧ g.fseq = member0.fseq ∧
    g.heat = w.fleet.exch.heatNum ∧ g.updates = w.fleet.exch.updates ∧ (∀ e ∈ w.fleet.exch.statuses, e.1 ≠ g.src) ∧
    (after (.fleetMessageAccept 64 b) s).fleet.exch.statuses = [(1, 1, 0)] := by decide +kernel

/-! ## Witnesses for the further clauses -/

/-- A copy with both descriptors here, on the ladle it took. -/
def copy1 : CopyOp := { copy0 with src := zeros 128, dst := zeros 128, ladle := 3 }

theorem test_wit_TableChangesWaitForCopies :
    up.tablesHold 0x20 = false ∧ up.tablesHold 0x23 = false ∧
    (let s := (withOp (op0 .running (.copy copy1))).setRing 1 fun q => { q with fetched := [{ cmd := none, opc := 2, rc := rc 1, sqHead := 0 }] }
     s.tablesHold 0x02 = true ∧ s.fullLink = true ∧ (s.ring 1).enable = true ∧ s.canDispatch (rc 1) = true ∧
     (s.ring 1).fetched = [{ cmd := none, opc := 2, rc := rc 1, sqHead := 0 }] ∧ s.tablesHold 0 = false) ∧
    State.reset.fullLink = false := by decide +kernel

theorem test_wit_HostAnswersOfEveryKind :
    up.takeAcc 0 = none ∧
    ((OpBody.copy copy1, Purpose.chunkLeaf 2 1) :: [(.copy copy1, .chunkWrite 2 1), (.load 0x1000 2048 false 2, .image 2 1),
      (.copy copy1, .gatherList 2 1), (.context (context0 false true), .context 2 1)]).all (fun e =>
      let s := withOp (op0 .running e.1)
      let w := (answered s).snoop 125 e.2.kind 0 (addrBlocks 0x1000 (slice (zeros 64) 0 64))
      decide ((asking s false 64 e.2).takeAcc 0 = some (⟨0, 0x1000, 64, false, e.2⟩, answered s)) && s.linkLive &&
        decide (w.findOp 2 1 = some (op0 .running e.1)) && decide ((answered s).findOp 2 1 = some (op0 .running e.1))) = true ∧
    ([Purpose.descriptor 2, .leaf, .leafWrite 0, .heatRecord, .heatEntry 1, .seedBlock, .peerTable (rc 7) join0 0].all fun e =>
      let s := running .steady
      decide ((asking s false 64 e).takeAcc 0 = some (⟨0, 0x1000, 64, false, e⟩, answered s)) &&
        decide ((answered s).heat.job = some (job0 .steady)) && decide ((job0 .steady).phase ≠ .start)) = true := by decide +kernel

theorem test_wit_OneTrialSlot :
    let b := { boot0 with slotB := { boot0.slotB with state := .trial } }
    ((b.soleTrial 0).slot 1).state = .backup ∧ b.soleTrial 1 = b := by decide +kernel

theorem test_wit_DeadlinesEndStages :
    (stageDeadline 1 = some 165000000 ∧ 165000000 < 165000001) ∧ stageDeadline 6 = none ∧ (∀ d, stageDeadline 1 = some d → 0 ≤ d) := by
  refine ⟨by decide, by decide, fun d _ => Nat.zero_le d⟩

theorem test_wit_StagedCopiesBecomeActive :
    (let s := after (.commit .pourSync 3000) { up with regs := { up.regs with pourSync := { up.regs.pourSync with shadow := [2 + 1024 * 16, 65536 + 256 * 2 ^ 20, 5] } } }
     (s.regs.rws .pourSync).pending = true ∧ nth (s.regs.rws .pourSync).staged 2 ≠ nth (s.regs.rws .pourSync).active 2 ∧
      (s.commitApply .pourSync).regs.flashWrites = [(0x3010, 5)]) ∧
    (let s := after (.commit .defaults 3000) up
     (s.regs.rws .defaults).pending = true ∧ (up.regs.rws .pourSync).pending = false) := by decide +kernel

theorem test_wit_RegisterWritesOfEveryKind :
    State.reset.linkLive = false ∧ 0x200000 ≤ 0x200000 ∧ up.linkLive = true ∧ up.inCrucible = false ∧
    (let s := { up with boot := { up.boot with crucible := 1 } }
     s.inCrucible = true ∧ s.linkLive = true) ∧
    ((∀ i < 5, bitOf 0 (8 * i + 6) = false) ∧ (∃ i < 5, bitOf (2 ^ 38) (8 * i + 6) = true)) ∧
    up.regs.splitBusy = false ∧ up.fencedNow (snooperUnit 126) = false ∧ (fencedAt up (ladleUnit 39)).fencedNow (snooperUnit 39) = true ∧
    fld 0x300 9 8 = 3 ∧ fld 0x101 9 8 ≠ 3 ∧ 63 ∉ up.port.msixPending ∧
    ([0x3010, 0x6000, 0x7000].all fun o =>
      let s := { up with regs := { up.regs with flashWrites := [(o, 5)] } }
      decide (s.regs.flashWrites = (o, 5) :: []) && !(after (.installerFieldFlashWrite false) s).audit.flashOk) = true := by decide +kernel

theorem test_wit_CachedReadsWaitForTheFilter :
    (decoding.running = false ∧ decoding.excess 64 4 = 0 ∧ decoding.port.waitReads = [] ∧ 64 ∉ decoding.port.bisnp ∧ State.reset.linkLive = false) ∧
    (let s := { running .steady with port := decoding.port }
     s.hdmHit 0 64 4 = true ∧ s.hostRejected 64 4 false = false ∧ (s.running && (s.inPlan 64 || s.inPlan 67)) = false) ∧
    (let s := { up with port := { up.port with waitReads := [(0, 64, 4)] } }
     s.port.waitReads = (0, 64, 4) :: []) := by decide +kernel

/-- A state with lines that the host holds. -/
def holding (s : State) (h : List Nat) : State := { s with port := { s.port with hostLines := h } }

theorem holding_serves (s : State) (h : List Nat) :
    (holding s h).hostRejected = s.hostRejected ∧ (holding s h).hdmHit = s.hdmHit ∧ (holding s h).running = s.running ∧
      (holding s h).inPlan = s.inPlan := ⟨rfl, rfl, rfl, rfl⟩

theorem holding_excess (s : State) (h : List Nat) (full : filterLines ≤ h.length) (other : 64 ∉ h) : 0 < (holding s h).excess 64 4 := by
  have l : linesOf 64 4 = [64] := by decide
  simp only [State.excess, l, holding, List.filter_cons, other, not_false_eq_true, decide_true, if_true, List.filter_nil, List.length_cons,
    List.length_nil]
  omega

theorem test_wit_CachedReadsWaitForTheFilter_full :
    ∃ s : State, s.hdmHit 0 64 4 = true ∧ s.hostRejected 64 4 false = false ∧ (s.running && (s.inPlan 64 || s.inPlan 67)) = false ∧
      0 < s.excess 64 4 := by
  have all : decoding.hdmHit 0 64 4 = true ∧ decoding.hostRejected 64 4 false = false ∧
      (decoding.running && (decoding.inPlan 64 || decoding.inPlan 67)) = false := by decide +kernel
  obtain ⟨h, full, other⟩ : ∃ h : List Nat, filterLines ≤ h.length ∧ 64 ∉ h :=
    ⟨List.replicate filterLines 0, Nat.le_of_eq List.length_replicate.symm, fun m => absurd (List.eq_of_mem_replicate m) (by decide)⟩
  refine ⟨holding decoding h, ?_, ?_, ?_, holding_excess decoding h full other⟩ <;>
    simp only [holding_serves, all]

theorem test_wit_ReactionsByLevel :
    rec1.escalated = false ∧ ({ rec1 with escalated := true } : EventRec).escalated = true ∧
    s2Target evEccCe (coreUnit 3) 0 = some (.inl (coreUnit 3)) ∧ s2Target evXlate 0 0 = none := by decide +kernel

theorem test_wit_CrossingsTimeOut :
    up.fencedNow (coreUnit 340) = false ∧ (fencedAt up (coreUnit 340)).fencedNow (coreUnit 340) = true ∧ (Requester.copy 2 9) ≠ .firmware ∧
    steady.running = true ∧ up.running = false ∧ up.findTag 2 9 = none ∧
    (let s := fencedAt (withOp (op0 .running (.copy copy1))) (coreUnit 340)
     s.findTag 2 9 = some (op0 .running (.copy copy1)) ∧ s.fencedNow (coreUnit 340) = true ∧
      ((after (.cdcHandshakeTimeout 0 (coreUnit 340) (.copy 2 9)) s).ops.map (·.endWith)) = [some stFenced]) := by decide +kernel

theorem test_wit_PhasesAndDisposals :
    (up.alive = true ∧ up.heat.job = none ∧ up.calm = true) ∧
    ((job0 .suspended).phase = .suspended ∧ (job0 .suspended).cancel = false) ∧
    (let s := { running .verdict with heat := { (running .verdict).heat with fixed := some 0 } }
     s.heat.job = some (job0 .verdict) ∧ s.heat.fixed = some 0 ∧ s.fleet.exch.on = false ∧ (s.jobTick.phase = some .pour)) ∧
    (1 < ({ job0 .pour with left := 2 } : Job).left ∧ (job0 .pour).left ≤ 1 ∧ (pouring 0 .commit).heat.job = some { job0 .pour with pourStep := 0 } ∧
      (pouring 7 .commit).heat.job = some { job0 .pour with pourStep := 7 } ∧ (job0 .steady).phase ≠ .pour) ∧
    (let t (a b c d : Nat) : Template := { cls := [0], ramp := a, steady := b, flush := c, reduce := d }
     (t 0 0 2 1).steady = 0 ∧ 0 < (t 0 0 2 1).flush ∧ (t 0 0 0 1).flush = 0 ∧ 0 < (t 0 0 0 1).reduce ∧ 0 < (t 1 1 1 1).steady ∧
      ((job0 .admitting).nextSlot (t 0 0 0 1)).phase = .reduce) ∧
    ([Phase.ramp, .steady, .flush, .reduce].all fun p => decide ((job0 p).left ≤ 1) && decide ((job0 p).skipOps = false)) = true ∧
    (256 ≠ 0 ∧ (job0 .verdict).noReplay = false ∧ otherCauses 256 ≠ 0 ∧ bitOf 256 12 = false ∧
      (job0 .verdict).nonNumRun + 1 < (job0 .verdict).args.replayLimit) := by decide +kernel

theorem test_wit_ChunksWaitAndEnd :
    up.findTag 2 9 = none ∧
    (let o := op0 .running (.copy copy1)
     (withOp o).findTag 2 9 = some o ∧ (withOp o).writesDone o = true ∧ (withOp o).tablesChange = false ∧ (withOp o).ladleWaits o = false ∧
      (asking (withOp o) true 64 (.chunkWrite 2 1)).writesDone o = false ∧
      (asking (withOp o) false 160 (.bindList (rc 1) 1 0)).tablesChange = true ∧
      ({ withOp o with ops := [{ o with id := 0, tag := 8 }, o] } : State).ladleWaits o = true ∧
      ({ withOp o with ops := [{ o with id := 0, tag := 8 }, o] } : State).findTag 2 9 = some o) ∧
    (({ op0 .running (.copy copy1) with endWith := some stFenced } : Op).endWith = some stFenced ∧
      ({ op0 .running (.copy copy1) with waitFor := [64] } : Op).waitFor ≠ [] ∧ (op0 .suspended (.copy copy1)).state = .suspended) ∧
    (let c := { copy1 with opc := 0x12, inHost := true, entries := 1, ladle := 40 }
     (op0 .running (.copy c)).opc ≠ 0x10 ∧ c.inHost = true ∧ c.haveLst = false ∧ 40 ≤ c.ladle ∧ copy0.src = [] ∧
      ({ c with haveLst := true } : CopyOp).haveLst = true) ∧
    (let f := { fillOp0 with dst := zeros 128 }
     f.dst ≠ [] ∧ 40 ≤ f.ladle ∧ ({ f with ladle := 3 } : FillOp).ladle < 40 ∧ fillOp0.dst = [] ∧
      (withOp (op0 .running (.fill { f with ladle := 3 }))).ladleWaits (op0 .running (.fill { f with ladle := 3 })) = false) ∧
    ((withOp (op0 .running (.skim skim0))).skimFenced skim0 0 4096 = false ∧
      (let s := withOp (op0 .running (.skim skim0))
       ({ s with fences := { s.fences with cdcDead := [(iodUnit, bondedUnit 0)] } } : State).skimFenced skim0 0 4096 = true) ∧
      ({ skim0 with ending := some stOk } : SkimOp).ending ≠ none) := by decide +kernel

theorem test_wit_ImagesMoveAndRestore :
    (let o (save host : Bool) : Op := op0 .running (.context (context0 save host))
     ({ context0 true true with done := false } : CtxOp).done = false ∧ (context0 true false).host = false ∧
     (withOp (o false false)).running = false ∧ (withOp (o false false)).planLines = [] ∧
     ((withOp (o false false)).readMem lpBase 256).2.heat.pattern = some pattern0 ∧
     (let s := { up with ops := [o false true] }
      s.findTag 2 9 = some (o false true) ∧ s.heat.pattern = none ∧ s.running = false ∧ s.planLines = [] ∧
       (s.readMem lpBase 256).2.heat.pattern = none) ∧
     (let s := { running .steady with ops := [o false true] }
      s.findTag 2 9 = some (o false true) ∧ s.running = true) ∧
     (let s := { withOp (o false true) with
        port := { up.port with hostLines := [64] }, mem := { (withOp (o false true)).mem with frames := [(0, 0)] } }
      s.running = false ∧ s.planLines ≠ [] ∧ s.findTag 2 9 = some (o false true))) := by decide +kernel

theorem test_wit_FleetLeavesWhatDoesNotFit :
    up.fleet.member = none ∧
    (let s := fleeting .verdict { exch0 with on := true, uplinked := [5], reduced := [0], ended := true }
     s.trainedDescs.find? (fun e => e.1 = 6) = none ∧ 5 ∈ s.fleet.exch.uplinked ∧ s.fleet.exch.ended = true ∧ 0 ∈ s.fleet.exch.reduced) ∧
    (up.wordOpen = false ∧ 2 ∉ member0.present ∧ tileAtPos (fleeting .flush exch0).trainedDescs 1 = none ∧
      member0.owner (tileTotal (fleeting .flush exch0).trainedDescs) 0 = 0 ∧ (fleeting .flush exch0).inVerdict = false ∧
      (fleeting .flush exch0).fleet.exch.frozen = none ∧ (fleeting .flush exch0).fleet.exch.leavesIn member0 0 = false) ∧
    (let s (n : Nat) := fleeting .verdict { exch0 with on := true, frozen := some 1, slots := n }
     (s 73).fleet.member = some member0 ∧ (s 73).inVerdict = true ∧ (s 73).fleet.exch.ended = false ∧
      (member0.present.filter fun r => decide (r ≠ member0.rank) && !(s 73).fleet.exch.statuses.any fun e => e.1 = r) ≠ [] ∧
      member0.deadline + 64 ≤ 73 + 1 ∧ 72 + 1 < member0.deadline + 64 ∧ (s 73).fleet.exch.frozen ≠ none ∧
      (after .fleetVerdictEnd (s 73)).fleet.exch.ended = true ∧ (after .fleetVerdictEnd (s 72)).fleet.exch.ended = false) := by decide +kernel

theorem test_wit_FleetMessagesOfEveryKind :
    let s (x : Exchange) := fleeting .verdict x
    let on : Exchange := { exch0 with on := true }
    let h (kind src fseq : Nat) : MsgHdr :=
      { kind := kind, src := src, dst := 0, fseq := fseq, job := 1, heat := 0, updates := 0, tensor := if kind = 3 then 0 else 5, l := 0,
        status := if kind = 3 then 1 else 0, first := 0 }
    let w (x : Exchange) (g : MsgHdr) (ofs : Nat) : State :=
      ((s x).writeMem (member0.rxBase + ofs) g.enc).2.snoop 125 0x6 (MsgHdr.dec g.enc).tensor (addrBlocks (member0.rxBase + ofs) g.enc)
    (s on).linkLive = true ∧ State.reset.linkLive = false ∧ member0.rxLen < member0.rxLen + (zeros 64).length ∧
    ([(h 3 1 0), h 3 1 2, h 3 1 1, { h 3 1 1 with heat := 1 }, { h 3 1 1 with updates := 1 }].all fun g =>
      headerPasses member0 g.enc && decide ((w on g 64).slotOf member0 (MsgHdr.dec g.enc) = some 64) && (w on g 64).fleet.exch.on &&
        !(w on g 64).fleet.exch.ended && decide (MsgHdr.dec g.enc = g)) = true ∧
    ((w exch0 (h 3 1 1) 64).fleet.exch.on = false ∧ (w { on with ended := true } (h 3 1 1) 64).fleet.exch.ended = true ∧
      (w on (h 3 1 1) 128).slotOf member0 (h 3 1 1) ≠ some 128) ∧
    ((w { on with statuses := [(1, 0, 0)] } (h 3 1 1) 64).fleet.exch.statuses = [(1, 0, 0)]) ∧
    ([(1, 1), (2, 1)].all fun e =>
      let g := h e.1 e.2 1
      match (w on g 0).slotOf member0 g with
      | some ofs =>
        let v := w on g ofs
        headerPasses member0 g.enc && decide (v.slotOf member0 g = some ofs) && decide (ofs + g.enc.length ≤ member0.rxLen) &&
          decide (v.trainedDescs.find? (fun d => d.1 = 5) = some (5, descOf oneElement)) && decide (posOfTile v.trainedDescs 5 0 = some 0)
      | none => false) = true := by decide +kernel

end Sys2Proof.Tests
end

section
/-! SUPPORT. The pour step by step, and pour sync, each with the statement that it settles (02 R34 to R36, R39 to R43). -/

namespace Sys2Proof.Machine

/-! ## The RUN_HEATS operation in place -/

/-- A change of an operation that is there. -/
theorem State.setJob_of_job {s : State} {j : Job} (h : s.heat.job = some j) (f : Job → Job) :
    s.setJob f = { s with heat := { s.heat with job := some (f j) } } := by
  simp [State.setJob, h]

/-! ## The steps of a pour (R34, R35) -/

/-- A step ends only in a pour of a loaded pattern. -/
theorem pourStepOp_in_pour {s : State} {j : Job} {p : Pattern} (hj : s.heat.job = some j) (hp : s.heat.pattern = some p)
    (ph : j.phase = .pour) : pourStepOp s = s.pourStep p j := by
  simp [pourStepOp, hj, hp, ph]

/-- POUR_STEP_DONE in a pour of a loaded pattern does the step under way. -/
theorem exec_pourStepDone_in_pour {s : State} {j : Job} {p : Pattern} (hj : s.heat.job = some j) (hp : s.heat.pattern = some p)
    (ph : j.phase = .pour) : exec .pourStepDone s = .next (s.done (s.pourStep p j)) := by
  rw [exec_pourStepDone, pourStepOp_in_pour hj hp ph]

/-- Before the first step of a pour and after its last, none is under way. -/
theorem State.pourStep_none (s : State) (p : Pattern) {j : Job} (h : j.pourStep = 0 ∨ 7 ≤ j.pourStep) : s.pourStep p j = s := by
  unfold State.pourStep
  split
  case h_7 => rfl
  all_goals omega

/-- Step 5 moves the heat on and opens step 6. -/
theorem State.pourStep_five {s : State} {j : Job} (p : Pattern) (h : j.pourStep = 5) :
    s.pourStep p j = (s.pourAdvance j).setJob fun j => { j with pourStep := 6 } := by
  simp [State.pourStep, h]

/-- A heat under REPLAY keeps its number, its cursor and the update count (R36). -/
theorem State.pourAdvance_replay (s : State) {j : Job} (h : j.disposal = .replay) : s.pourAdvance j = s := by
  simp [State.pourAdvance, h]

/-- A skipped heat moves on without an update (R36). -/
theorem State.pourAdvance_skip (s : State) {j : Job} (h : j.disposal = .skip) :
    s.pourAdvance j = { s with heat := { s.heat with
      heatNum := (s.heat.heatNum + 1) % 2 ^ 64, cursor := (s.heat.cursor + microBatches j.entry) % 2 ^ 64 } } := by
  simp [State.pourAdvance, h]

/-- A committed heat moves on and counts one update (R36). -/
theorem State.pourAdvance_commit (s : State) {j : Job} (h : j.disposal = .commit) :
    s.pourAdvance j = { s with heat := { s.heat with
      heatNum := (s.heat.heatNum + 1) % 2 ^ 64, cursor := (s.heat.cursor + microBatches j.entry) % 2 ^ 64,
      updates := s.heat.updates + 1 } } := by
  simp [State.pourAdvance, h]

/-- The close of a replayed heat's pour leaves its place and its entry in the heat list, and counts an attempt. -/
theorem Job.closePour_replay {j : Job} (h : j.disposal = .replay) :
    j.closePour = { j with attemptOp := j.attemptOp + 1, attempt := j.attempt + 1 } := by
  simp [Job.closePour, h]

/-- The close of any other pour disposes of the heat and takes the next entry. -/
theorem Job.closePour_disposed {j : Job} (h : j.disposal ≠ .replay) :
    j.closePour = { j with
      attemptOp := j.attemptOp + 1, h := j.h + 1, disposed := j.disposed + 1, attempt := 0, numVetoes := 0, nonNumRun := 0,
      entry := j.nextEntry.getD [], nextEntry := none } := by
  simp [Job.closePour, h]

/-- Settles O57, by the three disposals of step 5 and the two closes of a pour. -/
theorem replayKeepsItsHeatAndSkipMovesOn : Obligations.ReplayKeepsItsHeatAndSkipMovesOn := by
  unfold Obligations.ReplayKeepsItsHeatAndSkipMovesOn
  intro s j p hj hp ph h5
  rw [exec_pourStepDone_in_pour hj hp ph, State.pourStep_five p h5]
  refine ⟨fun h => ?_, fun h => ?_, fun h => ?_, fun h => ?_, fun h => ?_⟩
  · rw [State.pourAdvance_replay s h, State.setJob_of_job hj]
  · rw [State.pourAdvance_skip s h, State.setJob_of_job (j := j)]
    exact hj
  · rw [State.pourAdvance_commit s h, State.setJob_of_job (j := j)]
    exact hj
  · rw [Job.closePour_replay h]
    exact ⟨rfl, rfl, rfl, rfl⟩
  · rw [Job.closePour_disposed h]
    exact ⟨rfl, rfl, rfl, rfl⟩

/-! ## Pour sync (R39 to R43) -/

/-- An edge that changes no level is none. -/
theorem syncInEdgeOp_same (s : State) (acBefore : Nat) : syncInEdgeOp s.pins.syncIn acBefore s = s := if_pos rfl

/-- An edge that changes the level: the pin, the level at the tick, and a rising edge on its way (R40). -/
theorem syncInEdgeOp_change {s : State} {level : Bool} (acBefore : Nat) (h : level ≠ s.pins.syncIn) :
    syncInEdgeOp level acBefore s = { s with
      pins := { s.pins with syncIn := level },
      heat := { s.heat with sync := { s.heat.sync with
        levelAt := if 64 ≤ acBefore then level else s.heat.sync.levelAt,
        arriving := if level then s.heat.sync.arriving ++ [if 64 < acBefore then 0 else 1] else s.heat.sync.arriving } } } :=
  if_neg h

/-- A due pulse goes out (R42). -/
theorem masterPulseOp_due {s : State} (h : s.heat.sync.pulseDue = true) :
    masterPulseOp s = (s.setSync fun y => { y with pulseDue := false, pulsing := true }).emit (.syncPulse s.syncAdvance) := by
  simp only [masterPulseOp, h, Bool.not_true, Bool.false_eq_true, if_false]

/-- No pulse goes out that is not due. -/
theorem masterPulseOp_idle {s : State} (h : s.heat.sync.pulseDue = false) : masterPulseOp s = s := by
  simp [masterPulseOp, h]

/-- The limit of a wait is reached once (R43). -/
theorem syncExpiryOp_due {s : State} (h : s.limitDue = true) : syncExpiryOp s = s.limitReached := if_pos h

/-- A wait below its limit goes on. -/
theorem syncExpiryOp_idle {s : State} (h : s.limitDue = false) : syncExpiryOp s = s := by simp [syncExpiryOp, h]

/-- Settles O58: an edge that changes the level or none, a pulse due or not, a limit reached or not. -/
theorem pourSyncSeesItsEdges : Obligations.PourSyncSeesItsEdges := by
  unfold Obligations.PourSyncSeesItsEdges
  intro s
  simp only [exec_pourSyncInEdge, exec_masterSyncPulse, exec_syncWaitExpiry]
  refine ⟨fun ac h => ?_, fun ac h => ?_, fun ac => ?_, fun h => ?_, fun h => ?_, fun h => ?_, fun h => ?_⟩
  · rw [syncInEdgeOp_change ac (by simp [h])]
    rfl
  · rw [syncInEdgeOp_change ac (by simp [h])]
    rfl
  · rw [syncInEdgeOp_same]
  · rw [masterPulseOp_due h]
    rfl
  · rw [masterPulseOp_idle h]
  · rw [syncExpiryOp_due h]
    rfl
  · rw [syncExpiryOp_idle h]

end Sys2Proof.Machine
end

section
/-! SUPPORT. SUSPEND, RESUME and CANCEL on the RUN_HEATS operation (02 R37, R43, 12 R308). -/

namespace Sys2Proof.Machine

/-- Counting a command for its role leaves the heat. -/
@[simp] theorem State.countCommand_heat (s : State) (ring opc : Nat) : (s.countCommand ring opc).heat = s.heat := by
  simp [State.countCommand]

/-- Counting a command for its role leaves the outstanding operations. -/
@[simp] theorem State.countCommand_ops (s : State) (ring opc : Nat) : (s.countCommand ring opc).ops = s.ops := by
  simp [State.countCommand]

/-- What a control command names depends on the outstanding operations and the heat alone. -/
theorem State.targets_congr {s t : State} (ho : t.ops = s.ops) (hh : t.heat = s.heat) (ring tag : Nat) :
    t.targets ring tag = s.targets ring tag := by
  simp [State.targets, ho, hh]

/-- Whether a heat is past its commit point depends on its word alone. -/
theorem State.pastCommit_congr {s t : State} (hf : t.heat.fixed = s.heat.fixed) (j : Job) : t.pastCommit j = s.pastCommit j := by
  simp [State.pastCommit, hf]

/-- A control command on the operation alone, which its status allows: its record, then its effect (R308). -/
theorem State.control_ofJob {s : State} {j : Job} (c : Rc) (opc head : Nat) {k : Control} (hj : s.heat.job = some j)
    (h1 : s.targets j.ring j.tag = 1) (hst : j.controlStatus k = stOk) :
    s.control c opc head j.ring j.tag k = (s.complete c opc head stOk 0 0).controlJob j k := by
  simp [State.control, h1, State.targetsJob, hj, hst]

/-- The ring commands that control an operation: opcode and kind. -/
inductive IsControl (c : Rc) (ring tag : Nat) : Instr → Nat → Control → Prop
  | suspend : IsControl c ring tag (.suspend c ring tag) 0x04 (.suspend c.urgent)
  | resume : IsControl c ring tag (.resume c ring tag) 0x05 .resume
  | cancel : IsControl c ring tag (.cancel c ring tag) 0x06 .cancel

/-- An accepted control command on the operation alone, which its status allows: counted, its record, and its effect. -/
theorem exec_control_ofJob {s : State} {c : Rc} {j : Job} {ring tag : Nat} {i : Instr} {opc : Nat} {k : Control}
    (hi : IsControl c ring tag i opc k) (ha : s.accepts i c opc = true) (hj : s.heat.job = some j) (hr : j.ring = ring)
    (ht : j.tag = tag) (h1 : s.targets ring tag = 1) (hst : j.controlStatus k = stOk) :
    exec i s = .next (s.done (((s.countCommand c.ring opc).complete c opc (s.headOf c) stOk 0 0).controlJob j k)) := by
  subst hr ht
  have hw : (s.countCommand c.ring opc).heat.job = some j := by rw [State.countCommand_heat, hj]
  have h1w : (s.countCommand c.ring opc).targets j.ring j.tag = 1 := by
    rw [State.targets_congr (State.countCommand_ops s c.ring opc) (State.countCommand_heat s c.ring opc), h1]
  have run : (s.countCommand c.ring opc).runCmd i (s.headOf c) =
      ((s.countCommand c.ring opc).complete c opc (s.headOf c) stOk 0 0).controlJob j k := by
    rw [← State.control_ofJob c opc (s.headOf c) hw h1w hst]
    cases hi <;> rfl
  have hc : rcOf i = some c ∧ opcodeOf i = some opc ∧ opc ≠ 0x01 ∧ s.auditObject i = none := by
    cases hi <;> exact ⟨rfl, rfl, by decide, rfl⟩
  obtain ⟨hrc, hopc, hne, haud⟩ := hc
  rw [exec_accepted s i c opc hrc hopc ha, dispatch_counted s i c opc (s.headOf c) ha hne haud, run]

/-! ## The effect of each, on a state that holds the operation -/

section
variable {w : State} {j : Job} (hj : w.heat.job = some j)
include hj

/-- A wait for pour sync is one of the operation. -/
theorem State.forceSync_of_job : w.forceSync = if j.phase = .waitSync then w.setSync fun y => { y with forced := true } else w := by
  by_cases h : j.phase = .waitSync <;> simp [State.forceSync, State.waitsSync, hj, h]

/-- A SUSPEND is noted for the next point, and ends a wait for pour sync (R37, R43). -/
theorem State.controlJob_suspend {urgent : Bool} (hc : j.cancel = false) (he : j.endStatus ≠ some stCancelled) :
    w.controlJob j (.suspend urgent) =
      (let w : State := { w with heat := { w.heat with job := some { j with suspend := true, urgent := j.urgent || urgent } } }
       if j.phase = .waitSync then w.setSync fun y => { y with forced := true } else w) := by
  refine (if_neg (Bool.eq_false_iff.mp hc)).trans ((if_neg he).trans ?_)
  rw [State.setJob_of_job hj]
  exact State.forceSync_of_job (j := { j with suspend := true, urgent := j.urgent || urgent }) rfl

/-- RESUME of a suspended operation starts it again, and the plan's lines are called back (R290, R308). -/
theorem State.controlJob_resume_suspended (hp : j.phase = .suspended) :
    w.controlJob j .resume = State.invalidatePlan { w with heat := { w.heat with job := some { j with phase := .start } } } := by
  simp only [State.controlJob, hp, if_true]
  rw [State.setJob_of_job hj]

/-- RESUME of an operation that is still to be suspended takes the suspension back. -/
theorem State.controlJob_resume_pending (hp : j.phase ≠ .suspended) :
    w.controlJob j .resume = { w with heat := { w.heat with job := some { j with suspend := false, urgent := false } } } := by
  simp only [State.controlJob, hp, if_false]
  rw [State.setJob_of_job hj]

omit hj in
/-- CANCEL of a suspended operation ends it. -/
theorem State.controlJob_cancel_suspended (hp : j.phase = .suspended) : w.controlJob j .cancel = w.endJob stCancelled := by
  simp [State.controlJob, hp]

/-- CANCEL before the commit point is done at the next tick. -/
theorem State.controlJob_cancel_early (hp : j.phase ≠ .suspended) (hc : w.pastCommit j = false) :
    w.controlJob j .cancel =
      { w with heat := { w.heat with job := some { j with suspend := false, urgent := false, cancel := true } } } := by
  simp only [State.controlJob, hp, if_false]
  rw [State.setJob_of_job hj, State.pastCommit_congr (s := w) (hf := ?_), hc]
  · exact State.setJob_of_job (j := { j with suspend := false, urgent := false }) rfl _
  · rfl

/-- CANCEL past the commit point lets the heat end, with the status of an end already due before its own, and ends a wait for pour
sync (R43; log 154). -/
theorem State.controlJob_cancel_late (hp : j.phase ≠ .suspended) (hc : w.pastCommit j = true) :
    w.controlJob j .cancel =
      (let w : State := { w with heat := { w.heat with job := some { j with
         suspend := false, urgent := false, endStatus := some (j.endStatus.getD stCancelled) } } }
       if j.phase = .waitSync then w.setSync fun y => { y with forced := true } else w) := by
  simp only [State.controlJob, hp, if_false]
  rw [State.setJob_of_job hj, State.pastCommit_congr (s := w) (hf := ?_), hc, if_pos rfl,
    State.setJob_of_job (j := { j with suspend := false, urgent := false }) (h := ?_)]
  · exact State.forceSync_of_job (j := { j with
      suspend := false, urgent := false, endStatus := some (j.endStatus.getD stCancelled) }) rfl
  all_goals rfl

end

/-- Settles O19: each command reaches the operation, whose effect is that of its case. -/
theorem controlOfRunHeats : Obligations.ControlOfRunHeats := by
  unfold Obligations.ControlOfRunHeats
  intro s c j ring tag hj hr ht h1
  have hw (opc : Nat) : ((s.countCommand c.ring opc).complete c opc (s.headOf c) stOk 0 0).heat.job = some j := by simp [hj]
  have hpc (opc : Nat) : ((s.countCommand c.ring opc).complete c opc (s.headOf c) stOk 0 0).pastCommit j = s.pastCommit j :=
    State.pastCommit_congr (by simp) j
  refine ⟨fun ha hp hc he => ?_, fun ha hp => ?_, fun ha hp hs => ?_, fun ha hp => ?_, fun ha hp hc => ?_, fun ha hp hc => ?_⟩
  · rw [exec_control_ofJob .suspend ha hj hr ht h1 (if_neg hp), State.controlJob_suspend (hw _) hc he]
  · rw [exec_control_ofJob .resume ha hj hr ht h1 (if_pos (.inl hp)), State.controlJob_resume_suspended (hw _) hp]
  · rw [exec_control_ofJob .resume ha hj hr ht h1 (if_pos (.inr hs)), State.controlJob_resume_pending (hw _) hp]
  · rw [exec_control_ofJob .cancel ha hj hr ht h1 rfl, State.controlJob_cancel_suspended hp]
  · rw [exec_control_ofJob .cancel ha hj hr ht h1 rfl, State.controlJob_cancel_early (hw _) hp ((hpc _).trans hc)]
  · rw [exec_control_ofJob .cancel ha hj hr ht h1 rfl, State.controlJob_cancel_late (hw _) hp ((hpc _).trans hc)]

end Sys2Proof.Machine
end

section
/-! SUPPORT. The control ops of the slot programs: tokens, alternates, suspension points, loops and abandoned ops (02 R28, 09 R226 to
R229). -/

namespace Sys2Proof.Machine

/-! ## What these ops leave of the reads that wait for the host -/

/-- A cause leaves the reads that wait for the host. -/
@[simp] theorem State.cause_leafMiss (s : State) (unit bit : Nat) : (s.cause unit bit).heat.leafMiss = s.heat.leafMiss := by
  unfold State.cause
  (repeat' split) <;> rfl

/-- So does an abandoned op. -/
@[simp] theorem State.opAbandoned_leafMiss (s : State) (unit : Nat) (dests : List Invalid) :
    (s.opAbandoned unit dests).heat.leafMiss = s.heat.leafMiss := by
  simp [State.opAbandoned, State.markInvalid]

/-- A transfer over links leaves the heat. -/
@[simp] theorem State.cross_heat (s : State) (a b kind tensor : Nat) (blocks : List (Nat × List Byte)) :
    (s.cross a b kind tensor blocks).heat = s.heat := by
  unfold State.cross
  (repeat' split) <;> simp [State.arrive]

/-- A suspension point leaves them. -/
theorem State.urgentPoint_leafMiss (s : State) : s.urgentPoint.heat.leafMiss = s.heat.leafMiss := by
  unfold State.urgentPoint
  split <;> rfl

/-- A slot op that is taken, with what its body gives: that state, and the op's end noted. -/
theorem issue_gives {s t : State} {p : Prog} {i : Instr} {f : State → State} (h : s.takesOp p = true) (hf : f (s.opBase p) = t)
    (hm : t.heat.leafMiss = []) : s.issue p i f = t.noteEnd p i (s.opBase p) := by
  subst hf
  exact issue_taken s p i f h hm

/-! ## Tokens (R227) -/

/-- The body of TOKEN_SIGNAL where nothing behind it holds it back: the increment. -/
theorem State.signalToken_sends {s : State} {c : Nat} {atDone : Bool} (h : OpHead) (die t : Nat)
    (hp : atDone = false ∨ (s.seq (.core c)).prev = .done) : s.signalToken c h die t atDone =
      if die = c / 64 then s.addToken die t else
      if !s.answers (dieUnit (c / 64)) (s.siteOf c).ev (dieUnit die) then s.opAbandoned (s.siteOf c).ev [] else
      s.cross (dieUnit (c / 64)) (dieUnit die) 0xB 0 [((Config.tokenIndex die t).toNat, tokenFlit die t)] := by
  rcases hp with hp | hp
  · simp [State.signalToken, hp]
  · simp [State.signalToken, hp]

section
variable {s : State} {c : Nat} (h : OpHead) (ht : s.takesOp (.core c) = true)
include ht

/-- A wait for a count that is reached ends at once. -/
theorem tokenWaitOp_met {token count : Nat}
    (hc : (s.opBase (.core c)).indexed (.core c) h.lpf count ≤ (s.opBase (.core c)).token (c / 64) token) :
    tokenWaitOp c h token count s = (s.opBase (.core c)).noteEnd (.core c) (.tokenWait c h token count) (s.opBase (.core c)) :=
  issue_gives ht (if_pos hc) rfl

/-- Any other opens a window behind those that are open. -/
theorem tokenWaitOp_opens {token count : Nat}
    (hc : (s.opBase (.core c)).token (c / 64) token < (s.opBase (.core c)).indexed (.core c) h.lpf count) :
    tokenWaitOp c h token count s =
      (let w := s.opBase (.core c)
       (w.setSeq { w.seq (.core c) with waits := (w.seq (.core c)).waits ++
         [⟨token, w.indexed (.core c) h.lpf count, (w.seq (.core c)).dests.length⟩] }).noteEnd (.core c) (.tokenWait c h token count) w) :=
  issue_gives ht (if_neg (Nat.not_le.mpr hc)) rfl

/-- TOKEN_SIGNAL with what its body gives. -/
theorem tokenSignalOp_gives {die token : Nat} {atDone : Bool} {t : State}
    (hb : (s.opBase (.core c)).signalToken c h die token atDone = t) (hm : t.heat.leafMiss = []) :
    tokenSignalOp c h die token atDone s = t.noteEnd (.core c) (.tokenSignal c h die token atDone) (s.opBase (.core c)) :=
  issue_gives ht hb hm

/-- A signal counts on its own die at once. -/
theorem tokenSignalOp_own {die token : Nat} {atDone : Bool} (hp : atDone = false ∨ ((s.opBase (.core c)).seq (.core c)).prev = .done)
    (hd : die = c / 64) : tokenSignalOp c h die token atDone s =
      ((s.opBase (.core c)).addToken die token).noteEnd (.core c) (.tokenSignal c h die token atDone) (s.opBase (.core c)) :=
  tokenSignalOp_gives h ht (by rw [State.signalToken_sends h die token hp, if_pos hd]) rfl

/-- It crosses to another die that answers. -/
theorem tokenSignalOp_crosses {die token : Nat} {atDone : Bool}
    (hp : atDone = false ∨ ((s.opBase (.core c)).seq (.core c)).prev = .done) (hd : die ≠ c / 64)
    (ha : (s.opBase (.core c)).answers (dieUnit (c / 64)) ((s.opBase (.core c)).siteOf c).ev (dieUnit die) = true) :
    tokenSignalOp c h die token atDone s = ((s.opBase (.core c)).cross (dieUnit (c / 64)) (dieUnit die) 0xB 0
      [((Config.tokenIndex die token).toNat, tokenFlit die token)]).noteEnd (.core c) (.tokenSignal c h die token atDone)
        (s.opBase (.core c)) :=
  tokenSignalOp_gives h ht (by rw [State.signalToken_sends h die token hp, if_neg hd, ha]; rfl) (by rw [State.cross_heat]; rfl)

/-- It is lost with ABANDONED where none answers. -/
theorem tokenSignalOp_lost {die token : Nat} {atDone : Bool}
    (hp : atDone = false ∨ ((s.opBase (.core c)).seq (.core c)).prev = .done) (hd : die ≠ c / 64)
    (ha : (s.opBase (.core c)).answers (dieUnit (c / 64)) ((s.opBase (.core c)).siteOf c).ev (dieUnit die) = false) :
    tokenSignalOp c h die token atDone s = ((s.opBase (.core c)).opAbandoned ((s.opBase (.core c)).siteOf c).ev []).noteEnd (.core c)
      (.tokenSignal c h die token atDone) (s.opBase (.core c)) :=
  tokenSignalOp_gives h ht (by rw [State.signalToken_sends h die token hp, if_neg hd, ha]; rfl)
    (by rw [State.opAbandoned_leafMiss]; rfl)

/-- At completion it waits for the op before it. -/
theorem tokenSignalOp_waits {die token : Nat} (hp : ((s.opBase (.core c)).seq (.core c)).prev = .waiting) :
    tokenSignalOp c h die token true s =
      (let w := s.opBase (.core c)
       State.noteEnd { w with heat := { w.heat with waitOps := addTo w.heat.waitOps (.tokenSignal c h die token true) } } (.core c)
         (.tokenSignal c h die token true) w) :=
  tokenSignalOp_gives h ht (by simp [State.signalToken, hp]) rfl

/-- It is not sent where that op was abandoned. -/
theorem tokenSignalOp_unsent {die token : Nat} (hp : ((s.opBase (.core c)).seq (.core c)).prev = .abandoned) :
    tokenSignalOp c h die token true s =
      (s.opBase (.core c)).noteEnd (.core c) (.tokenSignal c h die token true) (s.opBase (.core c)) :=
  tokenSignalOp_gives h ht (by simp [State.signalToken, hp]) rfl

end

/-- An increment counts while the heat's counters live. -/
theorem tokenArrivalOp_counts {s : State} {j : Job} (die token : Nat) (hj : s.heat.job = some j) (hr : j.phase.runs = true) :
    tokenArrivalOp die token s = s.addToken die token := by
  unfold tokenArrivalOp
  rw [hj]
  exact if_pos hr

/-- Outside the phases in which programs run it counts nowhere. -/
theorem tokenArrivalOp_dropped {s : State} (die token : Nat) (h : ∀ j, s.heat.job = some j → j.phase.runs = false) :
    tokenArrivalOp die token s = s := by
  unfold tokenArrivalOp
  split
  next j hj => exact if_neg (Bool.eq_false_iff.mp (h j hj))
  next => rfl

/-! ## The windows of TOKEN_WAIT (R227) -/

/-- Without a window there is nothing to end. -/
theorem State.waitEnds_nil {s : State} {c : Nat} (h : (s.seq (.core c)).waits = []) : s.waitEnds c = s := by
  simp [State.waitEnds, h]

/-- The earliest window ends: its count is reached, or what was written behind it is abandoned. -/
theorem State.waitEnds_cons {s : State} {c : Nat} {x : TokenWait} {rest : List TokenWait}
    (h : (s.seq (.core c)).waits = x :: rest) : s.waitEnds c =
      (let q := s.seq (.core c)
       let q' : Seq := { q with waits := rest, dests := if rest = [] then [] else q.dests }
       if x.count ≤ s.token (c / 64) x.token then s.setSeq q' else
       (s.setSeq { q' with spoiled := true }).opAbandoned (s.siteOf c).ev (q.dests.drop x.from_)) := by
  unfold State.waitEnds
  simp only [h, List.isEmpty_iff]

/-! ## Loops (R226, R228) -/

/-- LOOP opens a body in its first iteration. -/
theorem loopOp_issued {s : State} {p : Prog} (hi : s.issues p = true) (h : OpHead) (outer : Bool) (count : Nat) (inc : Int) :
    loopOp p h outer count inc s =
      (let w := (s.spanStep p).2
       let q := w.seq p
       w.setSeq { q with loops := q.loops ++ [⟨outer, count, inc, 0, q.span, q.effect⟩] }) := by
  simp [loopOp, hi]

/-- ENDLOOP without an open body only counts. -/
theorem endloopOp_outside {s : State} {p : Prog} (hi : s.issues p = true) (hl : ((s.spanStep p).2.seq p).loops = []) :
    endloopOp p s = (s.spanStep p).2 := by
  simp [endloopOp, hi, hl]

/-- ENDLOOP repeats the innermost body, or leaves it. -/
theorem endloopOp_inside {s : State} {p : Prog} {l : LoopSt} (hi : s.issues p = true)
    (hl : ((s.spanStep p).2.seq p).loops.getLast? = some l) : endloopOp p s =
      (let w := (s.spanStep p).2
       let q := w.seq p
       if l.iter + 1 < l.count then
         w.setSeq { q with loops := q.loops.dropLast ++ [{ l with iter := l.iter + 1 }], span := l.span, effect := l.effect }
       else w.setSeq { q with loops := q.loops.dropLast }) := by
  simp only [endloopOp, hi, hl, Bool.not_true, Bool.false_eq_true, if_false]

/-- A program that issues nothing opens no body. -/
theorem loopOp_idle {s : State} {p : Prog} (hi : s.issues p = false) (h : OpHead) (outer : Bool) (count : Nat) (inc : Int) :
    loopOp p h outer count inc s = s := by
  simp [loopOp, hi]

/-- Nor does it end one. -/
theorem endloopOp_idle {s : State} {p : Prog} (hi : s.issues p = false) : endloopOp p s = s := by
  simp [endloopOp, hi]

/-! ## Ops that do not complete (R28, R298) -/

/-- An op is abandoned only in a RUN_HEATS operation. -/
theorem opAbandonOp_idle {s : State} (hr : s.running = false) (p : Prog) (d : OpDest) (e : Option (Nat × Bool)) :
    opAbandonOp p d e s = s := by
  simp [opAbandonOp, hr]

/-- An abandoned op marks its destinations and leaves no valid bank. -/
theorem opAbandonOp_running {s : State} (hr : s.running = true) (p : Prog) (d : OpDest) :
    opAbandonOp p d none s = (destMarks p d).foldl State.spoilBank (s.opAbandoned (s.progUnit p) (destMarks p d)) := by
  simp [opAbandonOp, State.abandon, hr]

/-- Where the host answered its access with an error, EV_XLATE_FAULT of kind 5 comes first; its reaction may end the operation. -/
theorem opAbandonOp_hostError {s : State} (hr : s.running = true) (p : Prog) (d : OpDest) (va : Nat) (write : Bool) :
    opAbandonOp p d (some (va, write)) s =
      (let w := s.raise evXlate (s.progUnit p) 0 (xlateData va write 5)
       if w.running then (destMarks p d).foldl State.spoilBank (w.opAbandoned (w.progUnit p) (destMarks p d)) else w) := by
  simp only [opAbandonOp, hr, Bool.not_true, Bool.false_eq_true, if_false, State.abandon]
  cases (s.raise evXlate (s.progUnit p) 0 (xlateData va write 5)).running <;> rfl

/-! ## The statement -/

/-- The ops that a span of RECOMPUTE_ALT can take away here are issued by their core's program. -/
theorem exec_issues_of_mem {c : Nat} {h : OpHead} {i : Instr}
    (hi : i ∈ [Instr.tokenWait c h 0 0, .tokenSignal c h 0 0 false, .recomputeAlt c h 0 0 0, .suspendPoint c h 0]) (s : State) :
    ∃ f, exec i s = .next (s.done (s.issue (.core c) i f)) := by
  simp only [List.mem_cons, List.not_mem_nil, or_false] at hi
  rcases hi with rfl | rfl | rfl | rfl
  · exact ⟨_, exec_tokenWait s c h 0 0⟩
  · exact ⟨_, exec_tokenSignal s c h 0 0 false⟩
  · exact ⟨_, exec_recomputeAlt s c h 0 0 0⟩
  · exact ⟨_, exec_suspendPoint s c h 0⟩

/-- Settles O55, op by op. -/
theorem controlOpsSteerTheirPrograms : Obligations.ControlOpsSteerTheirPrograms := by
  unfold Obligations.ControlOpsSteerTheirPrograms
  intro s c h
  refine ⟨fun ht => ⟨fun token count => ⟨fun hc => ?_, fun hc => ?_⟩,
      fun die token atDone => ⟨fun hp => ⟨fun hd => ?_, fun hd ha => ?_, fun hd ha => ?_⟩, fun hd hp => ?_, fun hd hp => ?_⟩,
      fun flag mask count => ?_, fun point => ?_⟩,
    fun i hi => ⟨fun hs => ?_, fun hs hn => ?_⟩, fun hc => ⟨?_, ?_⟩, fun hc => ⟨?_, ?_⟩,
    ⟨State.waitEnds_nil, fun x rest hq => ⟨fun hc => ?_, fun hc => ?_⟩⟩, fun j die token hj hr => ?_, fun die token hj => ?_,
    fun p hs => ⟨fun outer count inc => ?_, ?_⟩,
    fun p hs => ⟨fun outer count inc => ?_, fun hl => ?_, fun l hl => ⟨fun hc => ?_, fun hc => ?_⟩⟩,
    fun p k a n he hr => ?_, fun p k a n hr => ⟨?_, fun va write => ?_⟩, fun unit dests => rfl⟩
  · rw [exec_tokenWait, tokenWaitOp_met h ht hc]
  · rw [exec_tokenWait, tokenWaitOp_opens h ht hc]
  · rw [exec_tokenSignal, tokenSignalOp_own h ht hp hd]
  · rw [exec_tokenSignal, tokenSignalOp_crosses h ht hp hd ha]
  · rw [exec_tokenSignal, tokenSignalOp_lost h ht hp hd ha]
  · subst hd
    rw [exec_tokenSignal, tokenSignalOp_waits h ht hp]
  · subst hd
    rw [exec_tokenSignal, tokenSignalOp_unsent h ht hp]
  · show exec (.recomputeAlt c h flag mask count) s = _
    rw [exec_recomputeAlt, recomputeAltOp, issue_gives ht rfl rfl]
  · show exec (.suspendPoint c h point) s = _
    rw [exec_suspendPoint, suspendPointOp, issue_gives ht rfl (State.urgentPoint_leafMiss _)]
  · obtain ⟨f, hf⟩ := exec_issues_of_mem hi s
    rw [hf, issue_idle s _ i f hs]
  · obtain ⟨f, hf⟩ := exec_issues_of_mem hi s
    rw [hf, issue_skipped s _ i f hs hn]
  · rw [exec_tokenWaitTimeout, tokenWaitTimeoutOp, if_pos hc]
  · rw [exec_tileRecompute, tileRecomputeOp, if_pos hc]
  · rw [exec_tokenWaitTimeout, tokenWaitTimeoutOp, hc]
    rfl
  · rw [exec_tileRecompute, tileRecomputeOp, hc]
    rfl
  · rw [State.waitEnds_cons hq]
    exact if_neg (Nat.not_le.mpr hc)
  · rw [State.waitEnds_cons hq]
    exact if_pos hc
  · rw [exec_tokenIncrementArrival, tokenArrivalOp_counts die token hj hr]
  · rw [exec_tokenIncrementArrival, tokenArrivalOp_dropped die token hj]
  · rw [exec_loop, loopOp_idle hs]
  · rw [exec_endloop, endloopOp_idle hs]
  · rw [exec_loop, loopOp_issued hs]
  · rw [exec_endloop, endloopOp_outside hs hl]
  · rw [exec_endloop, endloopOp_inside hs hl]
    simp only [if_pos hc]
  · rw [exec_endloop, endloopOp_inside hs hl]
    simp only [if_neg (Nat.not_lt.mpr hc)]
  · rw [exec_opAbandon, opAbandonOp_idle hr]
  · rw [exec_opAbandon, opAbandonOp_running hr]
  · rw [exec_opAbandon, opAbandonOp_hostError hr]

end Sys2Proof.Machine
end

section
/-! SUPPORT. What a slot tick does without a RUN_HEATS operation: what its close abandons, its commits and its sync edges (02 R26, R40,
R44, 16 R361). -/

namespace Sys2Proof.Machine

/-! ## The close of a slot without an operation -/

/-- Does t differ from s only in what an abandoned op marks: destinations, the count of abandoned ops, and banks? -/
def AbandonsOnly (s t : State) : Prop :=
  ∃ inv n cores, t = { s with heat := { s.heat with invalid := inv, abandons := n, cores := cores } }

theorem AbandonsOnly.refl (s : State) : AbandonsOnly s s := ⟨_, _, _, rfl⟩

theorem AbandonsOnly.trans {s t v : State} (h : AbandonsOnly s t) (g : AbandonsOnly t v) : AbandonsOnly s v := by
  obtain ⟨_, _, _, rfl⟩ := h
  obtain ⟨inv, n, cores, rfl⟩ := g
  exact ⟨inv, n, cores, rfl⟩

/-- The operation stands. -/
theorem AbandonsOnly.job {s t : State} (h : AbandonsOnly s t) : t.heat.job = s.heat.job := by
  obtain ⟨_, _, _, rfl⟩ := h
  rfl

/-- Ops abandoned one after another, without an operation. -/
theorem AbandonsOnly.foldl {α : Type} {f : State → α → State} (hf : ∀ t x, t.heat.job = none → AbandonsOnly t (f t x)) (l : List α)
    {s : State} (h : s.heat.job = none) : AbandonsOnly s (l.foldl f s) :=
  foldl_inv (AbandonsOnly s) f l s (.refl s) fun t x ht => ht.trans (hf t x (ht.job.trans h))

/-- Without an operation no cause is kept (R28). -/
theorem State.cause_noJob {s : State} (h : s.heat.job = none) (unit bit : Nat) : s.cause unit bit = s := by
  simp [State.cause, h]

theorem State.opAbandoned_noJob {s : State} (h : s.heat.job = none) (unit : Nat) (dests : List Invalid) :
    AbandonsOnly s (s.opAbandoned unit dests) :=
  ⟨dests.foldl addTo s.heat.invalid, s.heat.abandons + 1, s.heat.cores,
    State.cause_noJob (s := { s.markInvalid dests with
      heat := { (s.markInvalid dests).heat with abandons := s.heat.abandons + 1 } }) h unit 8⟩

theorem State.spoilBank_abandonsOnly (s : State) (x : Invalid) : AbandonsOnly s (s.spoilBank x) := by
  cases x <;> exact ⟨_, _, _, rfl⟩

theorem State.abandonOp_noJob {s : State} (h : s.heat.job = none) (i : Instr) : AbandonsOnly s (s.abandonOp i) := by
  have ops (t : Nat × List Invalid) : AbandonsOnly s (t.2.foldl State.spoilBank (s.opAbandoned t.1 t.2)) :=
    have ha := State.opAbandoned_noJob h t.1 t.2
    ha.trans (.foldl (fun v x _ => v.spoilBank_abandonsOnly x) t.2 (ha.job.trans h))
  unfold State.abandonOp
  split
  · exact .refl s
  · exact ops _

/-- The ops that still wait are abandoned, and the accesses behind them dropped. -/
theorem State.abandonOps_noJob {s : State} (h : s.heat.job = none) : ∃ inv n cores acc, s.abandonOps =
    { s with
      heat := { s.heat with waitOps := [], invalid := inv, abandons := n, cores := cores },
      port := { s.port with hostAcc := acc } } := by
  have h1 : AbandonsOnly { s with heat := { s.heat with waitOps := [] } }
      (s.heat.waitOps.foldl State.abandonOp { s with heat := { s.heat with waitOps := [] } }) :=
    .foldl (fun _ i ht => State.abandonOp_noJob ht i) _ h
  have h2 : ∃ v, AbandonsOnly { s with heat := { s.heat with waitOps := [] } } v ∧
      s.abandonOps = { v with port := { v.port with hostAcc := v.port.hostAcc.filter fun a => !a.purpose.ofSlot } } := by
    refine ⟨_, h1.trans (.foldl (fun t a ht => ?_) _ (h1.job.trans h)), rfl⟩
    split
    · exact State.opAbandoned_noJob ht _ _
    · exact .refl t
  obtain ⟨_, ⟨inv, n, cores, rfl⟩, he⟩ := h2
  exact ⟨inv, n, cores, _, he⟩

/-- No heat is in VERDICT without an operation. -/
theorem State.inVerdict_noJob {s : State} (h : s.heat.job = none) : s.inVerdict = false := by simp [State.inVerdict, h]

theorem fleetFreezeOp_noJob {s : State} (h : s.heat.job = none) : fleetFreezeOp s = s := by
  unfold fleetFreezeOp
  split <;> simp [State.inVerdict_noJob h]

theorem fleetVerdictOp_noJob {s : State} (h : s.heat.job = none) : fleetVerdictOp s = s := by
  unfold fleetVerdictOp
  split <;> simp [State.inVerdict_noJob h]

theorem fleetDeadlineOp_noJob {s : State} (h : s.heat.job = none) : fleetDeadlineOp s = s := by
  unfold fleetDeadlineOp
  split <;> simp [State.inVerdict_noJob h]

theorem State.countSlot_noJob {s : State} (h : s.heat.job = none) : s.countSlot = s := by
  simp [State.countSlot, State.phase, h, State.inVerdict_noJob h]

/-- Of what was due in the slot, only a pulse can be, without an operation. -/
theorem State.closeDue_noJob {s : State} (h : s.heat.job = none) : s.closeDue = masterPulseOp s := by
  have hf : s.fixDue = false := by simp [State.fixDue, State.inVerdict_noJob h]
  have hl : s.limitDue = false := by simp [State.limitDue, State.waitsSync, h]
  simp [State.closeDue, hf, fleetFreezeOp_noJob h, fleetVerdictOp_noJob h, syncExpiryOp_idle hl]

/-- A pulse changes the pour sync and what goes out. -/
theorem masterPulseOp_frame (s : State) : ∃ y o, masterPulseOp s = { s with heat := { s.heat with sync := y }, out := o } := by
  cases h : s.heat.sync.pulseDue
  · exact ⟨_, _, masterPulseOp_idle h⟩
  · exact ⟨_, _, masterPulseOp_due h⟩

/-- What the close of a slot can change without an operation. -/
def ClosesIdle (s u : State) : Prop :=
  ∃ inv n cores acc y o, u = { s with
    heat := { s.heat with waitOps := [], invalid := inv, abandons := n, cores := cores, sync := y },
    port := { s.port with hostAcc := acc }, out := o }

theorem State.closesIdle_of_noJob {s : State} (h : s.heat.job = none) :
    ClosesIdle s (fleetDeadlineOp s.abandonOps.closeDue.countSlot) := by
  obtain ⟨inv, n, cores, acc, ha⟩ := State.abandonOps_noJob h
  obtain ⟨y, o, hp⟩ := masterPulseOp_frame s.abandonOps
  have hj : s.abandonOps.heat.job = none := by rw [ha]; exact h
  have hm : (masterPulseOp s.abandonOps).heat.job = none := by rw [hp]; exact hj
  rw [State.closeDue_noJob hj, State.countSlot_noJob hm, fleetDeadlineOp_noJob hm, hp, ha]
  exact ⟨inv, n, cores, acc, y, o, rfl⟩

/-! ## The next slot without an operation -/

/-- A filed record leaves the severities and a reset that is due. -/
theorem State.postEvent_severities (s : State) (e : EventRec) :
    (s.postEvent e).events.sevSet = s.events.sevSet ∧ (s.postEvent e).events.resetDue = s.events.resetDue := by
  unfold State.postEvent
  dsimp only
  (repeat' split) <;> simp

/-- So does the close of records. -/
theorem State.closeEvents_severities (s : State) (f : EventRec → Bool) :
    (s.closeEvents f).events.sevSet = s.events.sevSet ∧ (s.closeEvents f).events.resetDue = s.events.resetDue :=
  foldl_inv (fun t => t.events.sevSet = s.events.sevSet ∧ t.events.resetDue = s.events.resetDue) State.postEvent
    (s.events.openRecs.filter f) { s with events := { s.events with openRecs := s.events.openRecs.filter fun e => !f e } } ⟨rfl, rfl⟩
    fun t e ⟨h1, h2⟩ => ⟨(t.postEvent_severities e).1.trans h1, (t.postEvent_severities e).2.trans h2⟩

/-- Does t differ from s only in the pour sync and the registers? -/
def SyncOnly (s t : State) : Prop := ∃ y r, t = { s with heat := { s.heat with sync := y }, regs := r }

theorem SyncOnly.trans {s t v : State} (h : SyncOnly s t) (g : SyncOnly t v) : SyncOnly s v := by
  obtain ⟨_, _, rfl⟩ := h
  obtain ⟨y, r, rfl⟩ := g
  exact ⟨y, r, rfl⟩

/-- The operation stands. -/
theorem SyncOnly.job {s t : State} (h : SyncOnly s t) : t.heat.job = s.heat.job := by
  obtain ⟨_, _, rfl⟩ := h
  rfl

theorem State.setSync_syncOnly (s : State) (f : Sync → Sync) : SyncOnly s (s.setSync f) := ⟨_, _, rfl⟩

/-- A commit changes registers alone. -/
theorem State.commitDue_syncOnly (s : State) (b : CommitBlock) : SyncOnly s (s.commitDue b) := by
  unfold State.commitDue State.commitApply
  dsimp only
  (repeat' split) <;> exact ⟨_, _, rfl⟩

/-- So do the commits of a tick. -/
theorem State.tickCommits_syncOnly (s : State) : SyncOnly s s.tickCommits := by
  have h := (s.commitDue_syncOnly .defaults).trans (State.commitDue_syncOnly _ .limits)
  unfold State.tickCommits
  dsimp only
  split
  · exact h
  · exact h.trans (State.commitDue_syncOnly _ .pourSync)

/-- A sync that finds no heat in progress is discarded and counted (R44). -/
theorem State.syncEffect_noJob {s : State} (h : s.heat.job = none) :
    s.syncEffect = (s.setSync fun y => { y with discard := false, window := 0 }).setRegs
      fun r => { r with syncDiscard := satAdd 32 r.syncDiscard 1 } := by
  simp [State.syncEffect, State.heatInProgress, h]

/-- So are several. -/
theorem State.syncEffects_noJob (k : Nat) {s : State} (h : s.heat.job = none) : SyncOnly s (s.syncEffects k) := by
  induction k generalizing s with
  | zero => exact ⟨_, _, rfl⟩
  | succ k ih =>
    have h1 : SyncOnly s s.syncEffect := ⟨_, _, State.syncEffect_noJob h⟩
    exact h1.trans (ih (h1.job.trans h))

/-- The syncs of a tick without an operation. -/
theorem State.tickEdges_noJob {s : State} (h : s.heat.job = none) : SyncOnly s s.tickEdges := by
  unfold State.tickEdges
  dsimp only
  refine .trans ?_ (State.setSync_syncOnly _ _)
  split
  · exact (State.setSync_syncOnly s _).trans (State.syncEffects_noJob _ h)
  · exact State.setSync_syncOnly s _

/-- There is no operation to tick. -/
theorem State.jobTick_noJob {s : State} (h : s.heat.job = none) : s.jobTick = s := by simp [State.jobTick, h]

/-- A tick that leaves the phase writes no held record. -/
theorem State.closeHeld_same {s : State} {ph : Option Phase} (h : s.phase = ph) : s.closeHeld ph = s := if_pos h

/-- SLOT_TICK of a module that is alive: the slot closes, and the next one opens. -/
theorem slotTickOp_alive {s : State} (h : s.alive = true) : slotTickOp s =
    (let v := if s.phase.any Phase.runs then s.closeCores else s
     ((fleetDeadlineOp v.abandonOps.closeDue.countSlot).openSlot.tickCommits.tickEdges.jobTick.closeHeld s.phase).clearLate.sampleLevel) := by
  unfold slotTickOp
  rw [h]
  cases s.phase <;> rfl

/-- A module that is not alive does not tick. -/
theorem slotTickOp_dead {s : State} (h : s.alive = false) : slotTickOp s = s := by simp [slotTickOp, h]

/-- A tick without an operation: the slot closes, the next one opens, and beyond that registers and the pour sync change alone. -/
theorem slotTickOp_noJob {s : State} (ha : s.alive = true) (hj : s.heat.job = none) :
    (∃ u, ClosesIdle s u ∧ SyncOnly u.openSlot (slotTickOp s)) ∧ (slotTickOp s).heat.sync.levelAt = (slotTickOp s).pins.syncIn := by
  have hu := State.closesIdle_of_noJob hj
  have hv : (if s.phase.any Phase.runs then s.closeCores else s) = s := by simp [State.phase, hj]
  rw [slotTickOp_alive ha]
  dsimp only
  rw [hv]
  generalize fleetDeadlineOp s.abandonOps.closeDue.countSlot = u at hu
  have hju : u.openSlot.heat.job = none := by
    obtain ⟨_, _, _, _, _, _, rfl⟩ := hu
    simp [State.openSlot, hj]
  have h1 := u.openSlot.tickCommits_syncOnly
  have h2 := h1.trans (State.tickEdges_noJob (h1.job.trans hju))
  generalize u.openSlot.tickCommits.tickEdges = v at h2
  have hjv : v.heat.job = none := h2.job.trans hju
  rw [State.jobTick_noJob hjv, State.closeHeld_same (by simp [State.phase, hj, hjv])]
  exact ⟨⟨u, hu, h2.trans ⟨_, _, rfl⟩⟩, rfl⟩

/-- A tick without an operation where nothing is due at its end: the timebase moves on, the stretch and the severities that were set
are in force, what lives for one slot is gone, and the heat's number and cursor stand (R26, R46, R333). -/
theorem exec_slotTick_noJob {s : State} (ha : s.alive = true) (hj : s.heat.job = none) (hc : s.calm = true) :
    ∃ t, exec .slotTick s = .next t ∧
      t.boot.timebase = s.boot.timebase + s.heat.slotLen + s.power.stretch ∧ t.power.stretch = s.power.nextStretch ∧
      t.events.sevForce = s.events.sevSet ∧ t.port.msixWindow = [] ∧ t.heat.job = none ∧ t.heat.links = [] ∧ t.heat.leafData = [] ∧
      t.heat.waitOps = [] ∧ t.heat.heatNum = s.heat.heatNum ∧ t.heat.cursor = s.heat.cursor ∧
      t.heat.sync.levelAt = s.pins.syncIn ∧ t.fuses = s.fuses ∧ t.pending = s.pending := by
  obtain ⟨⟨u, ⟨inv, n, cores, acc, z, o, rfl⟩, ⟨y, r, he⟩⟩, hl⟩ := slotTickOp_noJob ha hj
  have calm : (slotTickOp s).calm = true := by
    rw [he]
    simpa [State.calm, State.running, State.openSlot, (State.closeEvents_severities _ _).2] using hc
  refine ⟨_, by rw [exec_slotTick, done_calm s _ calm], ?_⟩
  have hp : (slotTickOp s).pins = s.pins := by simp [he, State.openSlot]
  rw [hp] at hl
  refine ⟨?_, ?_, ?_, ?_, ?_, ?_, ?_, ?_, ?_, ?_, hl, ?_, rfl⟩ <;>
    simp [he, State.openSlot, (State.closeEvents_severities _ _).1, hj]

end Sys2Proof.Machine
end

section
/-! SUPPORT. The heat tick by tick: the slots and phases of the operation, the verdict and what becomes of a heat, and the pour (02 R30
to R35, 08 R198 to R200). -/

namespace Sys2Proof.Machine

/-! ## The tick of the operation (R30 to R32) -/

section
variable {s : State} {j : Job} (hj : s.heat.job = some j)
include hj

/-- A CANCEL before the commit point ends the operation at the tick (R308). -/
theorem State.jobTick_cancel (hc : j.cancel = true) : s.jobTick = s.endJob stCancelled := by simp [State.jobTick, hj, hc]

/-- A suspended operation does not tick. -/
theorem State.jobTick_suspended (hc : j.cancel = false) (hp : j.phase = .suspended) : s.jobTick = s := by
  simp [State.jobTick, hj, hc, hp]

/-- In VERDICT the slots count until the word is fixed. -/
theorem State.jobTick_verdict_open (hc : j.cancel = false) (hp : j.phase = .verdict) (hf : s.heat.fixed = none) :
    s.jobTick = { s with heat := { s.heat with job := some { j with slotInHeat := j.slotInHeat + 1 } } } := by
  simp [State.jobTick, State.verdictTick, State.setJob_of_job hj, hj, hc, hp, hf]

/-- A fixed word of a lone module opens the pour. -/
theorem State.jobTick_verdict_fixed {w : Nat} (hc : j.cancel = false) (hp : j.phase = .verdict) (hf : s.heat.fixed = some w)
    (hx : s.fleet.exch.on = false) :
    s.jobTick = State.openPour { s with heat := { s.heat with job := some { j with slotInHeat := j.slotInHeat + 1 } } } w := by
  simp [State.jobTick, State.verdictTick, State.setJob_of_job hj, hj, hc, hp, hf, hx]

/-- In POUR the slots count down; at the last one what is left of the pour is done, and the work is. -/
theorem State.jobTick_pour (hc : j.cancel = false) (hp : j.phase = .pour) : s.jobTick =
    (let n : State := { s with heat := { s.heat with job := some { j with left := j.left - 1, slotInHeat := j.slotInHeat + 1 } } }
     if j.left ≤ 1 then (n.finishPour.setJob Job.closePour).workDone else n) := by
  simp [State.jobTick, State.pourTick, State.setJob_of_job hj, hj, hc, hp]

end

/-! ## Slots and phases (R30) -/

/-- The next slot of a phase that has one. -/
theorem Job.nextSlot_within {j : Job} (t : Template) (hs : j.skipOps = false) (hl : 1 < j.left) :
    j.nextSlot t = { j with slotInHeat := j.slotInHeat + 1, left := j.left - 1 } := by
  simp [Job.nextSlot, hs, hl]

/-- After its last slot the next phase opens. -/
theorem Job.nextSlot_last {j : Job} (t : Template) (hs : j.skipOps = false) (hl : j.left ≤ 1) :
    j.nextSlot t = { j with slotInHeat := j.slotInHeat + 1, phase := (t.next j.phase).1, left := (t.next j.phase).2 } := by
  simp [Job.nextSlot, hs, Nat.not_lt.mpr hl]

/-! ## What becomes of a heat (R32, R199, R200) -/

/-- A zero word commits. -/
theorem Job.dispose_zero (j : Job) (m : Bool) : j.dispose 0 m = { j with disposal := .commit } := by simp [Job.dispose]

section
variable {j : Job} {w : Nat} (m : Bool) (hw : w ≠ 0)
include hw

/-- A heat that must not run again keeps its place. -/
theorem Job.dispose_noReplay (hn : j.noReplay = true) : j.dispose w m = { j with disposal := .replay } := by
  simp [Job.dispose, hw, hn]

/-- A veto by numerics alone: replayed up to its limit, and then skipped or halted. -/
theorem Job.dispose_numerics (hn : j.noReplay = false) (ho : otherCauses w = 0) : j.dispose w m =
    (let j := { j with numVetoes := j.numVetoes + 1, nonNumRun := 0 }
     if j.numVetoes ≤ j.args.numReplays then { j with disposal := .replay } else
     if j.args.afterHalt then { j with disposal := .replay, endStatus := some (j.endStatus.getD stVetoed) }
     else { j with disposal := .skip }) := by
  simp [Job.dispose, hw, hn, ho]

/-- A veto by another cause below its limit is replayed. -/
theorem Job.dispose_other (hn : j.noReplay = false) (ho : otherCauses w ≠ 0) (hb : bitOf w 12 = false)
    (hl : j.nonNumRun + 1 < j.args.replayLimit) :
    j.dispose w false = { j with nonNumRun := j.nonNumRun + 1, disposal := .replay } := by
  simp [Job.dispose, hw, hn, ho, hb, Nat.not_le.mpr hl]

end

/-! ## The verdict and the pour (R34, R35, R198) -/

/-- The word is fixed where it is due. -/
theorem verdictFixOp_due {s : State} (h : s.fixDue = true) : verdictFixOp s = s.fixWord := if_pos h

/-- Else nothing is. -/
theorem verdictFixOp_idle {s : State} (h : s.fixDue = false) : verdictFixOp s = s := by simp [verdictFixOp, h]

/-- A pour that is not open, or has begun, does not begin. -/
theorem pourOp_idle {s : State} (h : ∀ j, s.heat.job = some j → j.phase ≠ .pour ∨ j.pourStep ≠ 0) : pourOp s = s := by
  unfold pourOp
  split
  next j hj => exact if_pos (h j hj)
  next => rfl

/-- A pour begins at step 1 for a committed heat and at step 4 for a vetoed one. -/
theorem pourOp_begins {s : State} {j : Job} (hj : s.heat.job = some j) (hp : j.phase = .pour) (h0 : j.pourStep = 0) :
    pourOp s = { s with heat := { s.heat with
      passSums := [], job := some { j with pourStep := if j.disposal = .commit then 1 else 4 } } } := by
  simp [pourOp, hj, hp, h0, State.setJob]

/-- Outside a pour, before its first step and after its last, no step ends. -/
theorem pourStepOp_idle {s : State} (h : ∀ j, s.heat.job = some j → j.phase ≠ .pour ∨ j.pourStep = 0 ∨ 7 ≤ j.pourStep) :
    pourStepOp s = s := by
  unfold pourStepOp
  split
  next j p hj hp =>
    split
    next ph => exact State.pourStep_none s p ((h j hj).resolve_left (not_not_intro ph))
    next => rfl
  next => rfl

/-- Settles O56: the tick, the operation's tick phase by phase, the slots, the word, what becomes of a heat, and the steps of the
pour. -/
theorem heatsRunTickByTick : Obligations.HeatsRunTickByTick := by
  unfold Obligations.HeatsRunTickByTick
  intro s
  refine ⟨fun h => ?_, fun h => ?_, fun h hj hc => exec_slotTick_noJob h hj hc, State.jobTick_noJob,
    fun j hj hc => State.jobTick_cancel hj hc,
    fun j hj hc => ⟨State.jobTick_suspended hj hc, State.jobTick_verdict_open hj hc, fun w => State.jobTick_verdict_fixed hj hc,
      fun hp => ⟨fun hl => ?_, fun hl => ?_⟩⟩,
    rfl,
    fun j t hs => ⟨Job.nextSlot_within t hs, fun hl hp => ?_, fun hl hp h1 => ?_, fun hl hp h1 => ?_, fun hl hp h1 => ?_,
      fun hl hp => ?_⟩,
    fun h => ?_, fun h => ?_,
    fun j w m => ⟨Job.dispose_zero j m, Job.dispose_noReplay m, fun hw hn ho hl => ?_, fun hw hn ho hl ha => ?_,
      fun hw hn ho hl ha => ?_, fun hw hn ho hb hm hl => ?_⟩,
    fun h => ?_, fun h => ?_, fun j hj hp h0 => ?_,
    fun j p hj hp ph => ⟨fun h => ?_, fun h => ?_, fun h => ?_, fun h => ?_, fun h => ?_⟩⟩
  · rw [exec_slotTick, slotTickOp_dead h]
  · rw [exec_slotTick, slotTickOp_alive h]
  · rw [State.jobTick_pour hj hc hp]
    exact if_neg (Nat.not_le.mpr hl)
  · rw [State.jobTick_pour hj hc hp]
    exact if_pos hl
  · simp +contextual [Job.nextSlot_last t hs hl, hp, Template.next, Template.after]
  · simp [Job.nextSlot_last t hs hl, hp, Template.next, Template.after, h1]
  · simp [Job.nextSlot_last t hs hl, hp, Template.next, Template.after, h1]
  · simp [Job.nextSlot_last t hs hl, hp, Template.next, Template.after, h1]
  · simp [Job.nextSlot_last t hs hl, hp, Template.next, Template.after]
  · rw [exec_verdictFix, verdictFixOp_due h]
    rfl
  · rw [exec_verdictFix, verdictFixOp_idle h]
  · rw [Job.dispose_numerics m hw hn ho]
    exact if_pos hl
  · simp [Job.dispose_numerics m hw hn ho, Nat.not_lt.mpr hl, ha]
  · simp [Job.dispose_numerics m hw hn ho, Nat.not_lt.mpr hl, ha]
  · subst hm
    exact Job.dispose_other hw hn ho hb hl
  · rw [exec_pour, pourOp_idle h]
  · rw [exec_pourStepDone, pourStepOp_idle h]
  · rw [exec_pour, pourOp_begins hj hp h0]
  all_goals
    rw [exec_pourStepDone_in_pour hj hp ph]
    simp [State.pourStep, h, State.setJob_of_job hj]

end Sys2Proof.Machine
end

section
/-! SUPPORT. The exact values of finite operands and the F-path sum of a group, with the statement that it settles (04 R82, R97). -/

namespace Sys2Proof.Machine

/-! ## The number that a finite value stands for -/

/-- The number (-1)^s * m * 2^e of a finite value; the special values, which stand for none, read as 0. -/
def FV.toRat : FV → ℚ
  | .fin s m e => signedM s m * 2 ^ e
  | _ => 0

/-- A finite value: its signed significand times its power of two. -/
@[simp] theorem FV.toRat_fin (s : Bool) (m : Nat) (e : Int) : (FV.fin s m e).toRat = signedM s m * 2 ^ e := rfl

/-- +0 stands for 0. -/
@[simp] theorem fvZero_toRat : fvZero.toRat = 0 := by simp [fvZero, signedM]

/-- A value that tests finite is given by its sign, significand and exponent. -/
theorem FV.exists_fin_of_isFin {v : FV} (h : v.isFin = true) : ∃ s m e, v = .fin s m e := by
  cases v with
  | nan => cases h
  | inf s => cases h
  | fin s m e => exact ⟨s, m, e, rfl⟩

/-- A zero of either sign stands for 0. -/
theorem FV.toRat_eq_zero_of_isZero {v : FV} (h : v.isZero = true) : v.toRat = 0 := by
  cases v with
  | nan => rfl
  | inf s => rfl
  | fin s m e =>
    have hm : m = 0 := eq_of_beq h
    simp [hm, signedM]

/-- The significand of a product carries the product of the signed significands. -/
theorem signedM_mul (s t : Bool) (m n : Nat) : signedM (s != t) (m * n) = signedM s m * signedM t n := by
  cases s <;> cases t <;> simp [signedM]

/-- The product of finite values is finite. -/
theorem FV.mul_isFin {x y : FV} (hx : x.isFin = true) (hy : y.isFin = true) : (x.mul y).isFin = true := by
  obtain ⟨s, m, e, rfl⟩ := exists_fin_of_isFin hx
  obtain ⟨t, n, f, rfl⟩ := exists_fin_of_isFin hy
  rfl

/-- The product of finite values is exact. -/
theorem FV.toRat_mul {x y : FV} (hx : x.isFin = true) (hy : y.isFin = true) : (x.mul y).toRat = x.toRat * y.toRat := by
  obtain ⟨s, m, e, rfl⟩ := exists_fin_of_isFin hx
  obtain ⟨t, n, f, rfl⟩ := exists_fin_of_isFin hy
  calc ((signedM (s != t) (m * n) : Int) : ℚ) * 2 ^ (e + f)
      = signedM s m * signedM t n * (2 ^ e * 2 ^ f) := by rw [signedM_mul, Int.cast_mul, zpow_add₀ two_ne_zero]
    _ = signedM s m * 2 ^ e * (signedM t n * 2 ^ f) := mul_mul_mul_comm ..

/-- An integer taken apart and put together again, times its power of two. -/
theorem ofDyadic_toRat (k e : Int) : (ofDyadic k e).toRat = k * 2 ^ e := by
  have hk : signedM (decide (k < 0)) k.natAbs = k := by
    by_cases h : k < 0
    · simp only [signedM, h, decide_true, if_true]
      omega
    · simp only [signedM, h, decide_false, Bool.false_eq_true, if_false]
      omega
  rw [ofDyadic, FV.toRat_fin, hk]

/-- A significand brought down to a common exponent g keeps its number. -/
theorem mul_pow_sub_mul_zpow (k : Int) {e g : Int} (h : g ≤ e) : (k : ℚ) * 2 ^ (e - g).toNat * 2 ^ g = k * 2 ^ e := by
  rw [mul_assoc, ← zpow_natCast, Int.toNat_of_nonneg (Int.sub_nonneg.mpr h), ← zpow_add₀ two_ne_zero, Int.sub_add_cancel]

/-- The sum of finite values is finite. -/
theorem FV.add_isFin {x y : FV} (hx : x.isFin = true) (hy : y.isFin = true) : (x.add y).isFin = true := by
  obtain ⟨s, m, e, rfl⟩ := exists_fin_of_isFin hx
  obtain ⟨t, n, f, rfl⟩ := exists_fin_of_isFin hy
  by_cases h0 : m = 0 ∧ n = 0
  · simp [FV.add, h0, isFin]
  · simp [FV.add, h0, ofDyadic, isFin]

/-- The sum of finite values is exact: both significands stand at the lower exponent. -/
theorem FV.toRat_add {x y : FV} (hx : x.isFin = true) (hy : y.isFin = true) : (x.add y).toRat = x.toRat + y.toRat := by
  obtain ⟨s, m, e, rfl⟩ := exists_fin_of_isFin hx
  obtain ⟨t, n, f, rfl⟩ := exists_fin_of_isFin hy
  by_cases h0 : m = 0 ∧ n = 0
  · simp [FV.add, h0, signedM]
  · simp only [FV.add, if_neg h0, ofDyadic_toRat, toRat_fin]
    push_cast
    rw [add_mul, mul_pow_sub_mul_zpow _ (min_le_left e f), mul_pow_sub_mul_zpow _ (min_le_right e f)]

/-! ## The exact sum (R82, R95) -/

/-- Adding up finite values one after the other is exact. -/
theorem foldl_add_exact (l : List FV) (hl : ∀ v ∈ l, v.isFin = true) (a : FV) (ha : a.isFin = true) :
    (l.foldl FV.add a).isFin = true ∧ (l.foldl FV.add a).toRat = a.toRat + (l.map FV.toRat).sum := by
  induction l generalizing a with
  | nil => simpa using ha
  | cons v vs ih =>
    obtain ⟨hv, hvs⟩ := List.forall_mem_cons.mp hl
    obtain ⟨hfin, hsum⟩ := ih hvs (a.add v) (FV.add_isFin ha hv)
    refine ⟨hfin, ?_⟩
    rw [List.foldl_cons, hsum, FV.toRat_add ha hv, List.map_cons, List.sum_cons, add_assoc]

/-- Values that are zero do not count in a sum of numbers. -/
theorem sum_toRat_filter_nonzero (l : List FV) : ((l.filter fun v => !v.isZero).map FV.toRat).sum = (l.map FV.toRat).sum := by
  induction l with
  | nil => rfl
  | cons v vs ih =>
    cases h : v.isZero with
    | false => simp [h, ih]
    | true => simp [h, ih, FV.toRat_eq_zero_of_isZero h]

/-- The sum of finite values without rounding: finite, and the sum of their numbers. -/
theorem exactSum_exact (l : List FV) (hl : ∀ v ∈ l, v.isFin = true) :
    (exactSum l).isFin = true ∧ (exactSum l).toRat = (l.map FV.toRat).sum := by
  obtain ⟨hfin, hsum⟩ := foldl_add_exact (l.filter fun v => !v.isZero) (fun v hv => hl v (List.mem_of_mem_filter hv)) fvZero rfl
  refine ⟨hfin, ?_⟩
  rw [exactSum, hsum, sum_toRat_filter_nonzero, fvZero_toRat, zero_add]

/-! ## The group sum on the F-path (R82, R97) -/

/-- A group of finite operands has no special value. -/
theorem specialSum_finite {l : List (Opd × Opd)} (h : ∀ p ∈ l, p.1.v.isFin = true ∧ p.2.v.isFin = true) : specialSum l = none := by
  have hall : (l.all fun e => !!e.1.v.isFin && !!e.2.v.isFin) = true := by
    simpa using fun a b hab => h (a, b) hab
  exact if_pos hall

/-- On the F-path a group of finite operands without escaped lanes is the exact sum of its products. -/
theorem groupSum_fpath_plain {l : List (Opd × Opd)} (hf : ∀ p ∈ l, p.1.v.isFin = true ∧ p.2.v.isFin = true)
    (he : ∀ p ∈ l, (p.1.esc || p.2.esc) = false) : groupSum true l = (exactSum (l.map fun p => p.1.v.mul p.2.v), false) := by
  have hkeep : (l.filter fun e => !(e.1.esc || e.2.esc)) = l := List.filter_eq_self.mpr fun p hp => by simp [he p hp]
  have hnone : (l.any fun e => e.1.esc || e.2.esc) = false := List.any_eq_false.mpr fun p hp => by simp [he p hp]
  simp only [groupSum, specialSum_finite hf, hkeep, hnone, if_true, Bool.false_eq_true, if_false]

/-- The numbers of the products of finite operands are the products of their numbers. -/
theorem map_toRat_products {l : List (Opd × Opd)} (h : ∀ p ∈ l, p.1.v.isFin = true ∧ p.2.v.isFin = true) :
    (l.map fun p => p.1.v.mul p.2.v).map FV.toRat = l.map fun p => p.1.v.toRat * p.2.v.toRat := by
  rw [List.map_map]
  exact List.map_congr_left fun p hp => FV.toRat_mul (h p hp).1 (h p hp).2

/-- Settles O53: without special values and escaped lanes the group is one exact sum, and each product and each addition of
finite values is exact, so the order of the lanes does not matter. -/
theorem groupSumsAreExact : Obligations.GroupSumsAreExact := by
  unfold Obligations.GroupSumsAreExact
  intro val l h
  have hval : val = FV.toRat := by
    funext v
    cases v with
    | nan => rfl
    | inf s => rfl
    | fin s m e => cases s <;> simp [val, signedM]
  have hf : ∀ p ∈ l, p.1.v.isFin = true ∧ p.2.v.isFin = true := fun p hp =>
    let ⟨hx, hy, _⟩ := h p hp
    ⟨hx, hy⟩
  have he : ∀ p ∈ l, (p.1.esc || p.2.esc) = false := fun p hp => by
    obtain ⟨-, -, hx, hy⟩ := h p hp
    simp [hx, hy]
  have hprod : ∀ v ∈ l.map fun p => p.1.v.mul p.2.v, v.isFin = true :=
    List.forall_mem_map.mpr fun p hp => FV.mul_isFin (hf p hp).1 (hf p hp).2
  obtain ⟨hfin, hsum⟩ := exactSum_exact _ hprod
  rw [hval, groupSum_fpath_plain hf he]
  exact ⟨hfin, rfl, by rw [hsum, map_toRat_products hf]⟩

end Sys2Proof.Machine
end

section
/-! SUPPORT. The canonical tree as the node recursion of R87, with the statement that it settles (04 R87). -/

namespace Sys2Proof.Machine

/-! ## The least number of levels -/

/-- clog2 is the least d with n not above 2^d. -/
theorem clog2_eq_of_least {n d : Nat} (hle : n ≤ 2 ^ d) (hleast : d = 0 ∨ 2 ^ (d - 1) < n) : clog2 n = d := by
  cases d with
  | zero =>
    have h0 : n - 1 = 0 := Nat.sub_eq_zero_of_le hle
    simp [clog2, bitLen, h0]
  | succ d =>
    have hlt : 2 ^ d < n := hleast.resolve_left (Nat.succ_ne_zero d)
    have hpos : 0 < 2 ^ d := Nat.two_pow_pos d
    have h0 : n - 1 ≠ 0 := by omega
    have hlog : (n - 1).log2 = d := (Nat.log2_eq_iff h0).mpr ⟨by omega, by omega⟩
    rw [clog2, bitLen, if_neg h0, hlog]

/-! ## One level (R87) -/

section
variable {α : Type} (add : α → α → α)

/-- A level has a node for each pair and one for an unpaired last node. -/
theorem treeLevel_length (v : List α) : (treeLevel add v).length = (v.length + 1) / 2 := by
  induction v using treeLevel.induct with
  | case1 a b rest ih =>
    simp only [treeLevel, List.length_cons, ih]
    omega
  | case2 v hv =>
    match v, hv with
    | [], _ => simp [treeLevel]
    | [a], _ => simp [treeLevel]
    | a :: b :: rest, hv => exact absurd rfl (hv a b rest)

/-- Node j of a level adds nodes 2j and 2j + 1 of the level below, and is node 2j unchanged where the second is missing. -/
theorem treeLevel_getD (x : α) (v : List α) (j : Nat) : (treeLevel add v).getD j x =
    if 2 * j + 1 < v.length then add (v.getD (2 * j) x) (v.getD (2 * j + 1) x) else v.getD (2 * j) x := by
  induction v using treeLevel.induct generalizing j with
  | case1 a b rest ih =>
    cases j with
    | zero => simp [treeLevel]
    | succ j =>
      have hlt : 2 * (j + 1) + 1 < (a :: b :: rest).length ↔ 2 * j + 1 < rest.length := by
        simp only [List.length_cons]
        omega
      simp only [treeLevel, hlt]
      exact ih j
  | case2 v hv =>
    match v, hv with
    | [], _ => simp [treeLevel]
    | [a], _ => cases j <;> simp [treeLevel, Nat.mul_add]
    | a :: b :: rest, hv => exact absurd rfl (hv a b rest)

/-! ## All levels (R87) -/

/-- The second child of a node covers a group of a list of n exactly where, one level down the recursion, the second child of
the same node covers one of the halved list. -/
theorem covers_halved (n l j : Nat) : (2 * j + 1) * 2 ^ l < (n + 1) / 2 ↔ (2 * j + 1) * 2 ^ (l + 1) < n := by
  rw [pow_succ, ← mul_assoc]
  omega

/-- After d levels the first node is node (d, 0): the nodes from level 1 up are those of the list that one level leaves. -/
theorem treeGo_head_eq_node (x : α) (d : Nat) (v : List α) (node : Nat → Nat → α) (h0 : ∀ j, node 0 j = v.getD j x)
    (hs : ∀ l j, node (l + 1) j =
      if (2 * j + 1) * 2 ^ l < v.length then add (node l (2 * j)) (node l (2 * j + 1)) else node l (2 * j)) :
    (treeGo add d v).head?.getD x = node d 0 := by
  induction d generalizing v node with
  | zero => rw [treeGo, h0, List.head?_eq_getElem?, List.getD_eq_getElem?_getD]
  | succ d ih =>
    refine ih (treeLevel add v) (fun l j => node (l + 1) j) (fun j => ?_) fun l j => ?_
    · rw [hs, treeLevel_getD, h0, h0, pow_zero, mul_one]
    · simp only [treeLevel_length, covers_halved]
      exact hs (l + 1) j

end

/-- Settles O54: each level of the tree makes the nodes of R87 out of those below, and the root stands after the least number of
levels that leaves one node. -/
theorem treeAddsItsNodesInPairs : Obligations.TreeAddsItsNodesInPairs := by
  unfold Obligations.TreeAddsItsNodesInPairs
  refine ⟨fun add x v node _ h0 hs d hle hleast => ?_, fun a b => ⟨rfl, rfl⟩⟩
  rw [treeRoot, clog2_eq_of_least hle hleast]
  exact treeGo_head_eq_node add x d v node h0 hs

end Sys2Proof.Machine
end

section
/-! SUPPORT. The slot ops that run a body: how such an op stands where its body meets unanswered HOST leaves, with the statement that it
settles (07 R152, R159, 08 R190, R194, R195, R202, 09 R221, R226, R228, 12 R298). -/

namespace Sys2Proof.Machine

/-- The op i waits, its indexed fields resolved, and each of the missing HOST leaves that is not yet under way goes to the host (R226,
R298). -/
def State.awaitLeaves (s : State) (i : Instr) (misses : List (Nat × Nat)) : State :=
  misses.foldl (fun w m =>
    if w.port.hostAcc.any (fun y => decide (y.iova = m.1) && decide (y.purpose = .leaf)) then w else w.hostRead m.1 m.2 .leaf)
    { s with heat := { s.heat with waitOps := addTo s.heat.waitOps (s.resolve i) } }

/-- A body that misses a HOST leaf leaves nothing behind but the wait. -/
theorem State.runTiles_awaits {s : State} {i : Instr} {f : State → State}
    (hm : (f { s with heat := { s.heat with leafMiss := [] } }).heat.leafMiss ≠ []) :
    s.runTiles i f = s.awaitLeaves i (f { s with heat := { s.heat with leafMiss := [] } }).heat.leafMiss :=
  if_neg (mt List.isEmpty_iff.mp hm)

/-- A slot op that is taken and misses a HOST leaf waits, and its end is noted. -/
theorem issue_awaits {s : State} {p : Prog} {i : Instr} {f : State → State} (h : s.takesOp p = true)
    (hm : (f (s.opBase p)).heat.leafMiss ≠ []) :
    s.issue p i f = ((s.spanStep p).2.awaitLeaves i (f (s.opBase p)).heat.leafMiss).noteEnd p i (s.opBase p) := by
  obtain ⟨hi, ht⟩ : s.issues p = true ∧ (s.spanStep p).1 = true := by simpa [State.takesOp] using h
  have hr : (s.spanStep p).2.runTiles i f = (s.spanStep p).2.awaitLeaves i (f (s.opBase p)).heat.leafMiss :=
    State.runTiles_awaits hm
  unfold State.issue
  simp only [hi, ht, hr, Bool.not_true, Bool.false_eq_true, if_false, if_true]
  rfl

/-- A slot op that is taken runs its body or waits, and its end is noted. -/
theorem issue_runs_or_awaits {s : State} {p : Prog} (h : s.takesOp p = true) (i : Instr) (f : State → State) :
    s.issue p i f =
      (if (f (s.opBase p)).heat.leafMiss = [] then f (s.opBase p)
       else (s.spanStep p).2.awaitLeaves i (f (s.opBase p)).heat.leafMiss).noteEnd p i (s.opBase p) := by
  split
  case isTrue hm => exact issue_taken s p i f h hm
  case isFalse hm => exact issue_awaits h hm

/-- Settles O52: each op of the list is issued by its program with its body, and what follows is the issue's three cases. -/
theorem slotOpsRunTheirBodies : Obligations.SlotOpsRunTheirBodies := by
  unfold Obligations.SlotOpsRunTheirBodies
  intro s c x h a st ua k f n b rd e he
  have issued : exec e.2.1 s = .next (s.done (e.2.2.2 (s.issue e.1 e.2.1 e.2.2.1))) := by
    simp only [List.mem_cons, List.not_mem_nil, or_false] at he
    rcases he with rfl | rfl | rfl | rfl | rfl | rfl | rfl | rfl | rfl | rfl | rfl | rfl | rfl
    · exact exec_fMm s c h a
    · exact exec_bMmIg s c h a
    · exact exec_bMmWg s c h a
    · exact exec_drainCfg s c h k
    · exact exec_drain s c h k b f n
    · exact exec_convert s c h k f n
    · exact exec_stashPut s c h st
    · exact exec_stashGet s c h st
    · exact exec_spill s c h st rd
    · exact exec_linkSend s c h k b f n
    · exact exec_linkReduce s c h k
    · exact exec_nodeAdd s c h k
    · exact exec_update s x h ua
  refine ⟨fun ht => ?_, fun hi hs => ?_, fun hi => ?_⟩
  · rw [issued, issue_runs_or_awaits ht]
    rfl
  · rw [issued, issue_skipped s _ _ _ hi hs]
  · rw [issued, issue_idle s _ _ _ hi]

end Sys2Proof.Machine
end

section
/-! SUPPORT. The start of RUN_HEATS, with the statement that it settles (09 R236, 11 R290, 12 R300, R304). -/

namespace Sys2Proof.Machine

/-- DEFAULT_POLICY leaves the seed block where it is (R300). -/
@[simp] theorem policyOf_seeds (a : RunArgs) : (policyOf a).seeds = a.seeds := by
  unfold policyOf
  split <;> rfl

/-- DEFAULT_POLICY leaves the heat list where it is (R300). -/
@[simp] theorem policyOf_heatList (a : RunArgs) : (policyOf a).heatList = a.heatList := by
  unfold policyOf
  split <;> rfl

/-- An accepted RUN_HEATS starts once its audit entry stands (R304, R387). -/
theorem exec_runHeats_accepted {s : State} {c : Rc} {a : RunArgs} (ha : s.accepts (.runHeats c a) c 0x03 = true)
    (hf : s.audit.flashOk = true) :
    exec (.runHeats c a) s = .next (s.done
      ((s.logged c 0x41 (natLe 4 c.tag ++ zeros 4 ++ natLe 8 s.heat.heatNum)).heatsStart c a (s.headOf c))) := by
  rw [exec_accepted s _ c 0x03 rfl rfl ha, dispatch_logged s _ c 0x03 (s.headOf c) _ _ ha (by decide) rfl hf]
  rfl

/-- Settles O17: the accepted command reaches its start, whose operation is the one that is asked for. -/
theorem runHeatsBegins : Obligations.RunHeatsBegins := by
  unfold Obligations.RunHeatsBegins
  intro s c a ha hf
  rw [exec_runHeats_accepted ha hf]
  simp only [State.heatsStart, policyOf_seeds, policyOf_heatList]
  exact ⟨_, rfl, rfl, rfl, rfl, rfl, rfl, rfl, rfl, rfl, rfl, rfl, rfl, rfl, rfl, rfl⟩

end Sys2Proof.Machine
end

section
/-! SUPPORT. A ring command at its ring: refused, waiting or dispatched, with the statements that it settles (11 R260, 12 R292 to R297). -/

namespace Sys2Proof.Machine

/-! ## A fetched command (R292, R295, R297) -/

/-- A descriptor that was not valid completes with ST_DESC_INVALID. -/
theorem State.runFetched_invalid {s : State} {f : Fetched} (h : f.cmd = none) :
    s.runFetched f = s.complete f.rc f.opc f.sqHead stInvalid 0 0 := by
  simp only [State.runFetched, h]

/-- A valid one is dispatched. -/
theorem State.runFetched_valid {s : State} {f : Fetched} {i : Instr} (h : f.cmd = some i) :
    s.runFetched f = s.dispatchCmd i f.rc f.opc f.sqHead := by
  simp only [State.runFetched, h]

/-- Under too low a role a command completes with ST_RIGHTS, whatever its payload. -/
theorem State.dispatchCmd_lowRole {s : State} {c : Rc} {opc : Nat} (i : Instr) (head : Nat)
    (h : (s.ring c.ring).role < roleNeeded s.regs.policy opc) : s.dispatchCmd i c opc head = s.complete c opc head stRights 0 0 :=
  if_pos h

/-- Settles O10: a ready ring runs the command at once; one that the ring does not take has no valid descriptor, and one under too low
a role is refused before anything else is looked at. -/
theorem wrongRingOrRoleIsRefused : Obligations.WrongRingOrRoleIsRefused := by
  unfold Obligations.WrongRingOrRoleIsRefused
  intro i c opc s h1 h2 hready hhold
  rw [exec_ring i c opc s h1 h2, submit_ready s i c opc hready hhold]
  refine ⟨fun hring => ?_, fun hring hrole => ?_⟩
  · rw [State.runFetched_invalid (by simp [hring])]
  · rw [State.runFetched_valid (i := i) (by simp [hring]), State.dispatchCmd_lowRole i _ hrole]

/-! ## Submission in ring order (R293, R294) -/

/-- Where a ring could take commands, it is ready once nothing stands before the command and it can be dispatched. -/
theorem State.ready_of_open {s : State} {c : Rc} (h : (s.fullLink && (s.ring c.ring).enable) = true) :
    s.ready c = ((s.ring c.ring).fetched.isEmpty && s.canDispatch c) := by
  rw [State.ready, h, Bool.true_and]

/-- A command that is not run at once goes behind what its ring has fetched. -/
theorem submit_waits {s : State} {c : Rc} {opc : Nat} (i : Instr) (hopen : (s.fullLink && (s.ring c.ring).enable) = true)
    (h : s.ready c = false ∨ s.tablesHold opc = true) :
    s.submit i c opc = s.setRing c.ring fun q => { q with fetched := q.fetched ++
      [{ cmd := if ringAccepts c.ring opc then some i else none, opc := opc, rc := c, sqHead := s.headOf c }] } := by
  have hclosed : ¬ (!s.fullLink || !(s.ring c.ring).enable) = true := by
    rw [← Bool.not_and, hopen]
    decide
  have hwait : ¬ ((s.ring c.ring).fetched.isEmpty && s.canDispatch c && !s.tablesHold opc) = true := by
    rw [← State.ready_of_open hopen]
    rcases h with h | h <;> simp [h]
  exact (if_neg hclosed).trans (if_neg hwait)

/-- Without a link, or on a ring that is off, nothing is submitted. -/
theorem submit_closed {s : State} {c : Rc} (i : Instr) (opc : Nat) (h : (s.fullLink && (s.ring c.ring).enable) = false) :
    s.submit i c opc = s := by
  have hclosed : (!s.fullLink || !(s.ring c.ring).enable) = true := by
    rw [← Bool.not_and, h]
    rfl
  exact if_pos hclosed

/-- Settles O11: a submitted command waits on an open ring that does not run it, and there is none on a closed one. -/
theorem blockedCommandWaitsInOrder : Obligations.BlockedCommandWaitsInOrder := by
  unfold Obligations.BlockedCommandWaitsInOrder
  intro i c opc s h1 h2
  rw [exec_ring i c opc s h1 h2]
  refine ⟨fun hopen hblocked => ?_, fun hclosed => ?_⟩
  · rw [submit_waits i hopen hblocked]
  · rw [submit_closed i opc hclosed]

/-! ## Dispatch in ring order (R294) -/

section
variable {s : State} {r : Nat} (hl : s.fullLink = true)
include hl

/-- A ring with nothing fetched fetches. -/
theorem dispatchOp_empty (h : (s.ring r).fetched = []) : dispatchOp r s = s.fetchNext r := by
  simp only [dispatchOp, hl, h, Bool.not_true, Bool.false_eq_true, if_false]

/-- The oldest command that can be dispatched leaves its ring and runs, and the next one is fetched. -/
theorem dispatchOp_takes {f : Fetched} {rest : List Fetched} (h : (s.ring r).fetched = f :: rest) (hd : s.canDispatch f.rc = true)
    (ht : s.tablesHold f.opc = false) :
    dispatchOp r s = ((s.setRing r fun q => { q with fetched := rest }).runFetched f).fetchNext r := by
  simp only [dispatchOp, hl, h, hd, ht, Bool.not_true, Bool.or_false, Bool.false_eq_true, if_false]

/-- One that cannot be dispatched, or that a copy holds back, stays. -/
theorem dispatchOp_keeps {f : Fetched} {rest : List Fetched} (h : (s.ring r).fetched = f :: rest)
    (hk : s.canDispatch f.rc = false ∨ s.tablesHold f.opc = true) : dispatchOp r s = s := by
  have hkept : (!s.canDispatch f.rc || s.tablesHold f.opc) = true := by simpa using hk
  simp only [dispatchOp, hl, h, hkept, Bool.not_true, Bool.false_eq_true, if_false, if_true]

end

/-- Settles O22: the ring is empty, or its oldest command is taken, valid or not, or it is kept. -/
theorem dispatchTakesTheOldest : Obligations.DispatchTakesTheOldest := by
  unfold Obligations.DispatchTakesTheOldest
  intro s r hl
  simp only [exec_descriptorDispatch]
  refine ⟨fun h => ?_, fun f rest h hd ht => ⟨fun hc => ?_, fun i hc => ?_⟩, fun f rest h hk => ?_⟩
  · rw [dispatchOp_empty hl h]
  · rw [dispatchOp_takes hl h hd ht, State.runFetched_invalid hc]
  · rw [dispatchOp_takes hl h hd ht, State.runFetched_valid hc]
  · rw [dispatchOp_keeps hl h hk]

end Sys2Proof.Machine
end

section
/-! SUPPORT. The chunks of the long operations and the end of a context's transfer, with the statement that it settles (10 R251, R256,
R260, 11 R279, R281, R282, 12 R306, R308, 14 R346). -/

namespace Sys2Proof.Machine

/-- A ring and TAG that name no operation have no chunk and no transfer. -/
theorem chunkOps_none {s : State} {ring tag : Nat} (h : s.findTag ring tag = none) :
    copyChunkOp ring tag s = s ∧ skimChunkOp ring tag s = s ∧ contextTransferOp ring tag s = s := by
  simp only [copyChunkOp, skimChunkOp, contextTransferOp, h, and_self]

section
variable {s : State} {ring tag : Nat} {o : Op} (ho : s.findTag ring tag = some o)
include ho

/-! ## Chunks of a copy or fill (R251, R260, R308, R346) -/

/-- An operation that is suspended, waits for host lines or for its writes, or is held back by a change of the tables has no chunk. -/
theorem copyChunkOp_held (h : o.state = .suspended ∨ o.waitFor ≠ [] ∨ s.writesDone o = false ∨ s.tablesChange = true) :
    copyChunkOp ring tag s = s := by
  have hheld : o.state = .suspended ∨ (!o.waitFor.isEmpty) = true ∨ (!s.writesDone o) = true ∨ s.tablesChange = true := by
    simpa using h
  simp only [copyChunkOp, ho]
  exact if_pos hheld

section
variable (hs : o.state ≠ .suspended) (hw : o.waitFor = []) (hd : s.writesDone o = true) (ht : s.tablesChange = false)
include hs hw hd ht

/-- One that met a fenced reply ends at its chunk. -/
theorem copyChunkOp_fenced (he : o.endWith = some stFenced) : copyChunkOp ring tag s = s.endOp o stFenced := by
  simp [copyChunkOp, ho, hs, hw, hd, ht, he]

variable (he : o.endWith ≠ some stFenced)
include he

/-- The chunk of a copy that nothing holds back. -/
theorem copyChunkOp_copy {c : CopyOp} (hb : o.body = .copy c) : copyChunkOp ring tag s =
    if c.src = [] ∨ c.dst = [] ∨ s.ladleWaits o = true ∨ (o.opc ≠ 0x10 ∧ c.inHost = true ∧ c.haveLst = false) then s else
    if 40 ≤ c.ladle then s.scatterLadle o c else
    s.copyChunk { o with state := if o.state = .queued then .running else o.state } c := by
  simp [copyChunkOp, ho, hs, hw, hd, ht, he, hb]

/-- The chunk of a fill that nothing holds back. -/
theorem copyChunkOp_fill {f : FillOp} (hb : o.body = .fill f) : copyChunkOp ring tag s =
    if f.dst = [] ∨ 40 ≤ f.ladle ∨ s.ladleWaits o = true then s else
    s.fillChunk { o with state := if o.state = .queued then .running else o.state } f := by
  simp [copyChunkOp, ho, hs, hw, hd, ht, he, hb]

end

/-! ## Chunks of a skim (R281, R282, R346) -/

section
variable {k : SkimOp} (hb : o.body = .skim k)
include hb

/-- A suspended skim, and one that writes its summary, has no chunk. -/
theorem skimChunkOp_held (h : o.state = .suspended ∨ k.ending ≠ none) : skimChunkOp ring tag s = s := by
  have hheld : o.state = .suspended ∨ k.ending.isSome = true := by simpa [Option.isSome_iff_ne_none] using h
  simp only [skimChunkOp, ho, hb]
  exact if_pos hheld

variable (hs : o.state ≠ .suspended) (hk : k.ending = none)
include hs hk

/-- A chunk that met a fenced reply, or meets one now, ends the skim. -/
theorem skimChunkOp_fenced
    (h : o.endWith = some stFenced ∨ s.skimFenced k (k.base + k.pos) (min skimChunk (k.length - k.pos)) = true) :
    skimChunkOp ring tag s = s.endOp o stFenced := by
  have hrun : ¬ (o.state = .suspended ∨ k.ending.isSome = true) := by simp [hs, hk]
  simp only [skimChunkOp, ho, hb, if_neg hrun]
  by_cases he : o.endWith = some stFenced
  · rw [if_pos he]
  · rw [if_neg he, if_pos (h.resolve_left he)]

/-- Any other chunk is read and counted, and its boundary follows. -/
theorem skimChunkOp_reads (he : o.endWith ≠ some stFenced)
    (hf : s.skimFenced k (k.base + k.pos) (min skimChunk (k.length - k.pos)) = false) :
    skimChunkOp ring tag s =
      (let n := min skimChunk (k.length - k.pos)
       let r := s.skimRange k (k.base + k.pos) n
       let k' : SkimOp := { r.1 with pos := r.1.pos + n, chunks := r.1.chunks + 1, noSram := r.2.running }
       let o' : Op := { o with body := .skim k' }
       ((r.2.setRegs fun g => { g with skimChunks := k'.chunks }).setOp o').chunkBoundary o' (decide (k'.length ≤ k'.pos))) := by
  have hrun : ¬ (o.state = .suspended ∨ k.ending.isSome = true) := by simp [hs, hk]
  simp only [skimChunkOp, ho, hb, if_neg hrun, if_neg he, hf, Bool.false_eq_true, if_false]

end

/-! ## The transfer of a context (R279, R290, R306) -/

section
variable {c : CtxOp} (hb : o.body = .context c)
include hb

/-- While the image is under way, or a host line is, nothing happens. -/
theorem contextTransferOp_waits (h : c.done = false ∨ o.waitFor ≠ []) : contextTransferOp ring tag s = s := by
  have hwait : (!c.done) = true ∨ (!o.waitFor.isEmpty) = true := by simpa using h
  simp only [contextTransferOp, ho, hb]
  exact if_pos hwait

variable (hd : c.done = true) (hw : o.waitFor = [])
include hd hw

/-- A saved image completes its command; in device memory it is written first, with its words poisoned that were not usable. -/
theorem contextTransferOp_save (hc : c.save = true) : contextTransferOp ring tag s =
    (if c.host then s else c.bad.foldl (fun w i => w.poison (c.area + i)) (s.writeMem c.area c.image).2).finishOp o stOk
      c.image.length 0 := by
  simp [contextTransferOp, ho, hb, hd, hw, hc]

section
variable (hc : c.save = false)
include hc

/-- A restore under a RUN_HEATS operation is refused. -/
theorem contextTransferOp_restore_running (hr : s.running = true) : contextTransferOp ring tag s = s.finishOp o stConfig 0 0 := by
  simp [contextTransferOp, ho, hb, hd, hw, hc, hr]

variable (hr : s.running = false)
include hr

/-- A restore calls back the host's lines of the plan regions first. -/
theorem contextTransferOp_restore_lines (hl : s.planLines ≠ []) : contextTransferOp ring tag s = s.waitLines o s.planLines := by
  simp [contextTransferOp, ho, hb, hd, hw, hc, hr, hl]

variable (hl : s.planLines = [])
include hl

/-- An image from host memory is restored under the pattern, or refused without one. -/
theorem contextTransferOp_restore_host (hh : c.host = true) : contextTransferOp ring tag s =
    s.heat.pattern.elim (s.finishOp o stConfig 0 0) fun p => s.restoreImage o p c.image [] := by
  cases hp : s.heat.pattern <;> simp [contextTransferOp, ho, hb, hd, hw, hc, hr, hl, hh, hp]

/-- One from device memory is read there first. -/
theorem contextTransferOp_restore_device (hh : c.host = false) : contextTransferOp ring tag s =
    (let r := s.readMem c.area c.length
     r.2.heat.pattern.elim (r.2.finishOp o stConfig 0 0) fun p =>
       r.2.restoreImage o p r.1.bytes (trueAt (s.badAt true c.area c.length))) := by
  cases hp : (s.readMem c.area c.length).2.heat.pattern <;> simp [contextTransferOp, ho, hb, hd, hw, hc, hr, hl, hh, hp]

end
end
end

/-! ## Chunk boundaries (R256, R308) -/

section
variable {o : Op}

/-- An operation that is to end with a status ends with it at the boundary. -/
theorem State.chunkBoundary_endWith (w : State) (done : Bool) {st : Nat} (h : o.endWith = some st) :
    w.chunkBoundary o done = w.endOp o st := by
  simp only [State.chunkBoundary, h]

variable (he : o.endWith = none)
include he

/-- A cancelled one ends there. -/
theorem State.chunkBoundary_cancel (w : State) (done : Bool) (hc : o.cancel = true) :
    w.chunkBoundary o done = w.endOp o stCancelled := by
  simp only [State.chunkBoundary, he, hc, if_true]

variable (hc : o.cancel = false)
include hc

/-- One that has done everything completes. -/
theorem State.chunkBoundary_done (w : State) : w.chunkBoundary o true = w.endOp o stOk := by
  simp only [State.chunkBoundary, he, hc, Bool.false_eq_true, if_false, if_true]

/-- Any other goes on while it runs. -/
theorem State.chunkBoundary_goesOn (w : State) (hs : o.state = .running) : w.chunkBoundary o false = w.setOp o := by
  simp [State.chunkBoundary, he, hc, hs]

end

/-- Settles O59: no operation, no chunk; else each command's gates decide which of its cases holds, and a boundary ends the operation
or lets it go on. -/
theorem chunksMoveOperationsOn : Obligations.ChunksMoveOperationsOn := by
  unfold Obligations.ChunksMoveOperationsOn
  simp only [exec_copyChunkDone, exec_skimChunkDone, exec_contextTransferDone]
  refine ⟨fun s ring tag h => ?_, fun s ring tag o ho => ⟨fun hs hw hd ht => ⟨fun he => ?_, fun he => ?_⟩, fun h => ?_,
    fun k hb h => ?_, fun k hb hs hk => ⟨fun he hf => ?_, fun h => ?_⟩,
    fun w st he => State.chunkBoundary_endWith w true he, fun w he hc => State.chunkBoundary_cancel he w true hc,
    fun w he hc => State.chunkBoundary_done he hc w, fun w he hc hs => State.chunkBoundary_goesOn he hc w hs,
    fun c hb h => ?_, fun c hb hd hw hc => ?_, fun c hb hd hw hc hr hl => ?_, fun c hb hd hw hc hr => ?_,
    fun c hb hd hw hc hr hl => ?_⟩⟩
  · obtain ⟨hcopy, hskim, hcontext⟩ := chunkOps_none h
    rw [hcopy, hskim, hcontext]
    exact ⟨rfl, rfl, rfl⟩
  · rw [copyChunkOp_fenced ho hs hw hd ht he]
  · -- nothing holds the operation back: its body decides
    refine ⟨fun c hb hsrc hdst hladle hlist => ?_, fun c hb h => ?_, fun f hb hdst hl hladle => ?_, fun f hb h => ?_⟩
    · have hgo : ¬ (c.src = [] ∨ c.dst = [] ∨ s.ladleWaits o = true ∨ (o.opc ≠ 0x10 ∧ c.inHost = true ∧ c.haveLst = false)) := by
        simp only [hsrc, hdst, hladle, Bool.false_eq_true, false_or]
        rintro ⟨hopc, hhost, hlst⟩
        simp [hopc, hhost, hlst] at hlist
      rw [copyChunkOp_copy ho hs hw hd ht he hb, if_neg hgo]
      exact ⟨fun hl => by rw [if_neg (Nat.not_le.mpr hl)], fun hl => by rw [if_pos hl]⟩
    · rw [copyChunkOp_copy ho hs hw hd ht he hb, if_pos h]
    · have hgo : ¬ (f.dst = [] ∨ 40 ≤ f.ladle ∨ s.ladleWaits o = true) := by
        simp [hdst, hladle, hl]
      rw [copyChunkOp_fill ho hs hw hd ht he hb, if_neg hgo]
    · rw [copyChunkOp_fill ho hs hw hd ht he hb, if_pos h]
  · rw [copyChunkOp_held ho h]
  · rw [skimChunkOp_held ho hb h]
  · rw [skimChunkOp_reads ho hb hs hk he hf]
    rfl
  · rw [skimChunkOp_fenced ho hb hs hk h]
  · rw [contextTransferOp_waits ho hb h]
  · rw [contextTransferOp_save ho hb hd hw hc]
  · -- a restore that runs: from host memory or from the device, under a pattern or without one
    refine ⟨fun p hh hp => ?_, fun p hh hp => ?_, fun hh hp => ?_, fun hh hp => ?_⟩
    · rw [contextTransferOp_restore_host ho hb hd hw hc hr hl hh, hp, Option.elim_some]
    · simp only [contextTransferOp_restore_device ho hb hd hw hc hr hl hh, hp, Option.elim_some]
    · rw [contextTransferOp_restore_host ho hb hd hw hc hr hl hh, hp, Option.elim_none]
    · simp only [contextTransferOp_restore_device ho hb hd hw hc hr hl hh, hp, Option.elim_none]
  · rw [contextTransferOp_restore_running ho hb hd hw hc hr]
  · rw [contextTransferOp_restore_lines ho hb hd hw hc hr hl]

end Sys2Proof.Machine
end

section
/-! SUPPORT. Memory at large: its canonical form through every step, what it holds after reset, and bytes that read back, with the
statements that it settles (11 R262, R280). -/

namespace Sys2Proof.Machine

/-! ## The canonical form through a step (R280) -/

/-- What a command leaves is canonical where its effect is: nothing due at its end breaks the form. -/
theorem canonical_of_effect {i : Instr} {s t x : State} (hi : exec i s = .next (s.done x)) (hx : x.mem.wf = true)
    (h : exec i s = .next t) : t.mem.wf = true := by
  obtain rfl : s.done x = t := by simpa using hi.symm.trans h
  exact State.done_keep s x hx

/-- Every command keeps the canonical form: a ring command through its submission, POWER_ON unless it stops the model, and each other
command by its operation. -/
theorem exec_keep {i : Instr} {s t : State} (hm : s.mem.wf = true) (h : exec i s = .next t) : t.mem.wf = true := by
  cases i
  case nop | loadPattern | bindTensors | runHeats | suspend | resume | cancel | saveContext | restoreContext | copy | gather | scatter |
      fill | skim | fenceUnit | query | setSeverity | ackEvent | fleetJoin | fleetLeave =>
    exact canonical_of_effect (exec_ring _ _ _ s rfl rfl) (State.submit_keep _ _ _ _ hm) h
  case powerOn v =>
    by_cases hv : v ≤ 600
    · exact canonical_of_effect (exec_powerOn s v hv) (by simp [hm]) h
    · rw [exec_powerOn_above s v (by omega)] at h
      cases h
  case splitWrite => exact canonical_of_effect (exec_splitWrite s) (State.onBar_keep s _ State.splitGo_keep hm) h
  all_goals exact canonical_of_effect rfl (by simp [hm]) h

/-- Settles O6: an empty queue changes nothing, and the command at the front keeps the form. -/
theorem memoryStaysCanonical : Obligations.MemoryStaysCanonical := by
  intro s t hm h
  cases hp : s.pending with
  | nil =>
    obtain rfl : s = t := by simpa [step, hp] using h
    exact hm
  | cons c rest =>
    simp only [step, hp] at h
    exact exec_keep (s := { s with pending := rest }) hm h

/-! ## Bytes that read back (R262) -/

theorem cellRead_set (cs : List Host.Cell) (a : Nat) (bs : List Byte) : cellRead (cellSet cs a bs) a bs.length = bs := by
  rw [cellRead_eq]
  refine List.ext_getElem (by simp) fun i _ hi => ?_
  simp [cellGet_set cs a bs i hi]

theorem cellRead_set_other (cs : List Host.Cell) (a : Nat) (bs : List Byte) {x n : Nat} (h : x + n ≤ a ∨ a + bs.length ≤ x) :
    cellRead (cellSet cs a bs) x n = cellRead cs x n := by
  rw [cellRead_eq, cellRead_eq]
  refine List.map_congr_left fun i hi => cellGet_set_other cs a bs (x + i) ?_
  have := List.mem_range.1 hi
  omega

/-- A write of no bytes changes nothing, and any other one sets its cells. -/
theorem State.poke_cells (s : State) (a : Nat) (bs : List Byte) :
    ∃ m, s.poke a bs = { s with mem := m } ∧ (bs = [] ∧ m = s.mem ∨ m.cells = cellSet s.mem.cells a bs) := by
  cases bs with
  | nil => exact ⟨s.mem, rfl, .inl ⟨rfl, rfl⟩⟩
  | cons b bs => exact ⟨_, rfl, .inr rfl⟩

/-- A state with another memory differs in its memory alone. -/
theorem sameBut_mem (s : State) (m : Mem) : sameBut [.mem] s { s with mem := m } := by
  intro p hp
  cases p
  case mem => exact absurd (List.mem_singleton.2 rfl) hp
  all_goals rfl

/-- Settles O46: an empty write is no write, and any other one is read back cell by cell. -/
theorem storedBytesReadBack : Obligations.StoredBytesReadBack := by
  intro s a bs
  obtain ⟨m, hpoke, hcells⟩ := s.poke_cells a bs
  rw [hpoke]
  refine ⟨?_, fun x n hx => ?_, sameBut_mem s m⟩
  · rcases hcells with ⟨rfl, -⟩ | hcells
    · rfl
    · simp only [State.peek, hcells, cellRead_set]
  · rcases hcells with ⟨-, rfl⟩ | hcells
    · rfl
    · simp only [State.peek, hcells, cellRead_set_other _ _ _ hx]

/-! ## After reset (R280) -/

/-- Settles O7: reset memory lists nothing, and an unlisted byte reads 0. -/
theorem resetMemoryReadsZero : Obligations.ResetMemoryReadsZero := by
  refine ⟨mem0_wf, fun a n => ?_⟩
  show cellRead [] a n = zeros n
  simp [cellRead_eq, cellGet, zeros]

end Sys2Proof.Machine
end

section
/-! SUPPORT. The split-write test: the word and the check byte that it stores, and its refusals, with the statement that it settles (11
R284, 15 R387, 16 R412). -/

namespace Sys2Proof.Machine

/-! ## Deviations of check bytes by word (log 10) -/

/-- Entries that lack the key do not answer for it. -/
theorem look_append_right {l : List (Nat × Nat)} (r : List (Nat × Nat)) {k : Nat} (h : ∀ e ∈ l, e.1 ≠ k) :
    look 0 (l ++ r) k = look 0 r k := by
  have hnone : l.find? (fun e => e.1 = k) = none := by simpa using h
  simp [look, List.find?_append, hnone]

theorem look_append_left (l : List (Nat × Nat)) {r : List (Nat × Nat)} {k : Nat} (h : ∀ e ∈ r, e.1 ≠ k) :
    look 0 (l ++ r) k = look 0 l k := by
  have hnone : r.find? (fun e => e.1 = k) = none := by simpa using h
  simp [look, List.find?_append, hnone]

theorem look_filter {l : List (Nat × Nat)} {p : Nat × Nat → Bool} {k : Nat} (h : ∀ e : Nat × Nat, e.1 = k → p e = true) :
    look 0 (l.filter p) k = look 0 l k := by
  have hfind : (l.filter p).find? (fun e => e.1 = k) = l.find? (fun e => e.1 = k) := by
    rw [List.find?_filter]
    congr 1
    funext e
    by_cases he : e.1 = k <;> simp [he, h]
  simp only [look, hfind]

theorem lt_of_mem_below {l : List (Nat × Nat)} {w : Nat} {e : Nat × Nat} (he : e ∈ l.filter fun e => decide (e.1 < w)) : e.1 < w := by
  simpa using (List.mem_filter.1 he).2

theorem gt_of_mem_above {l : List (Nat × Nat)} {w : Nat} {e : Nat × Nat} (he : e ∈ l.filter fun e => decide (w < e.1)) : w < e.1 := by
  simpa using (List.mem_filter.1 he).2

theorem look_syndSet_same (l : List (Nat × Nat)) (w S : Nat) : look 0 (syndSet l w S) w = S := by
  rw [syndSet, look_append_left _ fun e he => (gt_of_mem_above he).ne', look_append_right _ fun e he => (lt_of_mem_below he).ne]
  split <;> simp_all [look]

theorem look_syndSet_other (l : List (Nat × Nat)) {w k : Nat} (S : Nat) (h : k ≠ w) : look 0 (syndSet l w S) k = look 0 l k := by
  have hown : ∀ e ∈ (if S = 0 then [] else [(w, S)]), e.1 ≠ k := by
    split <;> simp [Ne.symm h]
  rw [syndSet]
  rcases Nat.lt_or_gt_of_ne h with hlt | hgt
  · rw [look_append_left _ fun e he => (hlt.trans (gt_of_mem_above he)).ne', look_append_left _ hown, look_filter]
    rintro e rfl; simpa using hlt
  · rw [List.append_assoc, look_append_right _ fun e he => ((lt_of_mem_below he).trans hgt).ne, look_append_right _ hown, look_filter]
    rintro e rfl; simpa using hgt

/-- A word with a valid check byte is not listed. -/
theorem syndSet_zero_not_mem (l : List (Nat × Nat)) (w S : Nat) : (w, 0) ∉ syndSet l w S := by
  by_cases hS : S = 0 <;> simp [syndSet, hS, Ne.symm]

/-! ## A word under a chosen check byte (R284) -/

/-- Memory with a word at its address, whose check byte differs from its own as given. -/
def Mem.storeWord (m : Mem) (a d dev : Nat) : Mem :=
  { m with
    cells := cellSet m.cells a (natLe 8 d),
    synd := syndSet (m.synd.filter fun e => !(decide (a / 8 ≤ e.1) && decide (e.1 < (a + 8 + 7) / 8))) (a / 8) dev }

theorem Mem.storeWord_read (m : Mem) (a d dev : Nat) : cellRead (m.storeWord a d dev).cells a 8 = natLe 8 d :=
  cellRead_set m.cells a (natLe 8 d)

theorem Mem.storeWord_read_other (m : Mem) {a d dev x n : Nat} (h : x + n ≤ a ∨ a + 8 ≤ x) :
    cellRead (m.storeWord a d dev).cells x n = cellRead m.cells x n :=
  cellRead_set_other m.cells a (natLe 8 d) h

theorem Mem.storeWord_syndrome (m : Mem) (a d dev : Nat) : (m.storeWord a d dev).syndrome a = dev := look_syndSet_same _ _ _

theorem Mem.storeWord_syndrome_other (m : Mem) {a d dev x : Nat} (ha : a % 8 = 0) (h : x / 8 ≠ a / 8) :
    (m.storeWord a d dev).syndrome x = m.syndrome x := by
  refine (look_syndSet_other _ dev h).trans (look_filter ?_)
  intro e he
  simp
  omega

/-! ## SPLIT_WRITE (R284, R387, R412) -/

/-- The audit entry of an attempt, with its status (R387). -/
def State.splitAudited (s : State) (st : Nat) (w : State) : State :=
  w.auditAppend 0x18 s.mbx.session st s.mbx.sessionKey (natLe 8 s.regs.splitA ++ natLe 8 s.regs.splitA2 ++ natLe 1 s.regs.splitX)

section
variable {s : State} (hf : s.audit.flashOk = true)
include hf

/-- Under too low a role an attempt is refused. -/
theorem State.splitGo_rights (hrole : s.mbx.session < 2) :
    s.splitGo = s.splitAudited stRights { s with regs := { s.regs with splitStatus := stRights } } := by
  simp [State.splitGo, State.splitAudited, hf, hrole, State.setRegs, show stRights ≠ stOk by decide]

variable (hrole : 2 ≤ s.mbx.session)
include hrole

/-- Under a RUN_HEATS operation it is refused. -/
theorem State.splitGo_running (hrun : s.running = true) :
    s.splitGo = s.splitAudited stConfig { s with regs := { s.regs with splitStatus := stConfig } } := by
  simp [State.splitGo, State.splitAudited, hf, Nat.not_lt.mpr hrole, hrun, State.setRegs, show stConfig ≠ stOk by decide]

variable (hrun : s.running = false)
include hrun

/-- An address that is not that of a populated word is refused. -/
theorem State.splitGo_invalid (hbad : s.regs.splitA % 8 ≠ 0 ∨ s.regs.splitA2 % 8 ≠ 0 ∨ s.populated s.regs.splitA = false ∨
      s.populated s.regs.splitA2 = false) :
    s.splitGo = s.splitAudited stInvalid { s with regs := { s.regs with splitStatus := stInvalid } } := by
  rcases hbad with h | h | h | h <;>
    simp [State.splitGo, State.splitAudited, hf, Nat.not_lt.mpr hrole, hrun, h, State.setRegs, show stInvalid ≠ stOk by decide]

/-- Any other attempt stores its word and counts. -/
theorem State.splitGo_allowed {l l2 : Loc} (ha : s.regs.splitA % 8 = 0) (ha2 : s.regs.splitA2 % 8 = 0)
    (hp : s.populated s.regs.splitA = true) (hp2 : s.populated s.regs.splitA2 = true) (hl : s.locate s.regs.splitA = some l)
    (hl2 : s.locate s.regs.splitA2 = some l2) :
    s.splitGo = s.splitAudited stOk { s with
      mem := s.mem.storeWord s.regs.splitA s.regs.splitD
        (foldCheck s.regs.splitD l.loc ^^^ foldCheck s.regs.splitD2 l2.loc ^^^ s.regs.splitX),
      regs := { s.regs with splitDone := (s.regs.splitDone + 1) % 2 ^ 32, splitStatus := stOk } } := by
  simp [State.splitGo, Nat.not_lt.mpr hrole, hf, hrun, ha, ha2, hp, hp2, hl, hl2]
  rfl

end

/-- Settles O45: an allowed attempt stores its word, and each refusal leaves its status alone. -/
theorem splitWriteStoresTheChosenCheck : Obligations.SplitWriteStoresTheChosenCheck := by
  intro s hbar hf r logged ends
  rw [exec_splitWrite, onBar_live s _ hbar]
  refine ⟨fun l l2 hrole hrun ha ha2 hp hp2 hl hl2 => ?_, fun hrole => ?_, fun hrole hrun => ?_, fun hrole hrun hbad => ?_⟩
  · refine ⟨_, ?_, Mem.storeWord_read _ _ _ _, syndSet_zero_not_mem _ _ _, Mem.storeWord_syndrome _ _ _ _,
      fun a n h => Mem.storeWord_read_other _ h, fun a h => Mem.storeWord_syndrome_other _ ha h, rfl⟩
    rw [State.splitGo_allowed hf hrole hrun ha ha2 hp hp2 hl hl2]; rfl
  · rw [State.splitGo_rights hf hrole]; rfl
  · rw [State.splitGo_running hf hrole hrun]; rfl
  · rw [State.splitGo_invalid hf hrole hrun hbad]; rfl

end Sys2Proof.Machine
end

section
/-! SUPPORT. The folded code: what a read makes of a syndrome, and the syndromes of errors of one bit and of two, with the statement that
it settles (11 R275 to R277). -/

namespace Sys2Proof.Machine

/-! ## The columns (R276) -/

theorem classify_dataColumn : ∀ i < 64, classify (nth dataColumns i) = .fixedData i := by decide +kernel

theorem classify_locColumn : ∀ k < 40, classify (nth locColumns k) = .addrFault k := by decide +kernel

theorem dataColumn_odd : ∀ i < 64, byteWeight (nth dataColumns i) % 2 = 1 := by decide +kernel

/-- Two data bits have two columns: a syndrome names one bit. -/
theorem dataColumn_ne {i j : Nat} (hi : i < 64) (hj : j < 64) (h : i ≠ j) : nth dataColumns i ≠ nth dataColumns j := by
  intro e
  have hfound : Found.fixedData i = .fixedData j := by rw [← classify_dataColumn i hi, e, classify_dataColumn j hj]
  exact h (Found.fixedData.inj hfound)

theorem byteWeight_one : ∀ S < 256, byteWeight S = 1 → ∃ i < 8, S = 2 ^ i := by decide +kernel

/-- Weights add up modulo 2 under XOR. -/
theorem byteWeight_xor (a b : Nat) : byteWeight (a ^^^ b) % 2 = (byteWeight a + byteWeight b) % 2 := by
  simp only [byteWeight, Nat.testBit_xor]
  induction List.range 8 with
  | nil => rfl
  | cons i l ih =>
    simp only [List.filter_cons]
    cases a.testBit i <;> cases b.testBit i <;> simp <;> omega

/-! ## Rows of R277 -/

/-- A column that is not listed is not found. -/
theorem findIdx_none {l : List Nat} {S : Nat} (h : S ∉ l) : l.findIdx? (· == S) = none := by
  simp only [List.findIdx?_eq_none_iff, beq_eq_false_iff_ne]
  rintro x hx rfl
  exact h hx

theorem classify_odd {S : Nat} (hS : S < 256) (hodd : byteWeight S % 2 = 1) (hdata : S ∉ dataColumns) (hcheck : ∀ i < 8, S ≠ 2 ^ i) :
    classify S = .bad := by
  have hzero : S ≠ 0 := by rintro rfl; cases hodd
  have hone : byteWeight S ≠ 1 := fun h => by
    obtain ⟨i, hi, e⟩ := byteWeight_one S hS h
    exact hcheck i hi e
  simp [classify, hzero, hodd, hone, findIdx_none hdata]

theorem classify_even {S : Nat} (heven : byteWeight S % 2 = 0) (hzero : S ≠ 0) (hpoison : S ≠ 0xFF) (hloc : S ∉ locColumns) :
    classify S = .bad := by
  simp [classify, heven, hzero, hpoison, findIdx_none hloc]

/-- No syndrome of even weight but 0 is one that a read corrects. -/
theorem classify_even_unusable {S : Nat} (heven : byteWeight S % 2 = 0) (hzero : S ≠ 0) : (classify S).usable = false := by
  have hodd : ¬ byteWeight S % 2 = 1 := by omega
  rw [classify, if_neg hzero, if_neg hodd]
  split
  · rfl
  · split <;> rfl

/-! ## The check byte is linear (R276) -/

/-- A fold of the columns that a test picks adds them to its start. -/
theorem foldl_xor_start (p : Nat → Bool) (l : List (Nat × Nat)) (x : Nat) :
    l.foldl (fun acc e => if p e.1 then acc ^^^ e.2 else acc) x = x ^^^ l.foldl (fun acc e => if p e.1 then acc ^^^ e.2 else acc) 0 := by
  induction l generalizing x with
  | nil => simp
  | cons e l ih =>
    simp only [List.foldl_cons]
    rw [ih, ih (if p e.1 then 0 ^^^ e.2 else 0)]
    cases p e.1 <;> simp [Nat.xor_assoc]

theorem foldCols_xor (cols : List Nat) (v w : Nat) : foldCols cols (v ^^^ w) = foldCols cols v ^^^ foldCols cols w := by
  unfold foldCols
  induction (List.range cols.length).zip cols with
  | nil => simp
  | cons e l ih =>
    simp only [List.foldl_cons]
    rw [foldl_xor_start, foldl_xor_start v.testBit, foldl_xor_start w.testBit, ih, Nat.testBit_xor]
    cases v.testBit e.1 <;> cases w.testBit e.1 <;> simp [Nat.xor_assoc, Nat.xor_left_comm]

theorem foldCols_dataBit : ∀ i < 64, foldCols dataColumns (2 ^ i) = nth dataColumns i := by decide +kernel

theorem foldCols_locBit : ∀ k < 40, foldCols locColumns (2 ^ k) = nth locColumns k := by decide +kernel

/-- The syndrome of a word with wrong data is the check byte of the error. -/
theorem syndrome_data (d e l : Nat) : foldCheck (d ^^^ e) l ^^^ foldCheck d l = foldCols dataColumns e := by
  rw [foldCheck, foldCheck, foldCols_xor, Nat.xor_right_comm (foldCols dataColumns d), Nat.xor_comm, Nat.xor_xor_cancel_left]

/-- The syndrome of a word at a wrong location is that of the location's error. -/
theorem syndrome_loc (d l e : Nat) : foldCheck d (l ^^^ e) ^^^ foldCheck d l = foldCols locColumns e := by
  rw [foldCheck, foldCheck, foldCols_xor, ← Nat.xor_assoc _ (foldCols locColumns l) (foldCols locColumns e), Nat.xor_comm, Nat.xor_xor_cancel_left]

/-! ## Reads -/

/-- A read finds what its syndrome says. -/
theorem Mem.readWord_found (m : Mem) (a : Nat) : (m.readWord a).2 = classify (m.syndrome a) := by
  unfold Mem.readWord
  split
  · rename_i h; exact h.symm
  · rfl

/-- A wrong data bit is inverted. -/
theorem Mem.readWord_fixed {m : Mem} {a i : Nat} (h : classify (m.syndrome a) = .fixedData i) : (m.readWord a).1 = m.word a ^^^ 2 ^ i := by
  simp only [Mem.readWord, h]

/-- Settles O47: the rows of the table, the events of a located word, and the syndromes of one error and of two. -/
theorem readsClassifyTheirSyndrome : Obligations.ReadsClassifyTheirSyndrome := by
  refine ⟨fun S hS => ⟨?_, ?_, ?_, classify_odd hS, ?_, ?_, fun heven hzero hpoison hloc => classify_even heven hzero hpoison hloc⟩,
    fun s a l hl => ?_, fun d l => ⟨fun i hi => ?_, fun k hk => ?_, fun i hi j hj hij => ?_⟩⟩
  · rintro rfl; rfl
  · rintro i hi rfl; exact classify_dataColumn i hi
  · rintro i hi rfl; revert i; decide
  · rintro rfl; decide +kernel
  · rintro k hk rfl; exact classify_locColumn k hk
  · refine ⟨fun f hf => hf ▸ s.mem.readWord_found a, fun i hi => Mem.readWord_fixed hi, ?_⟩
    simp [State.eccEvent, hl]
  · rw [syndrome_data, foldCols_dataBit i hi, classify_dataColumn i hi]
  · rw [syndrome_loc, foldCols_locBit k hk, classify_locColumn k hk]
  · rw [Nat.xor_assoc, syndrome_data, foldCols_xor, foldCols_dataBit i hi, foldCols_dataBit j hj]
    refine classify_even_unusable ?_ ?_
    · have := dataColumn_odd i hi
      have := dataColumn_odd j hj
      rw [byteWeight_xor]
      omega
    · simpa [Nat.xor_eq_zero_iff] using dataColumn_ne hi hj hij

end Sys2Proof.Machine
end

section
/-! SUPPORT. The stages of a start, with the statement that it settles (11 R268, R269, R280, 14 R344, 15 R370, R372 to R376). -/

namespace Sys2Proof.Machine

/-! ## What an event leaves of the boot record -/

/-- The boot record without what flash holds as sticky, which alone an event can add to. -/
def Boot.unsticky (b : Boot) : Boot := { b with stickyFences := [], stickyFrames := [] }

@[simp] theorem State.recordSticky_unsticky (s : State) (u : Nat) : (s.recordSticky u).boot.unsticky = s.boot.unsticky := by
  unfold State.recordSticky; split <;> rfl

@[simp] theorem State.fenceMark_unsticky (s : State) (u cause : Nat) : (s.fenceMark u cause).boot.unsticky = s.boot.unsticky := by
  unfold State.fenceMark; split <;> simp

@[simp] theorem State.fenceStart_unsticky (s : State) (u cause : Nat) : (s.fenceStart u cause).boot.unsticky = s.boot.unsticky := by
  unfold State.fenceStart; dsimp only; (repeat' split) <;> simp

@[simp] theorem State.applyFences_unsticky (s : State) (l : List (Nat × Nat)) : (s.applyFences l).boot.unsticky = s.boot.unsticky :=
  foldl_inv (fun t => t.boot.unsticky = s.boot.unsticky) _ _ s rfl fun _ _ e => (State.fenceStart_unsticky _ _ _).trans e

@[simp] theorem State.endJob_unsticky (s : State) (status : Nat) : (s.endJob status).boot.unsticky = s.boot.unsticky := by
  unfold State.endJob; split
  · rfl
  · dsimp only; split <;> simp

@[simp] theorem State.degrade_unsticky (s : State) (t : Nat ⊕ Nat) : (s.degrade t).boot.unsticky = s.boot.unsticky := by
  unfold State.degrade; (repeat' split) <;> simp

@[simp] theorem State.haltJobs_unsticky (s : State) (unit seq : Nat) : (s.haltJobs unit seq).boot.unsticky = s.boot.unsticky := by
  unfold State.haltJobs; dsimp only; (repeat' split) <;> simp

@[simp] theorem State.react_unsticky (s : State) (level code unit data seq : Nat) :
    (s.react level code unit data seq).boot.unsticky = s.boot.unsticky := by
  unfold State.react; (repeat' split) <;> simp

@[simp] theorem State.reactTo_unsticky (s : State) (e : EventRec) (data : Nat) : (s.reactTo e data).boot.unsticky = s.boot.unsticky := by
  unfold State.reactTo; dsimp only; split <;> simp

@[simp] theorem State.raise_unsticky (s : State) (code unit layer data : Nat) :
    (s.raise code unit layer data).boot.unsticky = s.boot.unsticky := by
  unfold State.raise State.raiseN State.raiseWith; dsimp only; (repeat' split) <;> simp

/-- READY clears the start-failure counter and is the last stage (R372, R376). -/
theorem State.becomeReady_boot (s : State) :
    s.becomeReady.boot.startFail = 0 ∧ s.becomeReady.boot.stage = 7 ∧ s.becomeReady.boot.ready = true := by
  have h : s.becomeReady.boot.unsticky = Boot.unsticky { s.promote.boot with
      stage := 7, ready := true, startFail := 0, failedSinceReady := 0, trialInvalidated := false, slotFailedVerify := false } := by
    unfold State.becomeReady; dsimp only; split <;> simp
  exact ⟨congrArg Boot.startFail h, congrArg Boot.stage h, congrArg Boot.ready h⟩

/-! ## The stages (R372 to R374) -/

/-- Pokes leave the boot record, so bytes taken from it are the same at every one. -/
theorem foldl_poke_boot (f : Boot → List Byte) (a : Nat → Nat) (l : List Nat) (s : State) :
    l.foldl (fun v d => v.poke (a d) (f v.boot)) s = l.foldl (fun v d => v.poke (a d) (f s.boot)) s := by
  induction l generalizing s with
  | nil => rfl
  | cons d l ih => simp only [List.foldl_cons, ih, State.poke_boot]

/-- A stage that ends by its deadline has not run past it. -/
theorem pastDeadline_eq_false {stage ac : Nat} (h : ∀ d, stageDeadline stage = some d → ac ≤ d) : pastDeadline stage ac = false := by
  unfold pastDeadline
  split
  · rename_i d hd; simpa using h d hd
  · rfl

/-- The state in which a stage of that length ends: the start's clock has gone on. -/
def State.clocked (s : State) (ac : Nat) : State := { s with boot := { s.boot with timebase := (s.boot.timebase + ac) % 2 ^ 64 } }

/-- LINK's deadline does not run under PERST#. -/
theorem State.stageFailed_perst (s : State) (unit ac : Nat) (h6 : s.boot.stage = 6) (hp : s.pins.perst = false) :
    s.stageFailed 0x01 unit ac = s := by
  simp [State.stageFailed, h6, hp]

/-- When no die fails, the firmware lies in every live die, and the roots are set. -/
theorem State.endDies_nil (s : State) : s.endDies [] =
    (let live := (List.range 16).filter fun d => !s.fencedReg (dieUnit d)
     let v := live.foldl (fun v d => v.poke (firmwareBase d) (s.boot.dieFirmware.take (2 ^ 25))) s
     { v with
       boot := { s.boot with stage := 6 },
       regs := { s.regs with xlateRoot := (List.range 16).map fun d => if s.fencedReg (dieUnit d) then 0 else tableBase d } }) := by
  simp only [State.endDies]
  rw [foldl_poke_boot fun b => b.dieFirmware.take (2 ^ 25)]
  simp only [State.setRegs, foldl_boot _ _ _ fun _ _ => State.poke_boot _ _ _, foldl_regs _ _ _ fun _ _ => State.poke_regs _ _ _]

section
variable {s : State} {ac : Nat} (hstart : (!s.alive || s.inCrucible || s.boot.ready) = false)
include hstart

/-- A stage that ends past its deadline has failed there. -/
theorem State.stageDone_late (failed : List Nat) {d : Nat} (hd : stageDeadline s.boot.stage = some d) (h : d < ac) :
    s.stageDone failed ac = (s.clocked d).startFailed 0x01 noUnit := by
  have hpast : pastDeadline s.boot.stage ac = true := by simp [pastDeadline, hd, h]
  simp only [State.stageDone, hstart, hpast, hd, Bool.false_eq_true, if_false, if_true]
  rfl

/-- A stage fails with the cause and unit that are named, but for LINK under PERST#. -/
theorem State.stageFailed_fails {cause : Nat} (unit : Nat) (h : ¬ (s.boot.stage = 6 ∧ cause = 1 ∧ s.pins.perst = false)) :
    s.stageFailed cause unit ac = (s.clocked ac).startFailed cause unit := by
  have hperst : ¬ (s.boot.stage = 6 ∧ cause = 1 ∧ ¬ s.pins.perst) := by simpa using h
  simp only [State.stageFailed, hstart, if_neg hperst, Bool.false_eq_true, if_false]
  rfl

variable (htime : ∀ d, stageDeadline s.boot.stage = some d → ac ≤ d)
include htime

/-- By its deadline each stage comes to its own end. -/
theorem State.stageDone_inTime : let w := s.clocked ac
    (s.boot.stage = 1 → s.stageDone [] ac = State.emit { w with boot := { w.boot with stage := 2 } } (.uartStage 2)) ∧
    (s.boot.stage = 2 → s.stageDone [] ac = w.endVerify) ∧
    (s.boot.stage = 3 → ∀ failed, s.stageDone failed ac = w.endPrepare failed) ∧
    (s.boot.stage = 4 → s.stageDone [] ac = w.endFill ac) ∧
    (s.boot.stage = 5 → s.stageDone [] ac = w.endDies []) ∧
    (s.boot.stage = 6 → s.stageDone [] ac = if s.port.linkUp then w.becomeReady else w) := by
  simp only [State.stageDone, State.clocked, hstart, pastDeadline_eq_false htime, Bool.false_eq_true, if_false]
  exact ⟨fun h => by simp only [h]; rfl, fun h => by simp only [h], fun h failed => by simp only [h], fun h => by simp only [h]; rfl,
    fun h => by simp only [h], fun h => by simp only [h]⟩

/-- A unit that fails in ROM, FILL or DIES fails the start. -/
theorem State.stageDone_fails (unit : Nat) (h : s.boot.stage = 1 ∨ s.boot.stage = 4 ∨ s.boot.stage = 5) :
    s.stageDone [unit] ac = (s.clocked ac).startFailed 0x02 unit := by
  simp only [State.stageDone, State.clocked, hstart, pastDeadline_eq_false htime, Bool.false_eq_true, if_false]
  rcases h with h | h | h <;> simp [h, State.endDies]

end

/-- Settles O38, stage by stage; then its failures, and what READY leaves. -/
theorem startStagesInOrder : Obligations.StartStagesInOrder := by
  intro s ac ha hc hr w
  have hstart : (!s.alive || s.inCrucible || s.boot.ready) = false := by simp [ha, hc, hr]
  simp only [exec_startStageDone, exec_startStageTimeout]
  refine ⟨fun failed d hd h => ?_, ⟨rfl, rfl, rfl, rfl, rfl⟩, fun htime => ?_, fun cause unit h => ?_, fun unit h6 hp => ?_,
    w.becomeReady_boot⟩
  · rw [State.stageDone_late hstart failed hd h]; rfl
  · obtain ⟨hrom, hverify, hprepare, hfill, hdies, hlink⟩ := State.stageDone_inTime hstart htime
    refine ⟨fun h => ?_, fun h => ?_, fun failed h hl => ?_, fun failed h h40 h41 => ?_, fun h => ?_, fun h => ?_, fun h hl => ?_,
      fun h hl => ?_, fun unit h => ?_⟩
    · rw [hrom h]; rfl
    · rw [hverify h]; rfl
    · rw [hprepare h failed, State.endPrepare, if_neg hl]; rfl
    · rw [hprepare h failed, State.endPrepare, if_pos ⟨h40, h41⟩]; rfl
    · rw [hfill h]; rfl
    · rw [hdies h, State.endDies_nil]; rfl
    · rw [hlink h, if_pos hl]; rfl
    · rw [hlink h, if_neg (by simp [hl])]; rfl
    · rw [State.stageDone_fails hstart htime unit h]; rfl
  · rw [State.stageFailed_fails hstart unit h]; rfl
  · rw [s.stageFailed_perst unit ac h6 hp]

end Sys2Proof.Machine
end

section
/-! SUPPORT. Crossings that time out, with the statement that it settles (11 R271, R274, 14 R345, R346, R352, R355, 15 R389, 16 R418). -/

namespace Sys2Proof.Machine

/-- A unit whose clocks have stopped is gated (R345, R423). -/
theorem State.powerGate_stopped {s : State} {u : Nat} {f : Fencing} (hf : f ∈ s.fences.fencing) (hu : f.unit = u) (hs : f.stopped = true) :
    s.powerGate u = { s with fences := { s.fences with
      fencing := s.fences.fencing.filter fun f => f.unit ≠ u, fenced := addTo s.fences.fenced u } } := by
  have hany : (s.fences.fencing.any fun f => decide (f.unit = u) && f.stopped) = true :=
    List.any_eq_true.2 ⟨f, hf, by simp [hu, hs]⟩
  simp [State.powerGate, hany]

/-- A unit whose clocks run is not. -/
theorem State.powerGate_clocked {s : State} {u : Nat} (h : ∀ f ∈ s.fences.fencing, f.unit = u → f.stopped = false) :
    s.powerGate u = s := by
  have hany : (s.fences.fencing.any fun f => decide (f.unit = u) && f.stopped) = false := by simpa using h
  simp [State.powerGate, hany]

section
variable {s w : State} {r : Requester} {far : Nat} (source : Nat) (hr : s.fencedReply r = w)
include hr

/-- A crossing to a unit that is not fenced is dead from its time-out on, which is reported (R352). -/
theorem State.cdcTimeoutOp_dead (hf : w.fencedNow far = false) : s.cdcTimeoutOp source far r = State.raise
    { w with fences := { w.fences with cdcDead := addTo w.fences.cdcDead (source, far) } } evCdcTimeout far 0 (cdcData source true) := by
  simp [State.cdcTimeoutOp, hr, hf]

/-- Toward a fenced unit the requester gets the fenced reply alone (R345, R346). -/
theorem State.cdcTimeoutOp_fenced (hf : w.fencedNow far = true) (hrf : r ≠ .firmware) : s.cdcTimeoutOp source far r = w := by
  simp [State.cdcTimeoutOp, hr, hf, hrf]

end

/-- A time-out, by the reply that its requester takes: the dead crossing's, or the fenced unit's. -/
theorem exec_cdcTimeout {s w : State} {r : Requester} {far : Nat} (hr : s.fencedReply r = w) (source : Nat) :
    (w.fencedNow far = false → exec (.cdcHandshakeTimeout source far r) s = .next (s.done (State.raise
      { w with fences := { w.fences with cdcDead := addTo w.fences.cdcDead (source, far) } } evCdcTimeout far 0 (cdcData source true)))) ∧
    (w.fencedNow far = true → r ≠ .firmware → exec (.cdcHandshakeTimeout source far r) s = .next (s.done w)) := by
  rw [exec_cdcHandshakeTimeout]
  exact ⟨fun hf => by rw [State.cdcTimeoutOp_dead source hr hf], fun hf hrf => by rw [State.cdcTimeoutOp_fenced source hr hf hrf]⟩

/-- Settles O50: a fence's steps, and a time-out by what its requester makes of the reply. -/
theorem fencesAndCrossingsTakeTheirSteps : Obligations.FencesAndCrossingsTakeTheirSteps := by
  intro s t
  refine ⟨rfl, fun f hf hu hs => ?_, fun h => ?_, ⟨exec_cdcTimeout rfl, fun source hf => ?_, fun addr write => exec_cdcTimeout rfl,
    fun p d hr => exec_cdcTimeout ?_, fun p d hr => exec_cdcTimeout ?_, fun ring tag o ho => exec_cdcTimeout ?_,
    fun ring tag ho => exec_cdcTimeout ?_⟩, rfl, fun bank => rfl, fun bank => rfl, rfl⟩
  · rw [exec_fencePowerGate, State.powerGate_stopped hf hu hs]
  · rw [exec_fencePowerGate, State.powerGate_clocked h]
  · rw [exec_cdcHandshakeTimeout]
    simp [State.cdcTimeoutOp, State.fencedReply, hf]
  · simp [State.fencedReply, State.abandon, hr]
  · simp [State.fencedReply, State.abandon, hr]
  · simp only [State.fencedReply, ho]
  · simp only [State.fencedReply, ho]

end Sys2Proof.Machine
end

section
/-! SUPPORT. The descriptor of a ring command and its reading back, with the statement that it settles (12 R297 to R300, 13 R314). -/

namespace Sys2Proof.Machine

/-! ## Fields of a byte list -/

@[simp] theorem natLe_length (n v : Nat) : (natLe n v).length = n := by
  induction n generalizing v with
  | zero => rfl
  | succ n ih => simp [natLe, ih]

@[simp] theorem zeros_length (n : Nat) : (zeros n).length = n := List.length_replicate

@[simp] theorem bitByte_length (b : Bool) : (bitByte b).length = 1 := natLe_length 1 _

/-- The bytes of a number give it back modulo their range. -/
theorem leNat_natLe (n v : Nat) : leNat (natLe n v) = v % 256 ^ n := by
  induction n generalizing v with
  | zero => simp [natLe, leNat, Nat.mod_one]
  | succ n ih => simp only [natLe, leNat, ih, BitVec.toNat_ofNat, Nat.pow_succ', Nat.mod_mul (x := v) (a := 256), Nat.reducePow]

/-- The bytes of a number from one of them on are those of its higher part. -/
theorem drop_natLe (m k v : Nat) : (natLe m v).drop k = natLe (m - k) (v / 256 ^ k) := by
  induction k generalizing m v with
  | zero => simp
  | succ k ih =>
    cases m with
    | zero => simp [natLe]
    | succ m => rw [natLe, List.drop_succ_cons, ih, Nat.add_sub_add_right, Nat.div_div_eq_div_mul, ← Nat.pow_succ']

/-- The first bytes of a number are those of a shorter one. -/
theorem take_natLe {n m : Nat} (v : Nat) (h : n ≤ m) : (natLe m v).take n = natLe n v := by
  induction n generalizing m v with
  | zero => rfl
  | succ n ih =>
    cases m with
    | zero => omega
    | succ m => rw [natLe, natLe, List.take_succ_cons, ih _ (by omega)]

/-- A field that lies in the list is cut out of it. -/
theorem slice_eq_take {bs : List Byte} {off n : Nat} (h : off + n ≤ bs.length) : slice bs off n = (bs.drop off).take n := by
  have hn : min n (bs.length - off) = n := by omega
  simp [slice, zeros, hn]

/-- A field of the bytes of a number is a part of it. -/
theorem u_natLe {m off n : Nat} (v : Nat) (h : off + n ≤ m) : u (natLe m v) off n = v / 256 ^ off % 256 ^ n := by
  rw [u, slice_eq_take (by simpa using h), drop_natLe, take_natLe _ (by omega), leNat_natLe]

/-- A field behind the first part of a list is one of the rest. -/
theorem u_append_right {xs ys : List Byte} {off n : Nat} (h : xs.length ≤ off) : u (xs ++ ys) off n = u ys (off - xs.length) n := by
  simp [u, slice, List.drop_append, List.drop_eq_nil_of_le h]

/-- A field in the first part of a list is one of that part. -/
theorem u_append_left {xs ys : List Byte} {off n : Nat} (h : off + n ≤ xs.length) : u (xs ++ ys) off n = u xs off n := by
  rw [u, u, slice_eq_take (by simp; omega), slice_eq_take h, List.drop_append_of_le_length (by omega),
    List.take_append_of_le_length (by simp; omega)]

/-- A list that begins with a number gives it back as its first field. -/
theorem u_first {n v : Nat} (ys : List Byte) (h : v < 256 ^ n) : u (natLe n v ++ ys) 0 n = v := by
  rw [u_append_left (by simp), u_natLe _ (by simp), Nat.pow_zero, Nat.div_one, Nat.mod_eq_of_lt h]

/-- A list that is a number alone gives it back. -/
theorem u_whole {n v : Nat} (h : v < 256 ^ n) : u (natLe n v) 0 n = v := by
  simpa using u_first [] h

/-- A field behind a number of n bytes is one of what follows it. -/
theorem u_after {n off m v : Nat} {ys : List Byte} (h : n ≤ off) : u (natLe n v ++ ys) off m = u ys (off - n) m := by
  rw [u_append_right (by simpa using h), natLe_length]

/-- A field behind n zero bytes is one of what follows them. -/
theorem u_after_zeros {n off m : Nat} {ys : List Byte} (h : n ≤ off) : u (zeros n ++ ys) off m = u ys (off - n) m := by
  rw [u_append_right (by simpa using h), zeros_length]

/-! ## Reserved bytes (R300) -/

/-- Does each byte of a list that stands from an offset on lie in a field or read zero? -/
def reservedZero (used : List (Nat × Nat)) (off : Nat) (bs : List Byte) : Prop :=
  ∀ i < bs.length, (used.any fun f => decide (f.1 ≤ off + i) && decide (off + i < f.1 + f.2)) = true ∨ bs.getD i 0 = 0

theorem reservedZero_append (used : List (Nat × Nat)) (off : Nat) (xs ys : List Byte) :
    reservedZero used off (xs ++ ys) ↔ reservedZero used off xs ∧ reservedZero used (off + xs.length) ys := by
  refine ⟨fun h => ⟨fun i hi => ?_, fun i hi => ?_⟩, fun ⟨hx, hy⟩ i hi => ?_⟩
  · simpa [List.getElem?_append_left hi] using h i (by simp; omega)
  · simpa [List.getElem?_append_right, Nat.add_assoc] using h (xs.length + i) (by simpa using hi)
  · rcases Nat.lt_or_ge i xs.length with h | h
    · simpa [List.getElem?_append_left h] using hx i h
    · have := hy (i - xs.length) (by simp at hi; omega)
      rw [Nat.add_assoc, Nat.add_sub_cancel' h] at this
      simpa [List.getElem?_append_right h] using this

theorem reservedZero_zeros (used : List (Nat × Nat)) (off n : Nat) : reservedZero used off (zeros n) := by
  refine fun i hi => .inr ?_
  have : i < n := by simpa using hi
  simp [zeros, this]

/-- A number that lies in a field leaves nothing reserved. -/
theorem reservedZero_natLe {used : List (Nat × Nat)} {off n v : Nat}
    (h : (used.any fun f => decide (f.1 ≤ off) && decide (off + n ≤ f.1 + f.2)) = true) : reservedZero used off (natLe n v) := by
  refine fun i hi => .inl ?_
  have hi' : i < n := by simpa using hi
  simp only [List.any_eq_true, Bool.and_eq_true, decide_eq_true_eq] at h ⊢
  obtain ⟨f, hf, h1, h2⟩ := h
  exact ⟨f, hf, by omega, by omega⟩

/-- The reserved bytes of a descriptor are zero where those of its payload are. -/
theorem restZero_of_payload {head payload : List Byte} {used : List (Nat × Nat)} (hh : head.length = 8) (hp : payload.length = 56)
    (h : reservedZero used 8 payload) : restZero (head ++ payload) used = true := by
  simp only [restZero, List.all_map, List.all_eq_true, List.mem_range, Function.comp, Bool.or_eq_true, decide_eq_true_eq]
  intro i hi
  have := h i (by omega)
  rw [Nat.add_comm 8 i] at this
  simpa [List.getElem?_append_right, hh] using this


/-! ## The head of a descriptor (R297) -/

@[simp] theorem descHead_length (c : Rc) (opc : Nat) : (descHead c opc).length = 8 := by simp [descHead]

/-- A field of a descriptor behind its head is one of its payload. -/
theorem u_payload (c : Rc) (opc : Nat) {off n : Nat} (ys : List Byte) (h : 8 ≤ off) :
    u (descHead c opc ++ ys) off n = u ys (off - 8) n := by
  rw [u_append_right (by simpa using h), descHead_length]

/-- The first word of a descriptor holds opcode, flags and vector, and nothing in its reserved bits. -/
theorem descHead_word (c : Rc) {opc : Nat} (ys : List Byte) (ho : opc < 256) (hv : c.vector < 64) :
    let w := u (descHead c opc ++ ys) 0 4
    w % 256 = opc ∧ bitOf w 8 = c.irq ∧ bitOf w 9 = c.urgent ∧ bitOf w 10 = c.wait ∧ fld w 21 16 = c.vector ∧ fld w 15 11 = 0 ∧
      fld w 31 22 = 0 := by
  have hw : u (descHead c opc ++ ys) 0 4 = opc + (if c.irq then 2 ^ 8 else 0) + (if c.urgent then 2 ^ 9 else 0) +
      (if c.wait then 2 ^ 10 else 0) + c.vector * 2 ^ 16 := by
    rw [descHead, List.append_assoc, u_first]
    cases c.irq <;> cases c.urgent <;> cases c.wait <;> simp <;> omega
  rw [hw]
  simp only [bitOf, fld, Nat.testBit_eq_decide_div_mod_eq, Nat.shiftRight_eq_div_pow]
  cases c.irq <;> cases c.urgent <;> cases c.wait <;> simp <;> omega

/-- The second word is the TAG. -/
theorem descHead_tag (c : Rc) (opc : Nat) (ys : List Byte) (ht : c.tag < 2 ^ 32) : u (descHead c opc ++ ys) 4 4 = c.tag := by
  rw [descHead, List.append_assoc, u_after (by decide), u_first _ ht]

/-- A descriptor whose head is that of a command decodes to the command that its payload holds. -/
theorem decodeDesc_head {c : Rc} {opc : Nat} (head : Nat) (ys : List Byte) (hc : c.wf = true) (ho : opc < 256)
    (hr : ringAccepts c.ring opc = true) :
    decodeDesc c.ring head (descHead c opc ++ ys) =
      { cmd := decodePayload c opc (descHead c opc ++ ys), opc := opc, rc := c, sqHead := head } := by
  obtain ⟨⟨-, ht⟩, hv⟩ : (c.ring < 8 ∧ c.tag < 2 ^ 32) ∧ c.vector < 64 := by simpa [Rc.wf, isRing, fits32] using hc
  obtain ⟨hopc, hirq, hurgent, hwait, hvec, hlow, hhigh⟩ := descHead_word c ys ho hv
  simp only [decodeDesc, hopc, hirq, hurgent, hwait, hvec, hlow, hhigh, descHead_tag c opc ys ht, hr, decide_true, Bool.and_self, if_true]

/-! ## The payloads (R300, R314) -/

/-- Every payload fills its descriptor. -/
theorem payloadOf_length {i : Instr} {c : Rc} (h : rcOf i = some c) : (payloadOf i).length = 56 := by
  cases i <;> simp [rcOf] at h <;> simp [payloadOf]

theorem bitOf_toNat (b : Bool) : bitOf b.toNat 0 = b := by cases b <;> rfl

theorem u_bit (b : Bool) (ys : List Byte) : u (bitByte b ++ ys) 0 1 = b.toNat := by
  rw [bitByte, u_first] <;> cases b <;> decide

theorem u_after_bit {b : Bool} {off n : Nat} {ys : List Byte} (h : 1 ≤ off) : u (bitByte b ++ ys) off n = u ys (off - 1) n := u_after h

theorem reservedZero_bit {used : List (Nat × Nat)} {off : Nat} {b : Bool}
    (h : (used.any fun f => decide (f.1 ≤ off) && decide (off + 1 ≤ f.1 + f.2)) = true) : reservedZero used off (bitByte b) :=
  reservedZero_natLe h

/-- PERM as a number gives its five fields back. -/
theorem permOf_permNum {p : List Nat} (h : permWf p = true) : permNum p < 32768 ∧ permOf (permNum p) = p := by
  obtain ⟨hl, hp⟩ : p.length = 5 ∧ ∀ k ∈ p, k < 8 := by simpa [permWf] using h
  match p, hl with
  | [a, b, c, d, e], _ =>
    simp only [List.mem_cons, List.not_mem_nil, or_false, forall_eq_or_imp, forall_eq] at hp
    obtain ⟨ha, hb, hc, hd, he⟩ := hp
    have hn : permNum [a, b, c, d, e] = a + b * 8 + c * 64 + d * 512 + e * 4096 := by
      simp [permNum, sumNat, nth, List.range_succ]
    rw [hn]
    refine ⟨by omega, ?_⟩
    simp [permOf, fld, List.range_succ, Nat.shiftRight_eq_div_pow]
    omega


/-- The policy byte of RUN_HEATS reads back: the replays, the halt and DEFAULT_POLICY, and nothing in its reserved bits. -/
theorem policyByte_fields (n : Nat) (halt dflt : Bool) (hn : n < 16) :
    let b := n + (if halt then 16 else 0) + (if dflt then 128 else 0)
    b < 256 ∧ fld b 6 5 = 0 ∧ b % 16 = n ∧ bitOf b 4 = halt ∧ bitOf b 7 = dflt := by
  simp only [bitOf, fld, Nat.testBit_eq_decide_div_mod_eq, Nat.shiftRight_eq_div_pow]
  cases halt <;> cases dflt <;> simp <;> omega

/-- A RUN_HEATS payload reads back: under DEFAULT_POLICY the policy fields stand at their defaults (R300). -/
theorem runArgsOf_encode (c : Rc) {a : RunArgs} (hw : a.wf = true) :
    let d := descHead c 0x03 ++ payloadOf (.runHeats c a)
    fld (u d 32 1) 6 5 = 0 ∧ u d 33 1 < 16 ∧ runArgsOf d = a := by
  obtain ⟨heatList, heats, recCount, recArea, n, halt, dflt, limit, seeds⟩ := a
  simp only [RunArgs.wf, Bool.and_eq_true, Bool.or_eq_true, fits64, fits32, decide_eq_true_eq, Bool.not_eq_true'] at hw
  obtain ⟨⟨⟨⟨⟨⟨⟨hlist, hheats⟩, hcount⟩, harea⟩, hseeds⟩, hn⟩, hlimit⟩, hdflt⟩ := hw
  obtain ⟨hbyte, hfld, hmod, h4, h7⟩ := policyByte_fields n halt dflt hn
  simp (disch := omega) only [runArgsOf, payloadOf, List.append_assoc, u_payload, u_after, u_after_zeros, u_first,
    Nat.reduceSub, hfld, hmod, h4, h7, Nat.mod_eq_of_lt]
  refine ⟨trivial, hlimit, ?_⟩
  rcases hdflt with rfl | ⟨⟨rfl, rfl⟩, rfl⟩
  · simp
  · cases dflt <;> simp

/-- A payload reads back as the command that it holds. -/
theorem decodePayload_encode {i : Instr} {c : Rc} {opc : Nat} (h1 : rcOf i = some c) (h2 : opcodeOf i = some opc) (hw : i.wf = true) :
    decodePayload c opc (descHead c opc ++ payloadOf i) = some i := by
  have hz (used : List (Nat × Nat)) (h : reservedZero used 8 (payloadOf i)) :
      restZero (descHead c opc ++ payloadOf i) used = true :=
    restZero_of_payload (descHead_length c opc) (payloadOf_length h1) h
  cases i <;> simp only [rcOf, opcodeOf, Option.some.injEq, reduceCtorEq] at h1 h2 <;> (subst h1; subst h2)
  all_goals
    simp only [Instr.wf, Bool.and_eq_true, fits64, fits32, fits16, fits8, decide_eq_true_eq] at hw
    simp only [decodePayload]
    rw [hz _ (by simp [payloadOf, reservedZero_append, reservedZero_natLe, reservedZero_zeros, reservedZero_bit])]
  case runHeats c a =>
    obtain ⟨hfld, hlimit, hargs⟩ := runArgsOf_encode c hw.2
    simp [hfld, hlimit, hargs]
  case loadPattern | saveContext | restoreContext =>
    simp (disch := omega) [payloadOf, u_payload, u_after, u_first, u_bit, bitOf_toNat, Bool.toNat_le]
  case copy src dst p =>
    obtain ⟨⟨⟨-, hsrc⟩, hdst⟩, hp⟩ := hw
    obtain ⟨hlt, hperm⟩ := permOf_permNum hp
    simp (disch := omega) [payloadOf, u_payload, u_after, u_first, hlt, hperm]
  case gather src dst p list n inHost | scatter src dst p list n inHost =>
    obtain ⟨⟨⟨⟨⟨-, hsrc⟩, hdst⟩, hp⟩, hlist⟩, hn⟩ := hw
    obtain ⟨hlt, hperm⟩ := permOf_permNum hp
    simp (disch := omega) [payloadOf, u_payload, u_after, u_after_zeros, u_first, u_bit, bitOf_toNat, Bool.toNat_le, hlt, hperm]
  case fill => 
    simp only [FillArgs.wf, Bool.and_eq_true, fits64, fits16, fits8, decide_eq_true_eq] at hw
    simp (disch := omega) [payloadOf, u_payload, u_after, u_after_zeros, u_first]
  case fleetJoin => 
    simp only [JoinArgs.wf, Bool.and_eq_true, fits64, fits32, fits16, fits8, decide_eq_true_eq] at hw
    simp (disch := omega) [payloadOf, u_payload, u_after, u_after_zeros, u_first, u_whole]
  all_goals simp (disch := omega) [payloadOf, u_payload, u_after, u_after_zeros, u_first]

/-- Every ring command's opcode fits its field. -/
theorem opcodeOf_lt {i : Instr} {opc : Nat} (h : opcodeOf i = some opc) : opc < 256 := by
  cases i <;> simp only [opcodeOf, Option.some.injEq, reduceCtorEq] at h <;> omega

/-- The common fields of a well-formed command are well-formed. -/
theorem rcOf_wf {i : Instr} {c : Rc} (h : rcOf i = some c) (hw : i.wf = true) : c.wf = true := by
  cases i <;> simp_all [rcOf, Instr.wf]

/-- Settles O9: the head reads back, and then the payload. -/
theorem descriptorRoundTrip : Obligations.DescriptorRoundTrip := by
  intro i c opc head h1 h2 hw hr
  refine ⟨by simp [encodeDesc, payloadOf_length h1], ?_⟩
  rw [encodeDesc, decodeDesc_head head _ (rcOf_wf h1 hw) (opcodeOf_lt h2) hr, decodePayload_encode h1 h2 hw]

end Sys2Proof.Machine
end

section
/-! SUPPORT. Steps in queue order, with the statements that it settles (12 R293, R303). -/

namespace Sys2Proof.Machine

/-- A command that answers a next state answers an effect, what is due at its end, and the queue as it was. -/
theorem exec_done {i : Instr} {s t : State} (h : exec i s = .next t) : ∃ x, t = s.done x := by
  cases i
  case powerOn v =>
    by_cases hv : v ≤ 600
    · exact ⟨_, Host.Outcome.next.inj (h.symm.trans (exec_powerOn s v hv))⟩
    · rw [exec_powerOn_above s v (by omega)] at h
      cases h
  all_goals exact ⟨_, (Host.Outcome.next.inj h).symm⟩

/-- Settles O1: a step is the command at the front. -/
theorem stepRunsTheFrontCommand : Obligations.StepRunsTheFrontCommand := fun _ _ _ => rfl

/-- Settles O2: without a command the state stands, and a command leaves the rest of the queue. -/
theorem stepTakesTheQueueInOrder : Obligations.StepTakesTheQueueInOrder := by
  refine ⟨fun s h => by simp [step, h], fun s t h => ?_⟩
  cases hp : s.pending with
  | nil =>
    obtain rfl : s = t := by simpa [step, hp] using h
    exact hp
  | cons c rest =>
    simp only [step, hp] at h
    obtain ⟨x, rfl⟩ := exec_done h
    rfl

end Sys2Proof.Machine
end

section
/-! SUPPORT. Completion records: written where the ring takes them, and held where it does not, with the statements that it settles (12
R291, R296, R309). -/

namespace Sys2Proof.Machine

/-! ## The 32 bytes of a record (R309) -/

/-- A number over one field and what follows it is the field's bytes, then the rest's. -/
theorem natLe_add {m a : Nat} (n b : Nat) (h : a < 256 ^ m) : natLe (m + n) (a + 256 ^ m * b) = natLe m a ++ natLe n b := by
  induction m generalizing a with
  | zero =>
    obtain rfl : a = 0 := by simpa using h
    simp [natLe]
  | succ m ih =>
    have hlow : BitVec.ofNat 8 (a + 256 ^ (m + 1) * b) = BitVec.ofNat 8 a := by
      refine BitVec.eq_of_toNat_eq ?_
      rw [BitVec.toNat_ofNat, BitVec.toNat_ofNat, Nat.pow_succ', Nat.mul_assoc]
      exact Nat.add_mul_mod_self_left _ _ _
    have hhigh : (a + 256 ^ (m + 1) * b) / 256 = a / 256 + 256 ^ m * b := by
      rw [Nat.pow_succ', Nat.mul_assoc, Nat.add_mul_div_left _ _ (by decide)]
    rw [Nat.succ_add, natLe, natLe, hlow, hhigh, ih (by omega)]
    rfl

/-- A record is its fields in order. -/
theorem Completion.enc_fields (c : Completion) (phase : Bool) :
    c.enc phase = natLe 4 (c.tag % 2 ^ 32) ++ (natLe 1 (c.status % 256) ++ (natLe 1 (c.opc % 256) ++
      (natLe 1 (c.ring % 8 + if c.final then 8 else 0) ++ (natLe 1 (if phase then 128 else 0) ++ (natLe 2 (c.sqHead % 2 ^ 16) ++
      (natLe 2 0 ++ (natLe 8 (c.detail0 % 2 ^ 64) ++ (natLe 8 (c.detail1 % 2 ^ 64) ++ natLe 4 0)))))))) := by
  have hring : (c.ring % 8 + if c.final then 8 else 0) < 256 ^ 1 := by split <;> omega
  have hphase : (if phase then 128 else 0) < 256 ^ 1 := by split <;> decide
  rw [← natLe_add (m := 8) 4 0 (by omega), ← natLe_add (m := 8) 12 _ (by omega), ← natLe_add (m := 2) 20 _ (by decide),
    ← natLe_add (m := 2) 22 _ (by omega), ← natLe_add (m := 1) 24 _ hphase, ← natLe_add (m := 1) 25 _ hring,
    ← natLe_add (m := 1) 26 _ (by omega), ← natLe_add (m := 1) 27 _ (by omega), ← natLe_add (m := 4) 28 _ (by omega)]
  refine congrArg (natLe 32) ?_
  cases c.final <;> cases phase <;> simp <;> omega

/-- The fields of a record read back (R309). -/
theorem Completion.enc_read (c : Completion) (phase : Bool) : let b := c.enc phase
    b.length = 32 ∧ u b 0 4 = c.tag % 2 ^ 32 ∧ u b 4 1 = c.status % 256 ∧ u b 5 1 = c.opc % 256 ∧
    u b 6 1 = (c.ring % 8 + if c.final then 8 else 0) ∧ u b 7 1 = (if phase then 128 else 0) ∧ u b 8 2 = c.sqHead % 2 ^ 16 ∧
    u b 10 2 = 0 ∧ u b 12 8 = c.detail0 % 2 ^ 64 ∧ u b 20 8 = c.detail1 % 2 ^ 64 ∧ u b 28 4 = 0 := by
  have hring : (c.ring % 8 + if c.final then 8 else 0) < 256 ^ 1 := by split <;> omega
  have hphase : (if phase then 128 else 0) < 256 ^ 1 := by split <;> decide
  rw [Completion.enc_fields]
  refine ⟨by simp, ?_⟩
  simp (disch := omega) only [u_after, u_first, u_whole, Nat.reduceSub, and_self]

/-! ## A record at the ring (R296) -/

/-- The state with another port. -/
def State.withPort (s : State) (p : Port) : State := { s with port := p }

/-- What a snooper does leaves the port, and does not depend on it. -/
theorem State.snoop_withPort (s : State) (p : Port) (n kind tensor : Nat) (blocks : List (Nat × List Byte)) :
    (s.withPort p).snoop n kind tensor blocks = (s.snoop n kind tensor blocks).withPort p := by
  have hfenced : (s.withPort p).fencedNow (snooperUnit n) = s.fencedNow (snooperUnit n) := rfl
  rw [State.snoop, State.snoop, hfenced]
  split <;> rfl

/-- So does what is sent to host memory. -/
theorem State.sendHost_withPort (s : State) (p : Port) (a : Nat) (b : List Byte) :
    (s.withPort p).sendHost a b = (s.sendHost a b).withPort p :=
  State.snoop_withPort (s.emit (.hostWrite a b)) p _ _ _ _

/-- The oldest held record goes out where the ring takes it. -/
theorem State.flushCq_writes {s : State} {c : Completion} {rest : List Completion} (h : s.port.cqHeld = c :: rest)
    (hw : s.canWrite s.port.cq = true) (n : Nat) :
    s.flushCq (n + 1) =
      (let w := s.sendHost (s.port.cq.base + 32 * s.port.cq.tail) (c.enc s.port.cq.phase)
       let t : State := { w with port := { w.port with cq := s.port.cq.advance, cqHeld := rest } }
       if c.irq then t.signal c.vector else t).flushCq n := by
  simp only [State.flushCq, h, hw, if_true]

/-- A record that the ring takes goes to its tail, its interrupt is due, and the ring moves on. -/
theorem State.post_writes {s : State} (c : Completion) (hh : s.port.cqHeld = []) (hw : s.canWrite s.port.cq = true) :
    let w := s.sendHost (s.port.cq.base + 32 * s.port.cq.tail) (c.enc s.port.cq.phase)
    let t : State := { w with port := { w.port with cq := s.port.cq.advance } }
    s.post c = if c.irq then t.signal c.vector else t := by
  intro w t
  have hpost : s.post c = (s.withPort { s.port with cqHeld := [c] }).flushCq (0 + 1) := by
    rw [State.post, hh]
    rfl
  have hflush := State.flushCq_writes (s := s.withPort { s.port with cqHeld := [c] }) (c := c) (rest := []) rfl hw 0
  rw [State.sendHost_withPort] at hflush
  have hwp : w.port = s.port := State.sendHost_port s _ _
  have hport : ({ s.port with cq := s.port.cq.advance, cqHeld := [] } : Port) = { w.port with cq := s.port.cq.advance } := by
    rw [hwp, ← hh]
  refine hpost.trans (hflush.trans ?_)
  exact congrArg (fun p => if c.irq then (w.withPort p).signal c.vector else w.withPort p) hport

/-- Held records stay while the ring takes none. -/
theorem State.flushCq_full {s : State} (h : s.canWrite s.port.cq = false) (n : Nat) : s.flushCq n = s := by
  cases n with
  | zero => rfl
  | succ n =>
    rw [State.flushCq]
    split
    · rfl
    · simp [h]

/-- A record that the ring does not take is held behind the others. -/
theorem State.post_holds {s : State} (c : Completion) (h : s.canWrite s.port.cq = false) :
    s.post c = { s with port := { s.port with cqHeld := s.port.cqHeld ++ [c] } } :=
  State.flushCq_full (s := { s with port := { s.port with cqHeld := s.port.cqHeld ++ [c] } }) h _

/-- Settles O12: the record is written, and its bytes are its fields. -/
theorem completionRecordIsWritten : Obligations.CompletionRecordIsWritten := by
  intro s c opc head st d0 d1 hh hw b w t
  exact ⟨State.post_writes _ hh hw, (completionOf c opc head st d0 d1).enc_read s.port.cq.phase⟩

/-- Settles O13: the record is held, and its ring dispatches nothing. -/
theorem fullCompletionRingHoldsRecords : Obligations.FullCompletionRingHoldsRecords := by
  intro s c opc head st d0 d1 h
  have hheld := State.post_holds (completionOf c opc head st d0 d1) h
  refine ⟨hheld, ?_⟩
  rw [State.complete, hheld]
  simp [State.canDispatch, completionOf]

end Sys2Proof.Machine
end

section
/-! SUPPORT. Ring commands that are accepted, from their dispatch on, with the statements that it settles (10 R246, 11 R281, 12 R294, R299, R301,
R303, R306, R307, 13 R313, R314, 14 R333, R335, R343). -/

namespace Sys2Proof.Machine

/-! ## Counted or logged (R387) -/

/-- Counting a command for its role touches the submission rings alone. -/
theorem State.countCommand_frame (s : State) (ring opc : Nat) :
    ∃ q, s.countCommand ring opc = { s with port := { s.port with sq := q } } := by
  unfold State.countCommand
  split
  · exact ⟨s.port.sq, rfl⟩
  · exact ⟨_, rfl⟩

/-- The entry of an accepted command touches the audit log and the count of free values alone. -/
theorem State.logged_frame (s : State) (c : Rc) (action : Nat) (object : List Byte) :
    ∃ a n, s.logged c action object = { s with audit := a, freeCtr := n } := auditAppend_frame s _ _ _ _ _

section
variable {s : State} {i : Instr} {c : Rc} {opc : Nat} (h1 : rcOf i = some c) (h2 : opcodeOf i = some opc)
  (ha : s.accepts i c opc = true)
include h1 h2 ha

/-- An accepted command without an audit entry is counted and runs. -/
theorem exec_counted (hne : opc ≠ 0x01) (hobj : s.auditObject i = none) :
    exec i s = .next (s.done ((s.countCommand c.ring opc).runCmd i (s.headOf c))) := by
  rw [exec_accepted s i c opc h1 h2 ha, dispatch_counted s i c opc _ ha hne hobj]

/-- One with an audit entry runs once the entry stands. -/
theorem exec_logged (hne : opc ≠ 0x01) (hf : s.audit.flashOk = true) {action : Nat} {object : List Byte}
    (hobj : s.auditObject i = some (action, object)) :
    exec i s = .next (s.done ((s.logged c action object).runCmd i (s.headOf c))) := by
  rw [exec_accepted s i c opc h1 h2 ha, dispatch_logged s i c opc _ action object ha hne hobj hf]

end

/-- An accepted LOAD_PATTERN runs, its entry yet to come (R387). -/
theorem exec_loadPattern_accepted {s : State} {c : Rc} {image len : Nat} {fresh : Bool}
    (ha : s.accepts (.loadPattern c image len fresh) c 0x01 = true) (hf : s.audit.flashOk = true) :
    exec (.loadPattern c image len fresh) s = .next (s.done (s.runCmd (.loadPattern c image len fresh) (s.headOf c))) := by
  rw [exec_accepted s _ c 0x01 rfl rfl ha]
  simp only [State.accepts, State.permits, Bool.and_eq_true, decide_eq_true_eq] at ha
  obtain ⟨⟨-, -, hrole⟩, hst⟩ := ha
  simp [State.dispatchCmd, hf, hst, Nat.not_lt.mpr hrole]

/-! ## Short commands (R299, R313, R333, R335, R343) -/

/-- Leaving keeps the membership that it ends (R313; log 32). -/
theorem State.leave_eq (s : State) :
    s.leave = { s with fleet := { s.fleet with member := none, exch := exch0, left := s.fleet.member.or s.fleet.left } } := by
  unfold State.leave
  cases s.fleet.member <;> rfl

/-- Settles O14: each command is counted or logged, and then its effect. -/
theorem shortCommandsComplete : Obligations.ShortCommandsComplete := by
  intro s c
  refine ⟨fun ha => ?_, fun seq ha => ?_, fun code sev ha hf => ?_, fun unit ha hf => ?_, fun ha hf => ?_⟩
  · exact exec_counted rfl rfl ha (by decide) rfl
  · rw [exec_counted rfl rfl ha (by decide) rfl]
    obtain ⟨q, hq⟩ := s.countCommand_frame c.ring 0x24
    rw [hq]
    rfl
  · rw [exec_logged rfl rfl ha (by decide) hf rfl]
    obtain ⟨a, n, hl⟩ := s.logged_frame c 0x13 (natLe 1 code ++ natLe 1 (s.sevLast code) ++ natLe 1 sev)
    rw [hl]
    rfl
  · rw [exec_logged rfl rfl ha (by decide) hf rfl]
    obtain ⟨a, n, hl⟩ := s.logged_frame c 0x14 (natLe 2 unit ++ [0])
    rw [hl]
    rfl
  · rw [exec_logged rfl rfl ha (by decide) hf rfl, State.runCmd, State.leave_eq]
    obtain ⟨a, n, hl⟩ := s.logged_frame c 0x45 (natLe 4 c.tag ++ zeros 4 ++ natLe 8 s.heat.heatNum)
    rw [hl]

/-! ## Long operations (R294, R303) -/

/-- Settles O15: each command is counted, and its operation begins with what it needs first. -/
theorem longCommandsBegin : Obligations.LongCommandsBegin := by
  intro s c copyOp asked
  have copies {i : Instr} {opc src dst list n : Nat} {perm : List Nat} {host : Bool} (h1 : rcOf i = some c) (h2 : opcodeOf i = some opc)
      (ha : s.accepts i c opc = true) (hne : opc ≠ 0x01) (hobj : s.auditObject i = none)
      (hrun : ∀ (w : State) (head : Nat), w.runCmd i head = w.copyStart c opc head src dst perm list n host) :
      exec i s = .next (s.done (asked opc src dst (copyOp opc src dst list n perm host))) := by
    obtain ⟨q, hq⟩ := s.countCommand_frame c.ring opc
    rw [exec_counted h1 h2 ha hne hobj, hrun]
    simp only [asked, hq]
    rfl
  refine ⟨fun src dst perm ha => copies rfl rfl ha (by decide) rfl fun _ _ => rfl,
    fun src dst perm list n host ha => copies rfl rfl ha (by decide) rfl fun _ _ => rfl,
    fun src dst perm list n host ha => copies rfl rfl ha (by decide) rfl fun _ _ => rfl, fun a ha => ?_,
    fun base len summary ha => ?_, fun image len fresh ha hf => ?_⟩
  · rw [exec_counted rfl rfl ha (by decide) rfl]
    obtain ⟨q, hq⟩ := s.countCommand_frame c.ring 0x13
    rw [hq]
    rfl
  · rw [exec_counted rfl rfl ha (by decide) rfl]
    obtain ⟨q, hq⟩ := s.countCommand_frame c.ring 0x20
    rw [hq]
    rfl
  · rw [exec_loadPattern_accepted ha hf]
    rfl

/-! ## Commands that wait for the host (R301, R307, R314) -/

/-- Settles O16: the list, the record or the table is under way, and the ring is busy. -/
theorem hostBoundCommandsBegin : Obligations.HostBoundCommandsBegin := by
  intro s c
  refine ⟨fun list n ha => ?_, fun code target out len ha => ?_, fun a ha hf => ?_⟩
  · exact exec_counted rfl rfl ha (by decide) rfl
  · rw [exec_counted rfl rfl ha (by decide) rfl]
    simp only [State.runCmd, State.query, List.isEmpty_iff]
  · exact exec_logged rfl rfl ha (by decide) hf rfl

/-! ## Contexts (R306) -/

/-- Settles O18: the image of the state goes out, or the image is read. -/
theorem contextCommandsBegin : Obligations.ContextCommandsBegin := by
  intro s c p area len host hp hf
  refine ⟨fun ha => ?_, fun ha => ?_⟩
  · rw [exec_logged rfl rfl ha (by decide) hf rfl]
    obtain ⟨a, n, hl⟩ := s.logged_frame c 0x42 (natLe 4 c.tag ++ zeros 4 ++ natLe 8 s.heat.heatNum)
    rw [hl]
    simp only [State.runCmd, State.saveStart, hp]
    rfl
  · rw [exec_logged rfl rfl ha (by decide) hf rfl]
    obtain ⟨a, n, hl⟩ := s.logged_frame c 0x43 (natLe 4 c.tag ++ zeros 4 ++ natLe 8 s.heat.heatNum)
    rw [hl]
    rfl

end Sys2Proof.Machine
end

section
/-! SUPPORT. SUSPEND, RESUME and CANCEL on chunked operations, with the statement that it settles (12 R303, R308). -/

namespace Sys2Proof.Machine

/-! ## A control command that does not name the RUN_HEATS operation (R303, R308) -/

/-- Whether a command names the RUN_HEATS operation depends on the heat alone. -/
theorem State.targetsJob_congr {s t : State} (hh : t.heat = s.heat) (ring tag : Nat) : t.targetsJob ring tag = s.targetsJob ring tag := by
  rw [State.targetsJob, hh]
  rfl

section
variable {s : State} {c : Rc} {ring tag : Nat} {i : Instr} {opc : Nat} {k : Control} (hi : IsControl c ring tag i opc k)
  (ha : s.accepts i c opc = true)
include hi ha

/-- An accepted control command is counted and reaches its target. -/
theorem exec_control :
    exec i s = .next (s.done ((s.countCommand c.ring opc).control c opc (s.headOf c) ring tag k)) := by
  have hc : rcOf i = some c ∧ opcodeOf i = some opc ∧ opc ≠ 0x01 ∧ s.auditObject i = none := by
    cases hi <;> exact ⟨rfl, rfl, by decide, rfl⟩
  obtain ⟨hrc, hopc, hne, hobj⟩ := hc
  rw [exec_counted hrc hopc ha hne hobj]
  cases hi <;> rfl

/-- One that does not name exactly one operation is refused. -/
theorem exec_control_noTarget (hn : s.targets ring tag ≠ 1) :
    exec i s = .next (s.done ((s.countCommand c.ring opc).complete c opc (s.headOf c) stInvalid 0 0)) := by
  have htargets : (s.countCommand c.ring opc).targets ring tag ≠ 1 := by
    rwa [State.targets_congr (State.countCommand_ops s c.ring opc) (State.countCommand_heat s c.ring opc)]
  rw [exec_control hi ha, State.control, if_pos htargets]

/-- One on a chunked operation that allows it has its record, and then its effect. -/
theorem exec_control_ofOp {o : Op} (ho : s.findTag ring tag = some o) (h1 : s.targets ring tag = 1) (hj : s.targetsJob ring tag = false)
    (hs : isSuspendable o.opc = true) (hst : o.controlStatus k = stOk) :
    exec i s = .next (s.done (((s.countCommand c.ring opc).complete c opc (s.headOf c) stOk 0 0).controlOp o k)) := by
  have hops := State.countCommand_ops s c.ring opc
  have hheat := State.countCommand_heat s c.ring opc
  have ho' : (s.countCommand c.ring opc).findTag ring tag = some o := by rw [State.findTag, hops, ← ho, State.findTag]
  rw [exec_control hi ha, State.control]
  simp [State.targets_congr hops hheat, h1, State.targetsJob_congr hheat, hj, ho', hs, hst]

end

/-! ## The effect of each (R308) -/

section
variable (w : State) {o : Op}

/-- SUSPEND stops an operation at the end of its chunk. -/
theorem State.controlOp_suspend {urgent : Bool} (hr : o.state = .running) (hc : o.cancel = false) (hi : o.idle = false) :
    w.controlOp o (.suspend urgent) = w.setOp { o with state := .suspendPending } := by
  simp [State.controlOp, hr, hc, hi]

/-- RESUME before that takes the suspension back. -/
theorem State.controlOp_resume_pending (hp : o.state = .suspendPending) :
    w.controlOp o .resume = w.setOp { o with state := .running } := if_pos hp

/-- RESUME of a suspended fill lets it go on. -/
theorem State.controlOp_resume_fill {f : FillOp} (hs : o.state = .suspended) (hb : o.body = .fill f) :
    w.controlOp o .resume = w.setOp { o with state := .running } := by
  simp [State.controlOp, hs, hb]

/-- CANCEL of a suspended operation ends it. -/
theorem State.controlOp_cancel_suspended (hs : o.state = .suspended) : w.controlOp o .cancel = w.endOp o stCancelled := by
  simp [State.controlOp, hs]

/-- CANCEL of one with a chunk under way ends it after the chunk. -/
theorem State.controlOp_cancel_running (hr : o.state = .running) (hi : o.idle = false) :
    w.controlOp o .cancel = w.setOp { o with cancel := true } := by
  simp [State.controlOp, hr, hi]

end

/-- Settles O20: each command reaches the operation, whose effect is that of its case; without one target it is refused. -/
theorem controlOfChunkedOperations : Obligations.ControlOfChunkedOperations := by
  intro s c ring tag
  refine ⟨fun o ho h1 hj hs => ⟨fun ha hr hc hi => ?_, fun ha hp => ?_, fun f ha hp hb => ?_, fun ha hp => ?_, fun ha hr hi => ?_⟩,
    fun hn => ⟨fun ha => exec_control_noTarget .suspend ha hn, fun ha => exec_control_noTarget .resume ha hn,
      fun ha => exec_control_noTarget .cancel ha hn⟩⟩
  · rw [exec_control_ofOp .suspend ha ho h1 hj hs rfl, State.controlOp_suspend _ hr hc hi]
  · rw [exec_control_ofOp .resume ha ho h1 hj hs (if_pos (.inr hp)), State.controlOp_resume_pending _ hp]
  · rw [exec_control_ofOp .resume ha ho h1 hj hs (if_pos (.inl hp)), State.controlOp_resume_fill _ hp hb]
  · rw [exec_control_ofOp .cancel ha ho h1 hj hs rfl, State.controlOp_cancel_suspended _ hp]
  · rw [exec_control_ofOp .cancel ha ho h1 hj hs rfl, State.controlOp_cancel_running _ hr hi]

end Sys2Proof.Machine
end

section
/-! SUPPORT. Doorbells and interrupts, with the statements that it settles (12 R291, R293, R294, R296). -/

namespace Sys2Proof.Machine

/-! ## Submission (R293, R294) -/

/-- Without a link a doorbell does nothing. -/
theorem submissionDoorbellOp_unlinked {s : State} (r value : Nat) (hl : s.fullLink = false) : submissionDoorbellOp r value s = s := by
  simp [submissionDoorbellOp, hl]

section
variable {s : State} {r value : Nat} (hl : s.fullLink = true)
include hl

/-- A value that is not below the entry count is counted. -/
theorem submissionDoorbellOp_over (hv : 2 ^ (s.ring r).log2 ≤ value) :
    submissionDoorbellOp r value s = s.setRing r fun q => { q with dbErr := satAdd 16 q.dbErr 1 } := by
  simp [submissionDoorbellOp, hl, entriesOf, hv]

variable (hv : value < 2 ^ (s.ring r).log2)
include hv

/-- A ring that is off takes no tail. -/
theorem submissionDoorbellOp_off (he : (s.ring r).enable = false) : submissionDoorbellOp r value s = s := by
  simp [submissionDoorbellOp, hl, he, entriesOf, Nat.not_le.mpr hv]

/-- A ring that is on takes its tail, and fetches. -/
theorem submissionDoorbellOp_on (he : (s.ring r).enable = true) :
    submissionDoorbellOp r value s = (s.setRing r fun q => { q with tail := value }).fetchNext r := by
  simp [submissionDoorbellOp, hl, he, entriesOf, Nat.not_le.mpr hv]

end

/-- A ring with nothing fetched or under way fetches the descriptor at its head. -/
theorem State.fetchNext_fetches (s : State) (r : Nat) (he : (s.ring r).enable = true) (hb : (s.ring r).fetching = false)
    (hf : (s.ring r).fetched = []) (ht : (s.ring r).head ≠ (s.ring r).tail) :
    s.fetchNext r = (s.setRing r fun q => { q with fetching := true }).hostRead ((s.ring r).base + 64 * (s.ring r).head) 64
      (.descriptor r) :=
  if_pos (by simp [he, hb, hf, ht])

/-- Any other ring fetches nothing. -/
theorem State.fetchNext_idle (s : State) (r : Nat) (h : (s.ring r).enable = false ∨ (s.ring r).fetching = true ∨
    (s.ring r).fetched ≠ [] ∨ (s.ring r).head = (s.ring r).tail) : s.fetchNext r = s :=
  if_neg (by rcases h with h | h | h | h <;> simp [h])

/-- Settles O21: a doorbell by link, value and ring, and a fetch by what the ring holds. -/
theorem doorbellSubmitsDescriptors : Obligations.DoorbellSubmitsDescriptors := by
  intro s r q
  simp only [exec_submissionDoorbell]
  refine ⟨fun value hl => ?_, fun value hl he hv => ?_, fun value hl he hv => ?_, fun value hl hv => ?_, fun he hb hf ht => ?_, fun h => ?_⟩
  · rw [submissionDoorbellOp_unlinked r value hl]
  · rw [submissionDoorbellOp_off hl hv he]
  · rw [submissionDoorbellOp_on hl hv he]
  · rw [submissionDoorbellOp_over hl hv]
    rfl
  · exact s.fetchNext_fetches r he hb hf ht
  · exact s.fetchNext_idle r h

/-! ## Records (R296) -/

/-- Settles O23: an index in range frees records and lets held ones follow; any other is ignored. -/
theorem headDoorbellsFreeRecords : Obligations.HeadDoorbellsFreeRecords := by
  intro s value hl
  simp only [exec_completionHeadDoorbell, exec_eventHeadDoorbell, completionHeadOp, eventHeadOp, entriesOf, hl]
  refine ⟨fun he hv => ?_, fun he hv => ?_, fun he hv => ?_, fun he hv => ?_⟩
  · simp [he, Nat.not_le.mpr hv]
  · simp [hv]
  · simp [he, Nat.not_le.mpr hv]
  · simp [hv]

/-! ## Interrupts (R291) -/

/-- A vector that is not due sends nothing. -/
theorem interruptOp_notDue {s : State} {v : Nat} (h : v ∉ s.port.msixDue) : interruptOp v s = s := by
  simp [interruptOp, h]

/-- A due one that has sent nothing in its window does what its table entry says. -/
theorem interruptOp_due {s : State} {v : Nat} {e : MsixEntry} (hl : s.linkLive = true) (hd : v ∈ s.port.msixDue)
    (hw : v ∉ s.port.msixWindow) (he : s.port.msix[v]? = some e) :
    interruptOp v s =
      (let t : State := { s with port := { s.port with msixDue := s.port.msixDue.filter (· ≠ v) } }
       if e.mask then { t with port := { t.port with msixPending := addTo t.port.msixPending v } } else
       State.emit { t with port := { t.port with msixWindow := addTo t.port.msixWindow v } } (.msi v e.addr e.data)) := by
  simp only [interruptOp, hl, hd, hw, he, not_true_eq_false, decide_false, Bool.not_true, Bool.or_self, Bool.false_eq_true, if_false]

/-- Settles O24: a vector that is not due, and a due one by its mask. -/
theorem interruptIsSentOrPended : Obligations.InterruptIsSentOrPended := by
  refine ⟨fun s v h => ?_, fun s v e hl hd hw he => ⟨fun hm => ?_, fun hm => ?_⟩⟩
  · rw [exec_interruptSend, interruptOp_notDue h]
  · rw [exec_interruptSend, interruptOp_due hl hd hw he]
    simp only [hm, Bool.false_eq_true, if_false]
    rfl
  · rw [exec_interruptSend, interruptOp_due hl hd hw he]
    simp only [hm, if_true]

end Sys2Proof.Machine
end

section
/-! SUPPORT. The answers of the host to the module's accesses, with the statements that it settles (12 R293, R298, R301, R303 to R305, R307,
R314, R365). -/

namespace Sys2Proof.Machine

/-! ## Data (R293, R298, R301, R304, R314, R365) -/

/-- A read that is answered with data: the access is over, and its bytes go to its reader. -/
theorem hostResponseOp_data {s t : State} {id : Nat} {a : HostAcc} (hl : s.linkLive = true) (ht : s.takeAcc id = some (a, t))
    (hw : a.write = false) (bytes : List Byte) : hostResponseOp id (.data bytes) s = t.hostData a (slice bytes 0 a.len) := by
  simp [hostResponseOp, hl, ht, hw]

/-- A write that the host has accepted. -/
theorem hostResponseOp_accepted {s t : State} {id : Nat} {a : HostAcc} (hl : s.linkLive = true) (ht : s.takeAcc id = some (a, t))
    (hw : a.write = true) : hostResponseOp id .accepted s = t.hostAccepted a := by
  simp [hostResponseOp, hl, ht, hw]

/-- An access that is answered with an error has failed. -/
theorem hostResponseOp_error {s t : State} {id : Nat} {a : HostAcc} (hl : s.linkLive = true) (ht : s.takeAcc id = some (a, t)) :
    hostResponseOp id .error s = t.hostFail a stInvalid := by
  simp [hostResponseOp, hl, ht]

/-- An id that stands for no access is no answer. -/
theorem hostResponseOp_none {s : State} {id : Nat} (ht : s.takeAcc id = none) (r : HostResp) : hostResponseOp id r s = s := by
  simp [hostResponseOp, ht]

/-- An access without an answer has failed, but for a slot op's. -/
theorem hostTimeoutOp_some {s t : State} {id : Nat} {a : HostAcc} (ht : s.takeAcc id = some (a, t)) :
    hostTimeoutOp id s = if a.purpose.ofSlot then s else t.hostFail a stTimeout := by
  simp [hostTimeoutOp, ht]

/-- Nor is there a time-out of one. -/
theorem hostTimeoutOp_none {s : State} {id : Nat} (ht : s.takeAcc id = none) : hostTimeoutOp id s = s := by
  simp [hostTimeoutOp, ht]

/-- The purposes whose data go to a long operation. -/
inductive Purpose.ForOp (ring id : Nat) : Purpose → Prop
  | image : ForOp ring id (.image ring id)
  | copySrc : ForOp ring id (.copySrc ring id)
  | copyDst : ForOp ring id (.copyDst ring id)
  | gatherList : ForOp ring id (.gatherList ring id)
  | context : ForOp ring id (.context ring id)
  | chunkLeaf : ForOp ring id (.chunkLeaf ring id)

/-- What was read for a long operation goes to it. -/
theorem State.hostData_op {t : State} {a : HostAcc} {ring k : Nat} {o : Op} (b : List Byte) (hp : a.purpose.ForOp ring k)
    (ho : (t.snoop 125 a.purpose.kind 0 (addrBlocks a.iova b)).findOp ring k = some o) :
    t.hostData a b = (t.snoop 125 a.purpose.kind 0 (addrBlocks a.iova b)).opData o a.purpose a.iova b := by
  obtain ⟨id, iova, len, write, purpose⟩ := a
  cases hp <;> simp only [State.hostData, ho]

/-- Settles O25: the reader by the purpose of the access. -/
theorem hostDataGoesToItsReader : Obligations.HostDataGoesToItsReader := by
  intro s t id a bytes hl ht hw b w answer
  have hanswer : answer = .next (s.done (t.hostData a b)) := by
    rw [← hostResponseOp_data hl ht hw]
    rfl
  have op {ring k : Nat} {o : Op} (hp : a.purpose.ForOp ring k) (ho : w.findOp ring k = some o) :
      answer = .next (s.done (w.opData o a.purpose a.iova b)) := by
    rw [hanswer, State.hostData_op b hp ho]
  refine ⟨fun r hp => ?_, fun c n head hp => ?_, fun c x head hp => ?_, fun hp j hj => ?_, fun k hp j hj => ?_,
    fun ring k o len fresh role iova hp ho hb => ?_, fun ring k o c hp ho hb => ?_, fun ring k o c hp ho hb => ?_,
    fun ring k o f hp ho hb => ?_, fun ring k o c hp ho hb => ?_, fun ring k o c hp ho hb => ?_, fun ring k o c hp ho hb => ?_,
    fun hp => ?_⟩
  · rw [hanswer, State.hostData, hp]
    simp only [w, hp]
    rfl
  · rw [hanswer, State.hostData, hp]
    simp only [w, hp]
  · rw [hanswer, State.hostData, hp]
    simp only [w, hp]
  · rw [hanswer, State.hostData]
    simp only [w, hp] at hj ⊢
    rw [State.setJob_of_job (j := j) (h := ?_)]
    · rfl
    · exact hj
  · rw [hanswer, State.hostData]
    simp only [w, hp] at hj ⊢
    rw [State.setJob_of_job hj]
    rfl
  · rw [op (hp ▸ .image) ho, State.opData, hb]
  · rw [op (hp ▸ .copySrc) ho, State.opData, hb, hp]
    rfl
  · rw [op (hp ▸ .copyDst) ho, State.opData, hb, hp]
    rfl
  · rw [op (hp ▸ .copyDst) ho, State.opData, hb]
  · rw [op (hp ▸ .gatherList) ho, State.opData, hb, hp]
    rfl
  · rw [op (hp ▸ .context) ho, State.opData, hb]
  · rw [op (hp ▸ .chunkLeaf) ho, State.opData, hb, hp]
    rfl
  · rw [hanswer, State.hostData]
    simp only [w, hp]

/-! ## Accepted writes, errors and time-outs (R298, R303, R305, R307) -/

/-- An operation that is found ends with the status of its failed access. -/
theorem State.failOp_found {t : State} {ring k : Nat} {o : Op} (ho : t.findOp ring k = some o) (st : Nat) :
    t.failOp ring k st = t.endOp o st := by
  simp [State.failOp, ho]

/-- Before its next ADMIT the RUN_HEATS operation ends at once (R305). -/
theorem State.jobHostFail_start {t : State} {j : Job} (hj : t.heat.job = some j) (hp : j.phase = .start) (hs : t.heat.saved = none)
    (st : Nat) : t.jobHostFail st = t.endJob st := by
  simp [State.jobHostFail, hj, hp, hs]

/-- Else it ends with its heat (R305). -/
theorem State.jobHostFail_later {t : State} {j : Job} (hj : t.heat.job = some j) (h : j.phase ≠ .start ∨ t.heat.saved ≠ none) (st : Nat) :
    t.jobHostFail st = { t with heat := { t.heat with job := some { j with endStatus := some (j.endStatus.getD st) } } } := by
  have hlater : ¬ (j.phase = .start ∧ t.heat.saved.isNone = true) := by
    rw [not_and_or, Option.isNone_iff_eq_none]
    exact h
  simp only [State.jobHostFail, hj, if_neg hlater]
  exact State.setJob_of_job hj _

/-- An access that no slot op made fails by an error or by a time-out, and what waited ends by its status. -/
theorem exec_hostFail {s t : State} {id : Nat} {a : HostAcc} {x : Nat → State} (ht : s.takeAcc id = some (a, t))
    (hp : a.purpose.ofSlot = false) (hx : ∀ st, t.hostFail a st = x st) :
    (s.linkLive = true → exec (.hostAccessResponse id .error) s = .next (s.done (x stInvalid))) ∧
      exec (.hostTimeoutExpiry id) s = .next (s.done (x stTimeout)) := by
  rw [exec_hostAccessResponse, exec_hostTimeoutExpiry, hostTimeoutOp_some ht, hp, ← hx, ← hx]
  exact ⟨fun hl => by rw [hostResponseOp_error hl ht], rfl⟩

/-- A slot op's access fails by an error, and a time-out is bounded by its slot (R298). -/
theorem exec_slotFail {s t x : State} {id : Nat} {a : HostAcc} (ht : s.takeAcc id = some (a, t)) (hp : a.purpose.ofSlot = true)
    (hx : t.hostFail a stInvalid = x) :
    (s.linkLive = true → exec (.hostAccessResponse id .error) s = .next (s.done x)) ∧
      exec (.hostTimeoutExpiry id) s = .next (s.done s) := by
  rw [exec_hostAccessResponse, exec_hostTimeoutExpiry, hostTimeoutOp_some ht, hp, ← hx]
  exact ⟨fun hl => by rw [hostResponseOp_error hl ht], rfl⟩

/-- Settles O26: an accepted write by its purpose, and a failed access by what waited for it. -/
theorem hostWritesErrorsAndTimeouts : Obligations.HostWritesErrorsAndTimeouts := by
  refine ⟨fun s id ht => ⟨?_, fun r => ?_⟩, ?_⟩
  · rw [exec_hostTimeoutExpiry, hostTimeoutOp_none ht]
  · rw [exec_hostAccessResponse, hostResponseOp_none ht]
  intro s t id a ht fails
  have fail {x : Nat → State} (hp : a.purpose.ofSlot = false) (hx : ∀ st, t.hostFail a st = x st) : fails x := exec_hostFail ht hp hx
  clear_value fails
  refine ⟨fun hl hw => ?_, fun c n head hp => ?_, fun c x head hp => ?_, fun c len head hp => ?_,
    fun ring k o ho => ⟨?_, fun hp => ?_, fun hp => ?_⟩, fun j hp hj => ?_, fun r hp => ?_, fun hp => ?_, fun ev hp => ?_⟩
  · rw [exec_hostAccessResponse, hostResponseOp_accepted hl ht hw]
    refine ⟨fun c len head hp => ?_, fun ring k o x hp ho hb => ?_, fun ring k o x hp ho hb => ?_⟩
    · simp only [State.hostAccepted, hp]
    · simp only [State.hostAccepted, hp, ho, hb, State.skimEnds]
    · simp only [State.hostAccepted, hp, ho, hb]
  · exact fail (by rw [hp]; rfl) fun st => by simp only [State.hostFail, hp, State.failShort]
  · exact fail (by rw [hp]; rfl) fun st => by simp only [State.hostFail, hp, State.failShort]
  · exact fail (by rw [hp]; rfl) fun st => by simp only [State.hostFail, hp, State.failShort]
  · rintro (hp | hp | hp | hp | hp | hp) <;>
      exact fail (by rw [hp]; rfl) fun st => by simp only [State.hostFail, hp, State.failOp_found ho]
  · exact fail (by rw [hp]; rfl) fun st => by simp only [State.hostFail, hp, State.failOp_found ho]
  · exact fail (by rw [hp]; rfl) fun st => by simp only [State.hostFail, hp, ho]
  · have hfail (st : Nat) : t.hostFail a st = t.jobHostFail st := by
      rcases hp with hp | ⟨h, hp⟩ | hp <;> simp only [State.hostFail, hp]
    have hslot : a.purpose.ofSlot = false := by
      rcases hp with hp | ⟨h, hp⟩ | hp <;> simp only [Purpose.ofSlot, hp]
    exact ⟨fun hph hs => fail hslot fun st => (hfail st).trans (State.jobHostFail_start hj hph hs st),
      fun h => fail hslot fun st => (hfail st).trans (State.jobHostFail_later hj h st)⟩
  · exact fail (by rw [hp]; rfl) fun st => by simp only [State.hostFail, hp]
  · exact exec_slotFail ht (by rw [hp]; rfl) (by simp only [State.hostFail, hp])
  · exact exec_slotFail ht (by rw [hp]; rfl) (by simp only [State.hostFail, hp, State.leafWriteError])

end Sys2Proof.Machine
end

section
/-! SUPPORT. The management port and JTAG, with the statements that it settles (12 R285, 15 R379, R390 to R393, 17 R433). -/

namespace Sys2Proof.Machine

/-! ## DOE (R285, R379, R390, R391) -/

section
variable {s : State} (hl : s.linkLive = true)
include hl

/-- GET_CERTS sends its range of the chain. -/
theorem getCertBytes_live (ofs len : Nat) : getCertBytes ofs len s = s.emit (.doe ((s.boot.certs.drop ofs).take len)) :=
  if_neg (by simp [hl])

/-- ATTEST sends its report under a fresh signature. -/
theorem attestReport_live (nonce : List Byte) : attestReport nonce s =
    s.draw.2.emit (.doe (s.report nonce ++ natBe 96 (Config.identitySignature s.freeCtr).toNat)) :=
  if_neg (by simp [hl])

/-- Discovery sends the three objects. -/
theorem State.doeDiscover_live : s.doeDiscover = s.emit (.doeWords doeObjects) := if_neg (by simp [hl])

/-- A CDAT read sends the table, which is empty in crucible mode. -/
theorem State.cdat_live : s.cdat = s.emit (.doeWords (if s.inCrucible then [] else [Config.cdatTable 0])) := if_neg (by simp [hl])

end

/-! ## SMBus (R433) -/

/-- A powered module answers a block read of identity, status or telemetry, and acknowledges no other. -/
theorem State.smbusRead_powered {s : State} (hp : s.power.powered = true) :
    s.smbusRead 0x10 = s.emit (.smbus ((List.range 5).map fun i => natLe 8 (s.readIdentity (8 * i))).flatten) ∧
    s.smbusRead 0x11 = s.emit (.smbus (natLe 8 s.statusWord)) ∧
    s.smbusRead 0x12 = s.emit (.smbus ((List.range 7).map fun i => natLe 8 (s.readTelemetry (0x40 + 8 * i))).flatten) ∧
    ∀ c, c ≠ 0x10 → c ≠ 0x11 → c ≠ 0x12 → s.smbusRead c = s.emit .smbusNack := by
  refine ⟨?_, ?_, ?_, fun c h0 h1 h2 => ?_⟩
  · simp [State.smbusRead, hp]
  · simp [State.smbusRead, hp, List.range_succ, State.readStatus]
  · simp [State.smbusRead, hp]
  · simp [State.smbusRead, hp]

/-- It acknowledges no other kind of command. -/
theorem State.smbusOther_powered {s : State} (hp : s.power.powered = true) : s.smbusOther = s.emit .smbusNack := by
  simp [State.smbusOther, hp]

/-- Settles O33: what each read sends, with the link up or the module powered. -/
theorem managementReadsAnswer : Obligations.ManagementReadsAnswer := by
  refine fun s => ⟨fun hl => ⟨fun ofs len => ?_, fun nonce => ?_, ?_, fun hc => ?_, fun hc => ?_⟩, fun hp => ?_⟩
  · rw [exec_getCerts, getCertBytes_live hl]
    rfl
  · rw [exec_attest, attestReport_live hl]
    rfl
  · rw [exec_doeDiscovery, State.doeDiscover_live hl]
    rfl
  · rw [exec_cdatTableAccess, State.cdat_live hl, hc]
    rfl
  · rw [exec_cdatTableAccess, State.cdat_live hl, hc]
    rfl
  · obtain ⟨hidentity, hstatus, htelemetry, hother⟩ := State.smbusRead_powered hp
    simp only [exec_smbusBlockRead, exec_smbusOtherCommand]
    rw [hidentity, hstatus, htelemetry, State.smbusOther_powered hp]
    exact ⟨rfl, rfl, rfl, fun c h0 h1 h2 => by rw [hother c h0 h1 h2]; rfl, rfl⟩

/-! ## JTAG (R311, R392, R393) -/

section
variable {s : State} (ha : s.alive = true) {scope : Nat} (l : List JtagAccess)
include ha

/-- A session outside its scope, or without an entry, acts as BYPASS. -/
theorem State.jtagSession_bypass (h : scope = 0 ∨ scope &&& s.mbx.debugScope ≠ scope ∨ s.audit.flashOk = false) :
    s.jtagSession scope l = s.emit .tdoBypass := by
  have hbypass : scope = 0 ∨ scope &&& s.mbx.debugScope ≠ scope ∨ ¬ s.audit.flashOk = true := by simpa using h
  exact (if_neg (by simp [ha])).trans (if_pos hbypass)

/-- An unlocked one is counted, entered and carried out. -/
theorem State.jtagSession_unlocked (h0 : scope ≠ 0) (hs : scope &&& s.mbx.debugScope = scope) (hf : s.audit.flashOk = true) :
    s.jtagSession scope l =
      (let w := State.auditAppend { s with mbx := { s.mbx with jtagCount := s.mbx.jtagCount + 1 } } 0x32 3 stOk [] (natLe 4 scope)
       if scope.testBit 0 then l.foldl State.jtagAccess w else w) := by
  have hopen : ¬ (scope = 0 ∨ scope &&& s.mbx.debugScope ≠ scope ∨ ¬ s.audit.flashOk = true) := by simp [h0, hs, hf]
  exact (if_neg (by simp [ha])).trans (if_neg hopen)

end

/-- Settles O34: a boundary instruction, a session by its scope, and one access of it. -/
theorem jtagFollowsTheScope : Obligations.JtagFollowsTheScope := by
  intro s ha
  simp only [exec_jtagBoundaryInstruction, exec_jtagPrivateSession]
  refine ⟨fun clamp => ?_, fun scope l h0 hs hf => ?_, fun scope l h => ?_, fun a v hin => ?_, fun a v hout => ?_⟩
  · rw [State.boundary, ha]
    rfl
  · rw [State.jtagSession_unlocked ha l h0 hs hf]
  · rw [State.jtagSession_bypass ha l h]
    rfl
  · exact if_pos hin
  · exact if_neg (by simp [hout])

end Sys2Proof.Machine
end

section
/-! SUPPORT. The link that comes and goes, with the statement that it settles (12 R285, R311, 15 R374, R379, R385, R392). -/

namespace Sys2Proof.Machine

/-! ## The end of the link (R311, R385) -/

/-- Without a link there is none to lose. -/
theorem State.linkLoss_down {s : State} (hl : s.port.linkUp = false) : s.linkLoss = s := if_pos (by simp [hl])

/-- The state in which the session and the roles have ended, with the operations that end with the link. -/
def State.unlinked (s : State) : State :=
  let w := ((List.range 8).foldl State.endRole s).endSession 0
  (w.ops.foldl State.opLinkLoss w).jobLinkLoss

/-- The link goes once they have: the port is reset but for the event records and set-up that stand. -/
theorem State.linkLoss_up {s : State} (hl : s.port.linkUp = true) : s.linkLoss = { s.unlinked with port := { port0 with
    eqHeld := s.unlinked.port.eqHeld, eqLost := s.unlinked.port.eqLost, lostRun := s.unlinked.port.lostRun,
    evtVec := s.unlinked.port.evtVec, hostTimeout := s.unlinked.port.hostTimeout, nextAcc := s.unlinked.port.nextAcc } } := by
  simp only [State.linkLoss, State.unlinked, hl, Bool.not_true, Bool.false_eq_true, if_false]

/-- Ending the link ends the session and keeps the keys. -/
theorem State.unlinked_mbx (s : State) : s.unlinked.mbx.session = 0 ∧ s.unlinked.mbx.keys = s.mbx.keys := by
  simp [State.unlinked]

/-- Pattern, bindings and committed counts stand (R311). -/
theorem State.unlinked_heat (s : State) :
    s.unlinked.heat.pattern = s.heat.pattern ∧ s.unlinked.heat.bindings = s.heat.bindings ∧
    s.unlinked.heat.heatNum = s.heat.heatNum ∧ s.unlinked.heat.updates = s.heat.updates ∧ s.unlinked.heat.cursor = s.heat.cursor := by
  simp [State.unlinked]

/-! ## Training (R285, R374, R379) -/

section
variable {s : State} {speed width : Nat} (hm : linkModeOk speed width = true) (ha : s.alive = true) (hp : s.pins.perst = true)
  (hj : s.mbx.jtagClamp = none)

include hm ha hp hj in
/-- In crucible mode, or from stage LINK on, the link trains. -/
theorem State.linkTrained_up (h : s.inCrucible = true ∨ 6 ≤ s.boot.stage) : s.linkTrained speed width =
    { s with port := { s.port with linkUp := true, ioOnly := s.inCrucible, speed := speed, width := width } } :=
  if_pos (by simpa [hm, ha, hp, hj] using h)

/-- Before stage LINK it does not. -/
theorem State.linkTrained_early (hc : s.inCrucible = false) (h : s.boot.stage < 6) : s.linkTrained speed width = s :=
  if_neg (by simp [hc, Nat.not_le.mpr h])

end

/-- Settles O37: the causes that end the link, what its end leaves, and training. -/
theorem linkComesAndGoes : Obligations.LinkComesAndGoes := by
  refine fun s => ⟨rfl, rfl, rfl, rfl, State.linkLoss_down, fun hl => ?_, fun speed width hm ha hp hj => ⟨fun h => ?_, fun hc h6 => ?_⟩⟩
  · have hmem : s.linkLoss.mem = s.mem := s.linkLoss_mem
    have hfuses : s.linkLoss.fuses = s.fuses := s.linkLoss_fuses
    have hheat := s.unlinked_heat
    obtain ⟨hsession, hkeys⟩ := s.unlinked_mbx
    rw [State.linkLoss_up hl] at hmem hfuses ⊢
    generalize s.unlinked = w at *
    exact ⟨rfl, rfl, rfl, rfl, rfl, rfl, rfl, rfl, hsession, hkeys, hmem, hfuses, hheat⟩
  · rw [exec_cxlLinkTrained, State.linkTrained_up hm ha hp hj h]
  · rw [exec_cxlLinkTrained, State.linkTrained_early hc h6]

end Sys2Proof.Machine
end

section
/-! SUPPORT. Host accesses through a decoder and the snoop filter, with the statement that it settles (12 R288 to R290, 16 R365). -/

namespace Sys2Proof.Machine

/-! ## Reads (R289, R290) -/

/-- An access outside its decoder's window reaches nothing. -/
theorem State.hostMemRead_missed {s : State} {d ofs n : Nat} (h : s.hdmHit d ofs n = false) (cached : Bool) :
    s.hostMemRead d ofs n cached = s := if_pos (by simp [h])

section
variable {s : State} {d ofs n : Nat} (hh : s.hdmHit d ofs n = true)
include hh

/-- A rejected read is reported and answered so. -/
theorem State.hostMemRead_rejected (hr : s.hostRejected ((s.hdmTarget d).1 + ofs) n false = true) (cached : Bool) :
    s.hostMemRead d ofs n cached =
      (s.raise evXlate iodUnit 0 (xlateData ((s.hdmTarget d).1 + ofs) false 4)).emit .memReject := by
  simp only [State.hostMemRead, hh, hr, Bool.not_true, Bool.false_eq_true, if_false, if_true]

variable (hr : s.hostRejected ((s.hdmTarget d).1 + ofs) n false = false)
include hr

/-- A read that is granted no line is served. -/
theorem State.hostMemRead_uncached {cached : Bool} (hc : cached = false ∨ (s.running &&
      (s.inPlan ((s.hdmTarget d).1 + ofs) || s.inPlan ((s.hdmTarget d).1 + ofs + n - 1))) = true) :
    s.hostMemRead d ofs n cached = s.serveRead ((s.hdmTarget d).1 + ofs) n false := by
  have hgrant : (cached && !(s.running && (s.inPlan ((s.hdmTarget d).1 + ofs) || s.inPlan ((s.hdmTarget d).1 + ofs + n - 1)))) = false := by
    rcases hc with hc | hc <;> simp [hc]
  simp only [State.hostMemRead, hh, hr, hgrant, Bool.not_true, Bool.false_and, Bool.false_eq_true, if_false]

variable (hp : (s.running && (s.inPlan ((s.hdmTarget d).1 + ofs) || s.inPlan ((s.hdmTarget d).1 + ofs + n - 1))) = false)
include hp

/-- One in a cached state is granted its lines where the filter has room for them. -/
theorem State.hostMemRead_cached (he : s.excess ((s.hdmTarget d).1 + ofs) n = 0) :
    s.hostMemRead d ofs n true = s.serveRead ((s.hdmTarget d).1 + ofs) n true := by
  simp only [State.hostMemRead, hh, hr, hp, he, Bool.not_true, Bool.not_false, Bool.true_and, Nat.lt_irrefl, decide_false,
    Bool.false_eq_true, if_false]

/-- Else it waits until the lines granted longest ago have come back. -/
theorem State.hostMemRead_waits (he : 0 < s.excess ((s.hdmTarget d).1 + ofs) n) :
    s.hostMemRead d ofs n true =
      (let w := ((s.port.hostLines.filter fun l => decide (l ∉ linesOf ((s.hdmTarget d).1 + ofs) n)).take
         (s.excess ((s.hdmTarget d).1 + ofs) n)).foldl State.backInvalidate s
       { w with port := { w.port with waitReads := w.port.waitReads ++ [(d, ofs, n)] } }) := by
  simp only [State.hostMemRead, hh, hr, hp, he, Bool.not_true, Bool.not_false, Bool.true_and, decide_true, Bool.false_eq_true, if_false,
    if_true]

end

/-! ## Writes (R289) -/

/-- A write outside its decoder's window reaches nothing. -/
theorem State.hostMemWrite_missed {s : State} {d ofs : Nat} {data : List Byte} (h : s.hdmHit d ofs data.length = false) :
    s.hostMemWrite d ofs data = s := if_pos (by simp [h])

section
variable {s : State} {d ofs : Nat} {data : List Byte} (hh : s.hdmHit d ofs data.length = true)
include hh

/-- A rejected write is reported and dropped. -/
theorem State.hostMemWrite_rejected
    (hr : (s.snoop 125 0x8 0 (addrBlocks ((s.hdmTarget d).1 + ofs) data)).hostRejected ((s.hdmTarget d).1 + ofs) data.length true = true) :
    s.hostMemWrite d ofs data = ((s.snoop 125 0x8 0 (addrBlocks ((s.hdmTarget d).1 + ofs) data)).raise evXlate iodUnit 0
      (xlateData ((s.hdmTarget d).1 + ofs) true 4)).emit (.writeDone false) := by
  simp only [State.hostMemWrite, hh, hr, Bool.not_true, Bool.false_eq_true, if_false, if_true]

/-- Any other one is served, past the link ends on its way. -/
theorem State.hostMemWrite_served
    (hr : (s.snoop 125 0x8 0 (addrBlocks ((s.hdmTarget d).1 + ofs) data)).hostRejected ((s.hdmTarget d).1 + ofs) data.length true = false) :
    s.hostMemWrite d ofs data = ((((s.snoop 125 0x8 0 (addrBlocks ((s.hdmTarget d).1 + ofs) data)).carry iodUnit true
      ((s.hdmTarget d).1 + ofs) 0x8 0 (addrBlocks ((s.hdmTarget d).1 + ofs) data)).writeMem ((s.hdmTarget d).1 + ofs) data).2).emit
        (.writeDone true) := by
  simp only [State.hostMemWrite, hh, hr, Bool.not_true, Bool.false_eq_true, if_false]

end

/-! ## The snoop filter (R290) -/

/-- A line that the host gives up is back: no operation waits for it any more. -/
def State.lineBack (s : State) (line : Nat) : State :=
  { s with
    port := { s.port with bisnp := s.port.bisnp.filter (· ≠ line), hostLines := s.port.hostLines.filter (· ≠ line) },
    ops := s.ops.map fun o => { o with waitFor := o.waitFor.filter (· ≠ line) } }

/-- The host gives up a line that was called back: with its data, if it had changed it, and the reads that waited are tried again. -/
theorem bisnpResponseOp_answers {s : State} {line : Nat} (hl : s.linkLive = true) (hm : line ∈ s.port.bisnp) :
    bisnpResponseOp line none s = (s.lineBack line).retryReads ∧
    ∀ b, bisnpResponseOp line (some b) s =
      (((s.lineBack line).snoop 125 0x8 0 (addrBlocks line (slice b 0 64))).writeMem line (slice b 0 64)).2.retryReads := by
  have hopen : ¬ (!s.linkLive || decide (line ∉ s.port.bisnp)) = true := by simp [hl, hm]
  exact ⟨if_neg hopen, fun b => if_neg hopen⟩

/-- An answer for a line that was not called back is none. -/
theorem bisnpResponseOp_stray {s : State} {line : Nat} (h : s.linkLive = false ∨ line ∉ s.port.bisnp) (b : Option (List Byte)) :
    bisnpResponseOp line b s = s := by
  have hclosed : (!s.linkLive || decide (line ∉ s.port.bisnp)) = true := by simpa using h
  exact if_pos hclosed

/-- Where no read waits, none is tried again. -/
theorem State.retryReads_nil {s : State} (h : s.port.waitReads = []) : s.retryReads = s := by
  have hport : ({ s.port with waitReads := [] } : Port) = s.port := by rw [← h]
  rw [State.retryReads, h, hport]
  rfl

/-- Settles O48: reads and writes by the window, the checks and the filter, and what comes back from the host. -/
theorem hostAccessesAreServedOrRejected : Obligations.HostAccessesAreServedOrRejected := by
  intro s d ofs
  simp only [exec_hostMemRead, exec_hostMemWrite, exec_hostSnoop, exec_hdmDecoderProgram, exec_bisnpResponse]
  refine ⟨fun n cached h => ?_, fun data h => ?_, ⟨fun n cached hh hr hc => ?_, fun n hh hr hp he => ?_, fun n hh hr hp he => ?_,
    fun n cached hh hr => ?_, fun data hh => ⟨fun hr => ?_, fun hr => ?_⟩⟩, fun line hl => ?_, fun base hl hd => ?_,
    fun line hl hm => ?_, fun line b h => ?_, State.retryReads_nil, fun x rest h => ?_⟩
  · rw [State.hostMemRead_missed h]
  · rw [State.hostMemWrite_missed h]
  · rw [State.hostMemRead_uncached hh hr hc]
    rfl
  · rw [State.hostMemRead_cached hh hr hp he]
    rfl
  · rw [State.hostMemRead_waits hh hr hp he]
  · rw [State.hostMemRead_rejected hh hr]
  · rw [State.hostMemWrite_served hh hr]
  · rw [State.hostMemWrite_rejected hh hr]
  · rw [State.hostSnoopAnswer, if_pos hl]
    rfl
  · rw [State.hdmProgram, if_pos (by simp [hl, hd])]
  · obtain ⟨hnone, hsome⟩ := bisnpResponseOp_answers hl hm
    exact ⟨by rw [hnone]; rfl, fun b => by rw [hsome]; rfl⟩
  · rw [bisnpResponseOp_stray h]
  · rw [State.retryReads, h]

end Sys2Proof.Machine
end

section
/-! SUPPORT. Register writes and the fields that they reach, with the statement that it settles (12 R287, R291, 14 R359, 15 R389, 16 R394 to R398,
R402, R403, R412 to R415). -/

namespace Sys2Proof.Machine

/-! ## Which part takes a write (R287, R394, R395, R398) -/

/-- A write that no link brings, or past BAR0, does nothing. -/
theorem State.regWrite_unreached {s : State} {ofs : Nat} (size v : Nat) (h : s.linkLive = false ∨ 0x200000 ≤ ofs) :
    s.regWrite ofs size v = s := by
  have hunreached : (!s.linkLive || decide (0x200000 ≤ ofs)) = true := by simpa using h
  exact if_pos hunreached

section
variable {s : State} {ofs size : Nat} (v : Nat) (hl : s.linkLive = true) (ho : ofs < 0x200000)
include hl ho

/-- One that is not aligned is ignored and counted, in crucible mode ignored. -/
theorem State.regWrite_misaligned (ha : ¬ ((size = 4 ∧ ofs % 4 = 0) ∨ (size = 8 ∧ ofs % 8 = 0))) :
    s.regWrite ofs size v = if s.inCrucible then s else s.accessError := by
  have hreached : ¬ (!s.linkLive || decide (0x200000 ≤ ofs)) = true := by simp [hl, ho]
  exact (if_neg hreached).trans (if_pos ha)

/-- An aligned one goes to the mailbox, the MSI-X table, or its block. -/
theorem State.regWrite_aligned (ha : (size = 4 ∧ ofs % 4 = 0) ∨ (size = 8 ∧ ofs % 8 = 0)) :
    s.regWrite ofs size v =
      if 0x1E0000 ≤ ofs ∧ ofs < 0x1F0000 then s.mailboxWrite (ofs - 0x1E0000) size v else
      if 0x1F0000 ≤ ofs then s.msixWrite (ofs - 0x1F0000) size v else
      if s.inCrucible then s else
      s.blockWrite (ofs / 8 * 8) (mergeReg (s.readReg (ofs / 8 * 8)) ofs size v) (mergeReg 0 ofs size v) := by
  have hreached : ¬ (!s.linkLive || decide (0x200000 ≤ ofs)) = true := by simp [hl, ho]
  exact (if_neg hreached).trans (if_neg (not_not.mpr ha))

end

/-- A whole register takes the value. -/
theorem mergeReg_whole (old ofs : Nat) {v : Nat} (hv : v < 2 ^ 64) : mergeReg old ofs 8 v = v :=
  (if_pos rfl).trans (Nat.mod_eq_of_lt hv)

/-- The low half takes the value, and the high half stays. -/
theorem mergeReg_low (old v : Nat) {ofs : Nat} (h : ofs % 8 = 0) :
    mergeReg old ofs 4 v % 2 ^ 32 = v % 2 ^ 32 ∧ mergeReg old ofs 4 v / 2 ^ 32 = old / 2 ^ 32 := by
  simp only [mergeReg, h, if_true, Nat.reduceEqDiff, if_false]
  omega

/-- The high half takes the value, and the low half stays. -/
theorem mergeReg_high (old v : Nat) {ofs : Nat} (h : ofs % 8 ≠ 0) :
    mergeReg old ofs 4 v % 2 ^ 32 = old % 2 ^ 32 ∧ mergeReg old ofs 4 v / 2 ^ 32 = v % 2 ^ 32 := by
  simp only [mergeReg, h, Nat.reduceEqDiff, if_false]
  omega

/-! ## The blocks (R359, R402, R403, R407, R412, R414) -/

/-- Below the ring block nothing is written. -/
theorem State.blockWrite_below (s : State) {o : Nat} (new go : Nat) (h : o < 0x2000) : s.blockWrite o new go = s := by
  unfold State.blockWrite
  exact if_pos h

/-- The ring block takes the writes of its offsets. -/
theorem State.blockWrite_rings (s : State) {o : Nat} (new go : Nat) (h1 : 0x2000 ≤ o) (h2 : o < 0x3000) :
    s.blockWrite o new go = s.ringsWrite (o - 0x2000) new := by
  unfold State.blockWrite
  exact (if_neg (Nat.not_lt.mpr h1)).trans (if_pos h2)

/-- The offsets past the ring block that blockWrite names one by one. -/
def namedOffsets : List Nat :=
  [0x3000, 0x3008, 0x3010, 0x30F0, 0x4000, 0x40F0, 0x6000, 0x6008, 0x7000, 0x8000, 0xA000, 0xA008, 0xA0F0]

/-- Any other offset there lies in the severity map, in the split-write test, in a snooper, or is read-only. -/
theorem State.blockWrite_other (s : State) {o : Nat} (new go : Nat) (h : 0x3000 ≤ o) (hn : o ∉ namedOffsets) :
    s.blockWrite o new go =
      if 0x5000 ≤ o ∧ o < 0x5050 then s.severityWrite ((o - 0x5000) / 8) new else
      if 0x9000 ≤ o ∧ o < 0xA000 then s.splitWriteReg (o - 0x9000) new go else
      if 0x10000 ≤ o ∧ o < 0x11FC0 then s.snooperWrite ((o - 0x10000) / 64) (o % 64) new else s := by
  simp only [namedOffsets, List.mem_cons, List.not_mem_nil, or_false, not_or] at hn
  obtain ⟨h0, h1, h2, h3, h4, h5, h6, h7, h8, h9, h10, h11, h12⟩ := hn
  rw [State.blockWrite, if_neg (by omega), if_neg (by omega)]
  all_goals assumption

/-- A read-only or reserved offset keeps its value. -/
theorem State.blockWrite_readOnly (s : State) {o : Nat} (new go : Nat) (h : o < 0x2000 ∨ (0x2128 < o ∧ o < 0x3000) ∨
    (0x3010 < o ∧ o < 0x30F0) ∨ (0x8008 ≤ o ∧ o < 0x9000) ∨ (0x11FC0 ≤ o)) : s.blockWrite o new go = s := by
  by_cases hlow : o < 0x2000
  · exact s.blockWrite_below new go hlow
  by_cases hring : o < 0x3000
  · rw [s.blockWrite_rings new go (by omega) hring, State.ringsWrite, if_neg (by omega)]
    all_goals omega
  · rw [s.blockWrite_other new go (by omega) (by simp [namedOffsets]; omega), if_neg (by omega), if_neg (by omega), if_neg (by omega)]

/-- BASE of a submission ring. -/
theorem State.blockWrite_base (s : State) {r : Nat} (new go : Nat) (hr : r < 8) :
    s.blockWrite (0x2000 + 32 * r) new go = s.writeRingBase (.sq r) new := by
  have hofs : (0x2000 + 32 * r - 0x2000) / 32 = r := by omega
  rw [s.blockWrite_rings new go (by omega) (by omega)]
  unfold State.ringsWrite
  rw [if_pos (by omega), if_pos (by omega), hofs]

/-- The event vectors, in which no reserved bit may be set. -/
theorem State.blockWrite_vectors (s : State) (new go : Nat) : s.blockWrite 0x2120 new go =
    if ((List.range 5).any fun i => bitOf new (8 * i + 6)) = true then s else
      { s with port := { s.port with evtVec := new % 2 ^ 40 } } := s.blockWrite_rings new go (by decide) (by decide)

/-- SEV_w of the severity map. -/
theorem State.blockWrite_severity (s : State) {w : Nat} (new go : Nat) (hw : w ≤ 9) :
    s.blockWrite (0x5000 + 8 * w) new go = s.severityWrite w new := by
  have hofs : (0x5000 + 8 * w - 0x5000) / 8 = w := by omega
  rw [s.blockWrite_other new go (by omega) (by simp [namedOffsets]; omega), if_pos (by omega), hofs]

/-- A register of the split-write test. -/
theorem State.blockWrite_split (s : State) {o : Nat} (new go : Nat) (h1 : 0x9000 ≤ o) (h2 : o < 0xA000) :
    s.blockWrite o new go = s.splitWriteReg (o - 0x9000) new go := by
  rw [s.blockWrite_other new go (by omega) (by simp [namedOffsets]; omega), if_neg (by omega), if_pos ⟨h1, h2⟩]

/-- While no test runs, each of its first registers is an installer field. -/
theorem State.splitWriteReg_fields {s : State} (new go : Nat) (hb : s.regs.splitBusy = false) :
    s.splitWriteReg 0x00 new go = s.installerWrite 0x9000 new (fun w => { w with regs := { w.regs with splitA := new % 2 ^ 56 } }) ∧
    s.splitWriteReg 0x08 new go = s.installerWrite 0x9008 new (fun w => { w with regs := { w.regs with splitD := new } }) ∧
    s.splitWriteReg 0x10 new go = s.installerWrite 0x9010 new (fun w => { w with regs := { w.regs with splitD2 := new } }) ∧
    s.splitWriteReg 0x18 new go = s.installerWrite 0x9018 new (fun w => { w with regs := { w.regs with splitA2 := new % 2 ^ 56 } }) := by
  have hidle : ¬ s.regs.splitBusy = true := by simp [hb]
  exact ⟨if_neg hidle, if_neg hidle, if_neg hidle, if_neg hidle⟩

/-- A register of a snooper. -/
theorem State.blockWrite_snooper (s : State) {o n k : Nat} (new go : Nat) (hn : n < 127) (hk : k < 64) (ho : o = 0x10000 + 64 * n + k) :
    s.blockWrite o new go = s.snooperWrite n k new := by
  have hnum : (o - 0x10000) / 64 = n := by omega
  have hofs : o % 64 = k := by omega
  rw [s.blockWrite_other new go (by omega) (by simp [namedOffsets]; omega), if_neg (by omega), if_neg (by omega), if_pos (by omega),
    hnum, hofs]

/-- A fenced snooper ignores a write. -/
theorem State.snooperWrite_fenced {s : State} {n : Nat} (ofs v : Nat) (h : s.fencedNow (snooperUnit n) = true) : s.snooperWrite n ofs v = s :=
  if_pos h

/-- A ring that is on keeps its base, and the write is counted; one that is off takes it. -/
theorem State.writeRingBase_sq (s : State) (r v : Nat) : s.writeRingBase (.sq r) v =
    if (s.ring r).enable then s.accessError else s.setRing r fun q => { q with base := v } := rfl

/-- A field kept in flash waits for its write, under an installer session. -/
theorem State.flashField_queued {s : State} (ofs v : Nat) (hs : 2 ≤ s.mbx.session) (hf : s.audit.flashOk = true) :
    s.flashField ofs v = { s with regs := { s.regs with flashWrites := s.regs.flashWrites ++ [(ofs, v)] } } := by
  rw [State.flashField, if_neg (Nat.not_lt.mpr hs), if_neg (by simp [hf])]
  rfl

/-! ## The mailbox and the MSI-X table (R287, R415) -/

/-- The request buffer takes what is written. -/
theorem State.mailboxWrite_request (s : State) {i : Nat} (size v : Nat) (hi : i < 4096) : s.mailboxWrite (0x1000 + i) size v =
    { s with mbx := { s.mbx with request := patch s.mbx.request i (natLe size v) } } := by
  rw [State.mailboxWrite, if_pos (by omega), Nat.add_sub_cancel_left]

/-- So does the response buffer. -/
theorem State.mailboxWrite_response (s : State) {i : Nat} (size v : Nat) (hi : i < 4096) : s.mailboxWrite (0x2000 + i) size v =
    { s with mbx := { s.mbx with response := patch s.mbx.response i (natLe size v) } } := by
  rw [State.mailboxWrite, if_neg (by omega), if_pos (by omega), Nat.add_sub_cancel_left]

/-- An entry of the table takes what is written, and none whose pending bit is clear sends a message. -/
theorem State.msixWrite_entry {s : State} {o i size v new : Nat} (ho : o < 1024) (hi : o / 16 = i)
    (hnew : mergeReg (s.readMsix (o / 8 * 8)) o size v = new) (hp : i ∉ s.port.msixPending) :
    s.msixWrite o size v = { s with port := { s.port with msix := setAt s.port.msix i fun e =>
      if o % 16 < 8 then { e with addr := new } else { e with data := new % 2 ^ 32, mask := bitOf new 32 } } } := by
  subst hi hnew
  rw [State.msixWrite, if_neg (by omega)]
  dsimp only
  split
  · exact if_neg fun h => hp h.2
  · rfl

/-! ## Flash (R389, R396) -/

/-- With no field waiting, the end of a flash write does nothing. -/
theorem State.flashDone_nil {s : State} (ok : Bool) (h : s.regs.flashWrites = []) : s.flashDone ok = s := by
  simp only [State.flashDone, h]

section
variable {s : State} {ofs x : Nat} {rest : List (Nat × Nat)} (h : s.regs.flashWrites = (ofs, x) :: rest)
include h

/-- In flash, the oldest field takes its value, and the entry is made. -/
theorem State.flashDone_written : s.flashDone true = State.auditLate
    { s with regs :=
      if ofs = 0x6000 then { s.regs with flashWrites := rest, policy := x } else
      if ofs = 0x7000 then { s.regs with flashWrites := rest, lpCfg := x } else { s.regs with flashWrites := rest, flashRank := x } }
    0x10 2 stOk s.mbx.sessionKey (fieldObject ofs x) := by
  simp only [State.flashDone, h]
  rfl

/-- Not in flash, it keeps its old value, and flash accepts no writes. -/
theorem State.flashDone_failed : s.flashDone false =
    { s with
      regs := if ofs = 0x3010 then { s.regs with flashWrites := rest, pourSync := { s.regs.pourSync with
          active := setAt s.regs.pourSync.active 2 fun _ => s.regs.flashRank, status := stConfig } }
        else { s.regs with flashWrites := rest },
      audit := { s.audit with flashOk := false } } := by
  simp only [State.flashDone, h]
  rfl

end

/-! ## The statement -/

/-- Settles O44: the part that a write reaches, the halves that it carries, the block's field, the mailbox, the table, and flash. -/
theorem registerWritesReachTheirFields : Obligations.RegisterWritesReachTheirFields := by
  intro s v
  have hv : v.toNat < 2 ^ 64 := v.isLt
  simp only [exec_registerWrite, exec_installerFieldFlashWrite]
  refine ⟨fun ofs size h => ?_, fun ofs size hl ho ha => ?_, fun ofs size hl ho ha => ?_,
    fun old ofs _ => ⟨mergeReg_whole old ofs hv, mergeReg_low old v.toNat, mergeReg_high old v.toNat⟩, fun new go => ?_,
    fun i size hi => ⟨s.mailboxWrite_request size _ hi, s.mailboxWrite_response size _ hi⟩, fun i hi hp => ⟨?_, ?_⟩,
    fun ofs x rest h => ⟨?_, ?_⟩, fun h ok => ?_⟩
  · rw [State.regWrite_unreached size _ h]
  · rw [State.regWrite_misaligned _ hl ho ha]
    rfl
  · rw [State.regWrite_aligned _ hl ho ha]
  · refine ⟨fun o ho => s.blockWrite_readOnly new go ho, fun r hr he => ?_, fun r hr he => ?_, rfl, fun h => ?_, fun h => ?_, rfl, rfl, rfl,
      rfl, rfl, rfl, fun e he => ?_, fun w hw => s.blockWrite_severity new go hw, rfl, rfl, fun hb => ?_,
      fun n hn hf => ⟨?_, ?_, ?_⟩, fun n hn hf k hk => ?_, fun hs hf => ⟨?_, fun h => ?_, fun h => ?_⟩⟩
    · rw [s.blockWrite_base new go hr, s.writeRingBase_sq, he]
      rfl
    · rw [s.blockWrite_base new go hr, s.writeRingBase_sq, he]
      rfl
    · rw [s.blockWrite_vectors new go]
      exact if_neg (by simpa using h)
    · rw [s.blockWrite_vectors new go]
      exact if_pos (by simpa using h)
    · simp only [List.mem_cons, List.not_mem_nil, or_false] at he
      rcases he with rfl | rfl | rfl <;> rfl
    · obtain ⟨hA, hD, hD2, hA2⟩ := State.splitWriteReg_fields new go hb
      exact ⟨(s.blockWrite_split new go (by decide) (by decide)).trans hA, (s.blockWrite_split new go (by decide) (by decide)).trans hD,
        (s.blockWrite_split new go (by decide) (by decide)).trans hD2, (s.blockWrite_split new go (by decide) (by decide)).trans hA2⟩
    · exact (s.blockWrite_snooper (k := 0x00) new go hn (by decide) rfl).trans (if_neg (by simp [hf]))
    · exact (s.blockWrite_snooper (k := 0x10) new go hn (by decide) (by omega)).trans (if_neg (by simp [hf]))
    · exact (s.blockWrite_snooper (k := 0x18) new go hn (by decide) (by omega)).trans (if_neg (by simp [hf]))
    · rw [s.blockWrite_snooper new go hn (by omega : 8 * k < 64) rfl, State.snooperWrite_fenced _ _ hf]
    · exact State.flashField_queued 0x7000 _ hs hf
    · exact (if_neg h).trans (State.flashField_queued 0x6000 _ hs hf)
    · exact if_pos h
  · rw [State.msixWrite_entry (by omega) (by omega : _ = i) (mergeReg_whole _ _ hv) hp]
    simp
  · rw [State.msixWrite_entry (by omega) (by omega : _ = i) (mergeReg_whole _ _ hv) hp]
    simp
  · rw [State.flashDone_written h]
  · rw [State.flashDone_failed h]
  · rw [State.flashDone_nil ok h]

end Sys2Proof.Machine
end

section
/-! SUPPORT. The exchange of a fleet, its losses and its verdict, with the statement that it settles (13 R317 to R322, R324 to R327). -/

namespace Sys2Proof.Machine

/-! ## Without membership, and outside an exchange (R318) -/

/-- Without membership no fleet command does anything. -/
theorem fleetOps_noMember {s : State} (h : s.fleet.member = none) (tensor t rank ofs : Nat) (b : List Byte) :
    fleetUplinkOp tensor s = s ∧ fleetReduceOp t s = s ∧ fleetWriteFailedOp rank s = s ∧ fleetAcceptOp ofs b s = s ∧
    fleetFreezeOp s = s ∧ fleetDeadlineOp s = s ∧ fleetVerdictOp s = s := by
  simp [fleetUplinkOp, fleetReduceOp, fleetWriteFailedOp, fleetAcceptOp, fleetFreezeOp, fleetDeadlineOp, fleetVerdictOp, h]

section
variable {s : State} {m : Member} (hm : s.fleet.member = some m)
include hm

/-! ## The uplink (R320) -/

section
variable {tensor : Nat}

/-- A trained tensor whose root is written goes up, tile by tile, and is noted as up. -/
theorem fleetUplinkOp_sends {d : Desc} (hd : s.trainedDescs.find? (fun e => e.1 = tensor) = some (tensor, d))
    (hon : s.fleet.exch.on = true) (hw : s.wordOpen = true) (hu : tensor ∉ s.fleet.exch.uplinked)
    (hr : s.rootsWritten tensor d = true) :
    fleetUplinkOp tensor s = (List.range (tileCount d.n)).foldl (fun w L => w.uplinkTile m tensor d L)
      (s.setExch fun x => { x with uplinked := x.uplinked ++ [tensor] }) := by
  simp only [fleetUplinkOp, hm, hd]
  exact if_neg (by simp [hon, hw, hu, hr])

/-- A tensor that is not trained, is up already, or meets no open word of an exchange stays. -/
theorem fleetUplinkOp_stays (h : s.trainedDescs.find? (fun e => e.1 = tensor) = none ∨ s.fleet.exch.on = false ∨
    s.wordOpen = false ∨ tensor ∈ s.fleet.exch.uplinked) : fleetUplinkOp tensor s = s := by
  cases hd : s.trainedDescs.find? (fun e => e.1 = tensor) with
  | none => simp only [fleetUplinkOp, hm, hd]
  | some e =>
    simp only [fleetUplinkOp, hm, hd]
    simp only [hd, reduceCtorEq, false_or] at h
    refine if_pos ?_
    rcases h with h | h | h <;> simp [h]

end

/-! ## Reduction (R321, R322) -/

/-- The sums of a tile's elements over the leaves of every rank, by the canonical tree. -/
def Exchange.tileSums (x : Exchange) (m : Member) (t count : Nat) : List Pair :=
  (List.range count).map fun k => treeRoot pairAdd pair0 (x.leafPairs m t k)

/-- The owner of tile t writes its final pairs, adds the downlink's error to its residual, and sends the tile down. -/
def State.reduceTile (s : State) (m : Member) (t tensor : Nat) (d : Desc) (L : Nat) : State :=
  let count := (tileOrder d.n L).length
  let sums := s.fleet.exch.tileSums m t count
  let hi := sums.map (·.hi)
  let b := wireTile m.wire d.n L hi
  let q := wireVals m.wire d.n L b
  let e := ((s.wireNonfinite (s.layerOfTensor tensor) m.wire L d.n hi).writePairs tensor d.n L q).readRes32 m (1 - m.half) tensor L count
  let err := (e.1.zip (sums.zip q)).map fun y => fadd y.1 (fadd (fsub y.2.1.hi y.2.2) y.2.1.lo)
  let w := (e.2.writeRes32 m (1 - m.half) tensor L err).setExch fun x => { x with reduced := x.reduced ++ [t] }
  (m.present.filter fun r => r ≠ m.rank).foldl (fun w r =>
    w.sendMsg m (m.downSlot (tileTotal s.trainedDescs) t) (w.header m 2 r tensor L 0 0) (wireBytes b)) w

section
variable {t : Nat}

/-- The owner reduces a tile whose leaves are in, once. -/
theorem fleetReduceOp_reduces {tensor : Nat} {d : Desc} {L : Nat} (ht : tileAtPos s.trainedDescs t = some (tensor, d, L))
    (hon : s.fleet.exch.on = true) (hw : s.wordOpen = true) (ho : m.owner (tileTotal s.trainedDescs) t = m.rank)
    (hr : t ∉ s.fleet.exch.reduced) (hl : s.fleet.exch.leavesIn m t = true) :
    fleetReduceOp t s = s.reduceTile m t tensor d L := by
  simp only [fleetReduceOp, hm, ht]
  exact if_neg (by simp [hon, hw, ho, hr, hl])

/-- A tile that is not in the list, another's, reduced already, without all its leaves, or without an open word of an exchange stays. -/
theorem fleetReduceOp_stays (h : tileAtPos s.trainedDescs t = none ∨ s.fleet.exch.on = false ∨ s.wordOpen = false ∨
    m.owner (tileTotal s.trainedDescs) t ≠ m.rank ∨ t ∈ s.fleet.exch.reduced ∨ s.fleet.exch.leavesIn m t = false) :
    fleetReduceOp t s = s := by
  cases ht : tileAtPos s.trainedDescs t with
  | none => simp only [fleetReduceOp, hm, ht]
  | some e =>
    simp only [fleetReduceOp, hm, ht]
    simp only [ht, reduceCtorEq, false_or] at h
    refine if_pos ?_
    rcases h with h | h | h | h | h <;> simp [h]

end

/-! ## A write that failed (R327) -/

section
variable {rank : Nat}

/-- A present partner to which a write failed is lost. -/
theorem fleetWriteFailedOp_loses (hp : rank ∈ m.present) (hne : rank ≠ m.rank) (hon : s.fleet.exch.on = true)
    (he : s.fleet.exch.ended = false) : fleetWriteFailedOp rank s = s.losePeer m rank 1 0 := by
  simp only [fleetWriteFailedOp, hm]
  exact if_pos (by simp [hp, hne, hon, he])

/-- No other rank is lost by a failed write, and none outside an exchange that goes on. -/
theorem fleetWriteFailedOp_keeps (h : s.fleet.exch.on = false ∨ rank ∉ m.present ∨ rank = m.rank ∨ s.fleet.exch.ended = true) :
    fleetWriteFailedOp rank s = s := by
  simp only [fleetWriteFailedOp, hm]
  refine if_neg ?_
  rcases h with h | h | h | h <;> simp [h]

end

/-! ## The word is frozen (R324) -/

/-- The exchange is done, sent uplinks and downlinks counting as complete (log 41): the word is frozen. -/
theorem fleetFreezeOp_freezes (hon : s.fleet.exch.on = true) (hv : s.inVerdict = true) (hf : s.fleet.exch.frozen = none)
    (hd : s.exchangeDone m = true) : fleetFreezeOp s = s.freezeWord m := by
  simp only [fleetFreezeOp, hm]
  exact if_pos (by simp [hon, hv, hf, hd])

/-- Before that, and outside VERDICT, it is not; nor a second time. -/
theorem fleetFreezeOp_waits (h : s.fleet.exch.on = false ∨ s.inVerdict = false ∨ s.fleet.exch.frozen ≠ none ∨
    s.exchangeDone m = false) : fleetFreezeOp s = s := by
  simp only [fleetFreezeOp, hm]
  refine if_neg ?_
  rcases h with h | h | h | h <;> simp [h]

/-- The deadline has passed: whose message is missing is lost, and the word is frozen. -/
theorem fleetDeadlineOp_freezes (hon : s.fleet.exch.on = true) (hv : s.inVerdict = true) (hf : s.fleet.exch.frozen = none)
    (hd : m.deadline ≤ s.fleet.exch.slots) : fleetDeadlineOp s =
      ((m.present.filter fun r => decide (r ≠ m.rank) && !(s.missingFrom m r).isEmpty).foldl (fun w r => w.losePeer m r 0 0) s).freezeWord m := by
  simp only [fleetDeadlineOp, hm]
  exact if_neg (by simp [hon, hv, hf, Nat.not_lt.mpr hd])

/-- Before the deadline, and outside VERDICT, nobody is lost for it; nor once the word is frozen. -/
theorem fleetDeadlineOp_waits (h : s.fleet.exch.on = false ∨ s.inVerdict = false ∨ s.fleet.exch.frozen ≠ none ∨
    s.fleet.exch.slots < m.deadline) : fleetDeadlineOp s = s := by
  simp only [fleetDeadlineOp, hm]
  refine if_pos ?_
  rcases h with h | h | h | h <;> simp [h, Option.isSome_iff_ne_none]

end

/-! ## The verdict ends (R325) -/

/-- The present partners whose status is missing. -/
def State.lacking (s : State) (m : Member) : List Nat :=
  m.present.filter fun r => decide (r ≠ m.rank) && !s.fleet.exch.statuses.any fun e => e.1 = r

/-- The exchange has ended, with its combined word fixed. -/
def State.endVerdict (s : State) (m : Member) : State :=
  let c := s.fleet.exch.combine
  let w := s.setExch fun x => { x with ended := true, fleetFst := if c = 0 then 0 else x.fleetFirst m.rank }
  { w with heat := { w.heat with fixed := some c } }

section
variable {s : State} {m : Member} (hm : s.fleet.member = some m)
include hm

/-- An exchange whose word is frozen ends, once every status is in or 64 slots after the deadline; who is missing then is lost. -/
theorem fleetVerdictOp_ends (hon : s.fleet.exch.on = true) (hv : s.inVerdict = true) (hf : s.fleet.exch.frozen ≠ none)
    (he : s.fleet.exch.ended = false) (h : s.lacking m = [] ∨ m.deadline + 64 ≤ s.fleet.exch.slots + 1) :
    fleetVerdictOp s = ((s.lacking m).foldl (fun w r => w.losePeer m r 0 0) s).endVerdict m := by
  have hopen : ¬ (!(s.fleet.exch.on && s.inVerdict && s.fleet.exch.frozen.isSome) || s.fleet.exch.ended) = true := by
    simp [hon, hv, he, Option.isSome_iff_ne_none.mpr hf]
  have hdue : ¬ (!(s.lacking m).isEmpty && decide (s.fleet.exch.slots + 1 < m.deadline + 64)) = true := by
    rcases h with h | h
    · simp [h]
    · simp [Nat.not_lt.mpr h]
  simp only [fleetVerdictOp, hm]
  exact (if_neg hopen).trans (if_neg hdue)

/-- Before that it goes on while a status is missing. -/
theorem fleetVerdictOp_waits (hl : s.lacking m ≠ []) (hs : s.fleet.exch.slots + 1 < m.deadline + 64) : fleetVerdictOp s = s := by
  have hlate : (!(s.lacking m).isEmpty && decide (s.fleet.exch.slots + 1 < m.deadline + 64)) = true := by simp [hl, hs]
  simp only [fleetVerdictOp, hm]
  exact (ite_congr rfl (fun _ => rfl) fun _ => if_pos hlate).trans (ite_self s)

/-- Outside VERDICT, with no word frozen, and once the exchange has ended, nothing ends. -/
theorem fleetVerdictOp_idle (h : s.fleet.exch.on = false ∨ s.inVerdict = false ∨ s.fleet.exch.frozen = none ∨
    s.fleet.exch.ended = true) : fleetVerdictOp s = s := by
  simp only [fleetVerdictOp, hm]
  refine if_pos ?_
  rcases h with h | h | h | h <;> simp [h]

end

/-! ## A message (R318, R319, R322) -/

/-- The state in which a message has landed in the receive area, past the link's snooper. -/
def State.landed (s : State) (m : Member) (ofs : Nat) (b : List Byte) : State :=
  (s.writeMem (m.rxBase + ofs) b).2.snoop 125 0x6 (MsgHdr.dec b).tensor (addrBlocks (m.rxBase + ofs) b)

/-- What the engine does on a message that has landed. -/
def State.takeMsg (s : State) (m : Member) (ofs : Nat) (b : List Byte) : State :=
  let h := MsgHdr.dec b
  if !headerPasses m b then { s with fleet := { s.fleet with ignored := s.fleet.ignored + 1 } } else
  if !s.fleet.exch.on || s.fleet.exch.ended || decide (s.slotOf m h ≠ some ofs) then s else
  if h.fseq < m.fseq then s else
  if h.fseq ≠ m.fseq ∨ h.heat ≠ s.fleet.exch.heatNum ∨ h.updates ≠ s.fleet.exch.updates then s.losePeer m h.src 2 h.heat else
  s.acceptMsg m h b

/-- Without a link, and past the receive area, nothing lands. -/
theorem fleetAcceptOp_misses {s : State} {m : Member} (hm : s.fleet.member = some m) {ofs : Nat} {b : List Byte}
    (h : s.linkLive = false ∨ m.rxLen < ofs + b.length) : fleetAcceptOp ofs b s = s := by
  simp only [fleetAcceptOp, hm]
  exact if_pos (by simpa using h)

/-- Any other message lands, and the engine takes it. -/
theorem fleetAcceptOp_takes {s : State} {m : Member} (hm : s.fleet.member = some m) {ofs : Nat} {b : List Byte}
    (hl : s.linkLive = true) (hn : ofs + b.length ≤ m.rxLen) : fleetAcceptOp ofs b s = (s.landed m ofs b).takeMsg m ofs b := by
  simp only [fleetAcceptOp, hm]
  exact if_neg (by simp [hl, hn])

section
variable {s : State} {m : Member} {ofs : Nat} {b : List Byte}

/-- A header that does not fit is ignored and counted. -/
theorem State.takeMsg_ignored (h : headerPasses m b = false) :
    s.takeMsg m ofs b = { s with fleet := { s.fleet with ignored := s.fleet.ignored + 1 } } := if_pos (by simp [h])

variable (hp : headerPasses m b = true)
include hp

/-- Outside an exchange that goes on, and in a slot that is not its own, a message is dropped without a count (log 40). -/
theorem State.takeMsg_misplaced (h : s.fleet.exch.on = false ∨ s.fleet.exch.ended = true ∨ s.slotOf m (MsgHdr.dec b) ≠ some ofs) :
    s.takeMsg m ofs b = s := by
  refine (if_neg (by simp [hp])).trans (if_pos ?_)
  rcases h with h | h | h <;> simp [h]

variable (hon : s.fleet.exch.on = true) (he : s.fleet.exch.ended = false) (hs : s.slotOf m (MsgHdr.dec b) = some ofs)
include hon he hs

/-- In its slot, a message is judged by the exchange that it names. -/
theorem State.takeMsg_inSlot : s.takeMsg m ofs b =
    if (MsgHdr.dec b).fseq < m.fseq then s else
    if (MsgHdr.dec b).fseq ≠ m.fseq ∨ (MsgHdr.dec b).heat ≠ s.fleet.exch.heatNum ∨ (MsgHdr.dec b).updates ≠ s.fleet.exch.updates then
      s.losePeer m (MsgHdr.dec b).src 2 (MsgHdr.dec b).heat
    else s.acceptMsg m (MsgHdr.dec b) b :=
  (if_neg (by simp [hp])).trans (if_neg (by simp [hon, he, hs]))

/-- One of an earlier exchange is dropped. -/
theorem State.takeMsg_earlier (h : (MsgHdr.dec b).fseq < m.fseq) : s.takeMsg m ofs b = s :=
  (State.takeMsg_inSlot hp hon he hs).trans (if_pos h)

/-- One of a later exchange, or of another heat, loses its sender. -/
theorem State.takeMsg_mismatch (hle : m.fseq ≤ (MsgHdr.dec b).fseq) (h : (MsgHdr.dec b).fseq ≠ m.fseq ∨
    (MsgHdr.dec b).heat ≠ s.fleet.exch.heatNum ∨ (MsgHdr.dec b).updates ≠ s.fleet.exch.updates) :
    s.takeMsg m ofs b = s.losePeer m (MsgHdr.dec b).src 2 (MsgHdr.dec b).heat :=
  (State.takeMsg_inSlot hp hon he hs).trans ((if_neg (Nat.not_lt.mpr hle)).trans (if_pos h))

/-- One of this attempt is accepted. -/
theorem State.takeMsg_accepted (hq : (MsgHdr.dec b).fseq = m.fseq) (hh : (MsgHdr.dec b).heat = s.fleet.exch.heatNum)
    (hu : (MsgHdr.dec b).updates = s.fleet.exch.updates) : s.takeMsg m ofs b = s.acceptMsg m (MsgHdr.dec b) b :=
  (State.takeMsg_inSlot hp hon he hs).trans ((if_neg (by simp [hq])).trans (if_neg (by simp [hq, hh, hu])))

end

section
variable {s : State} {m : Member} {h : MsgHdr} {b : List Byte}

/-- A partner's first status is noted. -/
theorem State.acceptMsg_status (hk : h.kind = 3) (hr : h.src ≠ m.rank) (hs : ∀ e ∈ s.fleet.exch.statuses, e.1 ≠ h.src) :
    s.acceptMsg m h b = s.setExch fun x => { x with statuses := x.statuses ++ [(h.src, h.status, h.first)] } := by
  simp only [State.acceptMsg, hk]
  exact if_neg (by simpa [hr] using fun status first hmem => hs (h.src, status, first) hmem rfl)

/-- A second one, and the member's own, are not. -/
theorem State.acceptMsg_repeated (hk : h.kind = 3) (hs : h.src = m.rank ∨ ∃ e ∈ s.fleet.exch.statuses, e.1 = h.src) :
    s.acceptMsg m h b = s := by
  simp only [State.acceptMsg, hk]
  exact if_pos (by simpa using hs)

section
variable {n : Nat} {d : Desc} {t : Nat} (hd : s.trainedDescs.find? (fun e => e.1 = h.tensor) = some (n, d))
  (ht : posOfTile s.trainedDescs h.tensor h.l = some t)
include hd ht

/-- An up tile goes to its sum. -/
theorem State.acceptMsg_up (hk : h.kind = 1) : s.acceptMsg m h b = s.acceptUp m h d t (b.drop 64) := by
  simp [State.acceptMsg, hk, hd, ht]

/-- A down tile goes to its region. -/
theorem State.acceptMsg_down (hk : h.kind = 2) : s.acceptMsg m h b = s.acceptDown m h d t (b.drop 64) := by
  simp [State.acceptMsg, hk, hd, ht]

end
end

/-- Settles O60: each command of the exchange by its guard, in the order of the statement. -/
theorem fleetExchangesAndAgrees : Obligations.FleetExchangesAndAgrees := by
  refine ⟨fun s hm tensor t rank ofs b e he => ?_, fun s m hm => ?_⟩
  · obtain ⟨hup, hred, hfail, hacc, hfrz, hdl, hend⟩ := fleetOps_noMember hm tensor t rank ofs b
    simp only [List.mem_cons, List.not_mem_nil, or_false] at he
    rcases he with rfl | rfl | rfl | rfl | rfl | rfl | rfl
    · rw [exec_fleetUplink, hup]
    · rw [exec_fleetReduceTile, hred]
    · rw [exec_fleetWriteFailed, hfail]
    · rw [exec_fleetMessageAccept, hacc]
    · rw [exec_fleetStatusFreeze, hfrz]
    · rw [exec_fleetDeadlineExpiry, hdl]
    · rw [exec_fleetVerdictEnd, hend]
  simp only [exec_fleetUplink, exec_fleetReduceTile, exec_fleetWriteFailed, exec_fleetMessageAccept, exec_fleetStatusFreeze,
    exec_fleetDeadlineExpiry, exec_fleetVerdictEnd]
  refine ⟨fun hoff tensor t rank e he => ?_, fun tensor d hd hon hw hu hr => ?_, fun tensor h => ?_, fun rank hp hne hon he => ?_,
    fun rank h => ?_, fun ofs b h => ?_, fun ofs b hl hn => ?_, fun t tensor d L ht hon hw ho hr hl => ?_, fun t h => ?_,
    fun hon hv hf => ⟨fun hd => ?_, fun hd => ?_, fun hd => ?_, fun hd => ?_⟩, fun h => ⟨?_, ?_⟩,
    fun w hon hv hf he => ⟨fun hl => ?_, fun hl hs => ?_, fun hl hs => ?_⟩, fun h => ?_⟩
  · simp only [List.mem_cons, List.not_mem_nil, or_false] at he
    rcases he with rfl | rfl | rfl | rfl | rfl | rfl
    · rw [exec_fleetUplink, fleetUplinkOp_stays hm (.inr (.inl hoff))]
    · rw [exec_fleetReduceTile, fleetReduceOp_stays hm (.inr (.inl hoff))]
    · rw [exec_fleetWriteFailed, fleetWriteFailedOp_keeps hm (.inl hoff)]
    · rw [exec_fleetStatusFreeze, fleetFreezeOp_waits hm (.inl hoff)]
    · rw [exec_fleetDeadlineExpiry, fleetDeadlineOp_waits hm (.inl hoff)]
    · rw [exec_fleetVerdictEnd, fleetVerdictOp_idle hm (.inl hoff)]
  · rw [fleetUplinkOp_sends hm hd hon hw hu hr]
    rfl
  · rw [fleetUplinkOp_stays hm (h.imp_right .inr)]
  · rw [fleetWriteFailedOp_loses hm hp hne hon he]
  · rw [fleetWriteFailedOp_keeps hm (.inr h)]
  · rw [fleetAcceptOp_misses hm h]
  · rw [fleetAcceptOp_takes hm hl hn, ← State.landed]
    generalize s.landed m ofs b = w
    refine ⟨fun hp => ?_, fun hp h => ?_, fun hp hon he hs => ⟨fun hq => ?_, fun hq => ?_, fun hq h => ?_, fun hq hh hu =>
      ⟨fun hk hr h => ?_, fun hk h => ?_, fun n d t hd ht => ⟨fun hk => ?_, fun hk => ?_⟩⟩⟩⟩
    · rw [State.takeMsg_ignored hp]
    · rw [State.takeMsg_misplaced hp h]
    · rw [State.takeMsg_earlier hp hon he hs hq]
    · rw [State.takeMsg_mismatch hp hon he hs hq.le (.inl hq.ne')]
    · rw [State.takeMsg_mismatch hp hon he hs hq.ge (.inr h)]
    · rw [State.takeMsg_accepted hp hon he hs hq hh hu, State.acceptMsg_status hk hr h]
      rfl
    · rw [State.takeMsg_accepted hp hon he hs hq hh hu, State.acceptMsg_repeated hk h]
    · rw [State.takeMsg_accepted hp hon he hs hq hh hu, State.acceptMsg_up hd ht hk]
    · rw [State.takeMsg_accepted hp hon he hs hq hh hu, State.acceptMsg_down hd ht hk]
  · rw [fleetReduceOp_reduces hm ht hon hw ho hr hl]
    rfl
  · rw [fleetReduceOp_stays hm (h.imp_right .inr)]
  · rw [fleetFreezeOp_freezes hm hon hv hf hd]
  · rw [fleetFreezeOp_waits hm (.inr (.inr (.inr hd)))]
  · rw [fleetDeadlineOp_freezes hm hon hv hf hd]
  · rw [fleetDeadlineOp_waits hm (.inr (.inr (.inr hd)))]
  · rw [fleetFreezeOp_waits hm (.inr (h.imp_right .inl))]
  · rw [fleetDeadlineOp_waits hm (.inr (h.imp_right .inl))]
  · have hlack : s.lacking m = [] := hl
    rw [fleetVerdictOp_ends hm hon hv (by simp [hf]) he (.inl hlack), hlack]
    rfl
  · rw [fleetVerdictOp_ends hm hon hv (by simp [hf]) he (.inr hs)]
    rfl
  · rw [fleetVerdictOp_waits hm hl hs]
  · rw [fleetVerdictOp_idle hm (.inr h)]

end Sys2Proof.Machine
end

section
/-! SUPPORT. The end of a command and the causes of a module reset, with the statements that it settles (14 R338, 15 R373, R375, 17 R424,
R430). -/

namespace Sys2Proof.Machine

/-! ## An S5 event of the command (R338) -/

/-- The reset that an event of the command made due takes place at its end. -/
theorem done_resetDue (s : State) {x : State} {b : List Byte} (h : x.events.resetDue = some b) :
    s.done x = { x.moduleReset 0x02 b with pending := s.pending } := by
  have hsettle : x.settle = x.moduleReset 0x02 b := by
    simp only [State.settle, State.settleReset, h, Option.isSome_some, if_true]
  simp only [State.done, hsettle]

/-- Settles O4: the calm end and the due reset. -/
theorem endOfCommand : Obligations.EndOfCommand := ⟨done_calm, fun s _ _ h => done_resetDue s h⟩

/-! ## Power (R424) -/

/-- From 43.0 V on a module without power starts. -/
theorem State.powerUp_starts {s : State} (hp : s.power.powered = false) {v : Nat} (hv : 430 ≤ v) : s.powerUp v = State.emit { s with
    power := { power0 with rawVolt := v }, pins := { s.pins with pwrGood := true, syncOut := false, thermTrip := true } } (.uartStage 1) :=
  (if_neg (by simp [hp])).trans (if_neg (Nat.not_lt.mpr hv))

/-- Below 43.0 V it stays off. -/
theorem State.powerUp_low {s : State} (hp : s.power.powered = false) {v : Nat} (hv : v < 430) : s.powerUp v = s :=
  (if_neg (by simp [hp])).trans (if_pos hv)

/-- The loss of the input ends the ring roles and the session with the power, without their entries. -/
theorem State.shutDown_powered {s : State} (hp : s.power.powered = true) : s.shutDown =
    (let t := State.moduleReset { s with
       port := { s.port with sq := s.port.sq.map fun q => { q with role := 0 } }, mbx := { s.mbx with session := 0 } } 0x01 []
     { t with power := { t.power with powered := false, rawVolt := 0, tripHeld := false },
              pins := { t.pins with pwrGood := false, syncOut := false, thermTrip := true } }) := by
  simp only [State.shutDown, hp, Bool.not_true, Bool.false_eq_true, if_false]

/-! ## Resets of a module that runs (R338, R373, R375) -/

section
variable {s : State} (ha : s.alive = true)
include ha

/-- The watchdog of the management complex resets the module. -/
theorem State.managementReset_started (h : (s.boot.ready || s.inCrucible) = true) : s.managementReset = s.moduleReset 0x03 [] := by
  simp [State.managementReset, ha, h]

/-- During a start it fails the start first. -/
theorem State.managementReset_starting (h : (s.boot.ready || s.inCrucible) = false) :
    s.managementReset = (s.noteFailure 0x04 iodUnit).moduleReset 0x03 [] := by
  simp [State.managementReset, ha, h]

/-- A thermal trip holds the reset module. -/
theorem State.trip_alive : s.trip =
    (let t := s.moduleReset 0x05 []
     { t with power := { t.power with tripHeld := true }, pins := { t.pins with thermTrip := false } }) := if_neg (by simp [ha])

end

/-- RESET_MODULE of an installer session answers, and then the module resets. -/
theorem mbxResetModule_installer {s : State} {req : List Byte} (h : s.mailboxOpen req = true) (hr : 2 ≤ s.mbx.session) :
    mbxResetModule req s = State.moduleReset
      (((s.takeRequest 0x23 req).auditLate 0x23 s.mbx.session stOk s.mbx.sessionKey []).respond stOk []) 0x04 [] := by
  have hfits : (s.linkLive && !s.mbx.busy && decide (2 ≤ s.mbx.session) && decide (req.length ≤ 4096)) = true := by
    simpa [State.mailboxOpen, hr] using h
  simp only [mbxResetModule, hfits, if_true]
  rw [mailbox_runs s 0x23 req true 2 0 [] _ h (.inr rfl) hr (Nat.zero_le _) rfl]
  rfl

/-! ## The end of a trip (R430) -/

section
variable {s : State} (hp : s.power.powered = true) (ht : s.power.tripHeld = true)
include hp ht

/-- A trip that is released and read high ends, and a start begins. -/
theorem State.tripRelease_high : s.tripRelease true = State.emit { s with
    power := { s.power with tripHeld := false }, pins := { s.pins with thermTrip := true } } (.uartStage 1) := if_neg (by simp [hp, ht])

/-- One that is still read low goes on. -/
theorem State.tripRelease_low : s.tripRelease false = s := if_neg (by simp [hp, ht])

end

/-- Settles O35: power, the causes of a reset, the end of a trip, and the loss of the input. -/
theorem resetsHaveTheirCauses : Obligations.ResetsHaveTheirCauses := by
  refine fun s => ⟨fun v hp hv => ⟨fun h => ?_, fun h => ?_⟩, fun ha => ⟨fun cause => ?_, fun h => ?_, fun h => ?_,
    ⟨?_, fun unit hf => ?_, fun unit hf => ?_⟩, fun req h hr => ?_⟩, fun hp ht => ⟨?_, ?_⟩, fun hp => ?_⟩
  · rw [exec_powerOn s v hv, State.powerUp_starts hp h]
    rfl
  · rw [exec_powerOn s v hv, State.powerUp_low hp h]
  · rw [exec_moduleReset, State.resetFor, if_pos ha]
  · rw [exec_managementWatchdog, State.managementReset_started ha h]
  · rw [exec_managementWatchdog, State.managementReset_starting ha h]
  · rw [exec_thermTripInput, State.trip_alive ha]
  · rw [exec_tripTemperatureReached, State.dieTrip, if_neg (by simp [hf]), State.trip_alive ha]
  · rw [exec_tripTemperatureReached, State.dieTrip, if_pos hf]
  · rw [exec_resetModule, mbxResetModule_installer h hr]
  · rw [exec_thermTripRelease, State.tripRelease_high hp ht]
    rfl
  · rw [exec_thermTripRelease, State.tripRelease_low hp ht]
  · rw [exec_inputShutdown, State.shutDown_powered hp]

end Sys2Proof.Machine
end

section
/-! SUPPORT. The two signatures of DEBUG_UNLOCK, with the statement that it settles (14 R337, 15 R392). -/

namespace Sys2Proof.Machine

/-- The checks hold where the nonce and the installer's key stand, both signed texts name them with one scope, and both signatures
verify. -/
theorem State.unlockOk_iff (s : State) (req : List Byte) :
    let token := slice req 0 180
    let unlock := slice req 192 212
    s.unlockOk req = true ↔ ∃ n k, s.mbx.debugNonce = some n ∧ s.mbx.keys.find? (fun k => k.role = 2 ∧ k.id = slice token 68 16) = some k ∧
      slice token 0 84 = ascii "HSCONSNT" ++ natLe 8 s.fuses.serial ++ n ++ slice token 64 4 ++ k.id ∧
      slice unlock 0 116 = ascii "HSUNLOCK" ++ natLe 8 s.fuses.serial ++ n ++ slice token 64 4 ++ sha384 token ∧
      ecdsaVerify k.enc (slice token 0 84) (slice token 84 48) (slice token 132 48) = true ∧ sha384 s.boot.dbgKey = s.fuses.dbgKeyHash ∧
      ecdsaVerify s.boot.dbgKey (slice unlock 0 116) (slice unlock 116 48) (slice unlock 164 48) = true := by
  intro token unlock
  simp only [State.unlockOk]
  cases hn : s.mbx.debugNonce with
  | none => simp
  | some n =>
    cases hk : s.mbx.keys.find? (fun k => k.role = 2 ∧ k.id = slice token 68 16) with
    | none => simp
    | some k => simp [token, unlock, and_assoc]

/-- The checks see nothing of what the taking of a request changes. -/
theorem State.takeRequest_unlockOk (s : State) (code : Nat) (req b : List Byte) :
    (s.takeRequest code req).unlockOk b = s.unlockOk b := rfl

/-- The state in which the request's scope is unlocked, with its entry. -/
def State.scopeUnlocked (s : State) (req : List Byte) : State :=
  State.auditAppend { s.takeRequest 0x41 req with
    mbx := { (s.takeRequest 0x41 req).mbx with debugScope := s.mbx.debugScope ||| u req 64 4 } } 0x30 3 stOk (slice req 68 16)
    (natLe 4 (u req 64 4))

/-- The halt of the jobs under manufacturing test: an S4 reaction without a record (R337). -/
def State.mfgHalted (s : State) : State :=
  let w := s.haltJobs iodUnit 0
  { w with events := { w.events with mfgHalt := true, halts := w.events.halts.filter fun q => q ≠ 0 } }

section
variable {s : State} {req : List Byte} (h : s.mailboxOpen req = true) (hc : s.inCrucible = false) (hlen : 404 ≤ req.length)
  (hz : zeroBytes req 180 12 = true) (hf : s.audit.flashOk = true)
include h hc hlen hz hf

/-- DEBUG_UNLOCK with both signatures unlocks the scope; manufacturing test halts the jobs too. -/
theorem mbxDebugUnlock_unlocks (hok : s.unlockOk req = true) : mbxDebugUnlock req s = State.respond
    (if (u req 64 4).testBit 1 then (s.scopeUnlocked req).mfgHalted else s.scopeUnlocked req) stOk [] := by
  have htaken : (s.takeRequest 0x41 req).audit.flashOk = true := hf
  rw [mbxDebugUnlock, mailbox_runs s 0x41 req false 0 404 _ _ h (.inl hc) (Nat.zero_le _) hlen (by simp [hz])]
  simp only [State.auditable, htaken, State.takeRequest_unlockOk, hok, if_true]
  rfl

/-- Without them it is refused, and entered as such. -/
theorem mbxDebugUnlock_refuses (hno : s.unlockOk req = false) : mbxDebugUnlock req s =
    ((s.takeRequest 0x41 req).auditAppend 0x31 0 stRights (slice req 68 16) (natLe 4 (u req 64 4))).respond stRights [] := by
  have htaken : (s.takeRequest 0x41 req).audit.flashOk = true := hf
  rw [mbxDebugUnlock, mailbox_runs s 0x41 req false 0 404 _ _ h (.inl hc) (Nat.zero_le _) hlen (by simp [hz])]
  simp only [State.auditable, htaken, State.takeRequest_unlockOk, hno, if_true, Bool.false_eq_true, if_false]
  rfl

end

/-- Settles O32: what the unlock does, its refusal, and the signatures that the checks ask for. -/
theorem debugUnlockNeedsBothSignatures : Obligations.DebugUnlockNeedsBothSignatures := by
  intro s req h hc hlen hz hf
  refine ⟨fun hok hbit => ?_, fun hok hbit => ?_, fun hno => ?_, s.unlockOk_iff req, fun hok => ?_⟩
  · rw [exec_debugUnlock, mbxDebugUnlock_unlocks h hc hlen hz hf hok, if_neg (by simp [hbit])]
    rfl
  · rw [exec_debugUnlock, mbxDebugUnlock_unlocks h hc hlen hz hf hok, if_pos hbit]
    rfl
  · rw [exec_debugUnlock, mbxDebugUnlock_refuses h hc hlen hz hf hno]
  · obtain ⟨n, k, hn, hk, -, -, hconsent, hhash, hunlock⟩ := (s.unlockOk_iff req).mp hok
    obtain ⟨hrole, hid⟩ : k.role = 2 ∧ k.id = slice (slice req 0 180) 68 16 := by simpa using List.find?_some hk
    exact ⟨n, k, hn, List.mem_of_find?_eq_some hk, hrole, hid, hhash, hconsent, hunlock⟩

end Sys2Proof.Machine
end

section
/-! SUPPORT. Control cores that restart, with the statement that it settles (14 R355 to R357). -/

namespace Sys2Proof.Machine

/-- The watchdog of a core that is not in a restart is reported, and starts one. -/
theorem State.controlWatchdog_starts {s : State} {c : Nat} (hc : c < 64) (hf : s.fencedNow (controlUnit c) = false)
    (hr : ∀ r ∈ s.fences.restarts, r.core ≠ c) (pc : Nat) : s.controlWatchdog c pc =
      (let w := s.raise evWatchdog (controlUnit c) 0 (pc % 2 ^ 64)
       { w with fences := { w.fences with restarts := w.fences.restarts ++ [{ core := c, tries := 1, quiet := false }] } }) := by
  have hnone : s.fences.restarts.find? (fun r => r.core = c) = none := by simpa using hr
  have hopen : ¬ (64 ≤ c ∨ s.fencedNow (controlUnit c) = true) := by simp [hf, hc]
  simp only [State.controlWatchdog, hnone, if_neg hopen]
  rfl

/-- The watchdog of a fenced core reports nothing. -/
theorem State.controlWatchdog_fenced {s : State} {c : Nat} (hf : s.fencedNow (controlUnit c) = true) (pc : Nat) :
    s.controlWatchdog c pc = s := if_pos (.inr hf)

section
variable {s : State} {c : Nat} {r : Restart} (hr : s.fences.restarts.find? (fun r => r.core = c) = some r)
include hr

/-- A restart that fails is tried again. -/
theorem State.restartFailed_again (ht : r.tries < 2) : s.restartFailed c = { s with fences := { s.fences with
    restarts := s.fences.restarts.map fun x => if x.core = c then { x with tries := x.tries + 1, quiet := false } else x } } := by
  simp only [State.restartFailed, hr]
  exact if_neg (Nat.not_le.mpr ht)

/-- The second one that fails fences the core. -/
theorem State.restartFailed_fences (ht : 2 ≤ r.tries) : s.restartFailed c = State.fenceStart
    { s with fences := { s.fences with restarts := s.fences.restarts.filter fun r => r.core ≠ c } } (controlUnit c) 1 := by
  simp only [State.restartFailed, hr]
  exact if_pos ht

end

/-- A restart whose quiet time has not begun is under way. -/
theorem State.restarting_of_mem {s : State} {c : Nat} {r : Restart} (hm : r ∈ s.fences.restarts) (hc : r.core = c) (hq : r.quiet = false) :
    (s.fences.restarts.any fun r => decide (r.core = c) && !r.quiet) = true :=
  List.any_eq_true.2 ⟨r, hm, by simp [hc, hq]⟩

/-- The latest SEQ among the records of a core's expiries that the module holds. -/
def State.lastExpiry (s : State) (c : Nat) : Nat :=
  (((s.events.openRecs ++ s.port.eqHeld ++ s.events.outstanding).filter fun e => e.code = evWatchdog ∧ e.unit = controlUnit c).map
    (·.seq)).foldl max 0

/-- A record with the success of a core's restart, noted once, where it is the latest of that core (log 138). -/
def State.noteRestart (s : State) (c : Nat) (e : EventRec) : EventRec :=
  if e.code = evWatchdog ∧ e.unit = controlUnit c ∧ e.seq = s.lastExpiry c ∧ ¬ bitOf e.data 64 then { e with data := e.data + 2 ^ 64 }
  else e

/-- A restart that ends well opens the core's crossings, is noted, and begins the quiet time. -/
theorem State.restartDone_notes {s : State} {c : Nat} {r : Restart} (hm : r ∈ s.fences.restarts) (hc : r.core = c) (hq : r.quiet = false) :
    s.restartDone c = { s with
      fences := { s.fences with
        restarts := s.fences.restarts.map fun x => if x.core = c then { x with quiet := true } else x,
        cdcDead := s.fences.cdcDead.filter fun e => e.1 ≠ controlUnit c ∧ e.2 ≠ controlUnit c },
      events := { s.events with
        openRecs := s.events.openRecs.map (s.noteRestart c), outstanding := s.events.outstanding.map (s.noteRestart c) },
      port := { s.port with eqHeld := s.port.eqHeld.map (s.noteRestart c) } } := by
  have hmine (e : EventRec) : (e.code == evWatchdog && e.unit == controlUnit c) = decide (e.code = evWatchdog ∧ e.unit = controlUnit c) :=
    (Bool.decide_and _ _).symm
  simp only [State.restartDone, State.restarting_of_mem hm hc hq, hmine, Bool.not_true, Bool.false_eq_true, if_false]
  rfl

/-- Settles O40: the watchdog, a failed restart, a good one, and the quiet time's end. -/
theorem controlCoresRestartTwice : Obligations.ControlCoresRestartTwice := by
  intro s c hc
  refine ⟨fun pc hf hr => ?_, fun pc hf => ?_, fun r hr => ⟨fun ht => ?_, fun ht => ?_⟩, fun r hm hrc hq => ?_, rfl⟩
  · rw [exec_controlCoreWatchdog, State.controlWatchdog_starts hc hf hr]
  · rw [exec_controlCoreWatchdog, State.controlWatchdog_fenced hf]
  · rw [exec_controlCoreRestartTimeout, State.restartFailed_again hr ht]
  · rw [exec_controlCoreRestartTimeout, State.restartFailed_fences hr ht]
  · rw [exec_controlCoreRestartDone, State.restartDone_notes hm hrc hq]
    rfl

end Sys2Proof.Machine
end

section
/-! SUPPORT. COMMIT on a block and the staged copy at its tick, with the statement that it settles (14 R359 to R361, 15 R384, R387). -/

namespace Sys2Proof.Machine

/-- Every block but the defaults is the installer's (R384). -/
theorem commitGuarded_eq (b : CommitBlock) : commitGuarded b = (b != .defaults) := by cases b <;> rfl

/-! ## COMMIT (R360, R361) -/

section
variable {s : State} {b : CommitBlock} (late : Bool)

/-- An unguarded block takes its shadow, if it is consistent, without an entry. -/
theorem State.commitGo_unguarded (hg : commitGuarded b = false) :
    s.commitGo b late = s.setRegs fun r => r.setRws b ((s.regs.rws b).commit (s.commitOk b) late) := by
  simp only [State.commitGo, hg, Bool.false_and, Bool.false_eq_true, if_false]

variable (hg : commitGuarded b = true) (hf : s.audit.flashOk = true)
include hg hf

/-- A guarded block takes it from the installer, with the entry of the attempt. -/
theorem State.commitGo_installer (hs : 2 ≤ s.mbx.session) : s.commitGo b late =
    (s.setRegs fun r => r.setRws b ((s.regs.rws b).commit (s.commitOk b) late)).auditAppend (if s.commitOk b then 0x10 else 0x11)
      s.mbx.session (if s.commitOk b then stOk else stConfig) s.mbx.sessionKey (fieldObject (commitOffset b) 1) := by
  simp only [State.commitGo, hg, hf, Nat.not_lt.mpr hs, decide_false, Bool.and_false, Bool.not_true, Bool.false_eq_true, if_false, if_true]
  rfl

/-- It refuses anyone else: the refusal is counted, noted in its status, and entered. -/
theorem State.commitGo_noRights (hs : s.mbx.session < 2) : s.commitGo b late =
    (State.rightsError (s.setRegs fun r => r.setRws b { s.regs.rws b with status := stRights })).auditAppend 0x11 s.mbx.session stRights
      s.mbx.sessionKey (fieldObject (commitOffset b) 1) := by
  have hswap : (s.rightsError.setRegs fun r => r.setRws b { s.regs.rws b with status := stRights }) =
      State.rightsError (s.setRegs fun r => r.setRws b { s.regs.rws b with status := stRights }) := by cases b <;> rfl
  have hflash : (State.rightsError (s.setRegs fun r => r.setRws b { s.regs.rws b with status := stRights })).audit.flashOk = true := hf
  simp only [State.commitGo, hg, hs, hswap, hflash, decide_true, Bool.and_self, if_true]
  rfl

end

/-! ## The tick (R359, R361) -/

section
variable {s : State} {b : CommitBlock}

/-- Without a staged copy the tick changes nothing. -/
theorem State.commitApply_none (hp : (s.regs.rws b).pending = false) : s.commitApply b = s := by
  simp [State.commitApply, hp]

/-- A new FLEET_RANK goes to flash with it. -/
theorem State.commitApply_newRank (hp : (s.regs.rws .pourSync).pending = true)
    (hne : nth (s.regs.rws .pourSync).staged 2 ≠ nth (s.regs.rws .pourSync).active 2) :
    s.commitApply .pourSync = s.setRegs fun r =>
      { r.setRws .pourSync { s.regs.rws .pourSync with
          active := (s.regs.rws .pourSync).staged, pending := false, status := stOk } with
        flashWrites := r.flashWrites ++ [(0x3010, nth (s.regs.rws .pourSync).staged 2)] } := by
  simp only [State.commitApply, Rws.apply, hp, ne_eq, hne, not_false_eq_true, and_self, Bool.not_true, Bool.false_eq_true, if_false,
    if_true]

variable (hp : (s.regs.rws b).pending = true)
include hp

/-- A staged copy becomes active whole. -/
theorem State.commitApply_active (h : b ≠ .pourSync ∨ nth (s.regs.rws b).staged 2 = nth (s.regs.rws b).active 2) :
    s.commitApply b = s.setRegs fun r =>
      r.setRws b { s.regs.rws b with active := (s.regs.rws b).staged, pending := false, status := stOk } := by
  have hrank : ¬ (b = .pourSync ∧ nth (s.regs.rws b).staged 2 ≠ nth (s.regs.rws b).active 2) := by
    rintro ⟨hb, hne⟩
    exact h.elim (· hb) hne
  simp only [State.commitApply, Rws.apply, hp, if_neg hrank, Bool.not_true, Bool.false_eq_true, if_false, if_true, List.append_nil]
  cases b <;> rfl

end

/-- Settles O41: a COMMIT by its guard and its check, and the tick by the staged copy and its rank. -/
theorem commitStagesAWholeBlock : Obligations.CommitStagesAWholeBlock := by
  intro s b ac hl x guarded put logged staged
  simp only [exec_commit, onBar_live s _ hl]
  have hguard : commitGuarded b = guarded := commitGuarded_eq b
  refine ⟨fun hb => ?_, fun hg hs hf => ⟨fun hok => ?_, fun hok => ?_⟩, fun hg hs hf => ?_, fun hp hb => ?_, fun hp hb => ?_, fun hp => ?_⟩
  · rw [State.commitGo_unguarded _ (by rw [hb]; rfl)]
    cases s.commitOk b <;> rfl
  · rw [State.commitGo_installer _ (hguard.trans hg) hf hs, hok]
    rfl
  · rw [State.commitGo_installer _ (hguard.trans hg) hf hs, hok]
    rfl
  · rw [State.commitGo_noRights _ (hguard.trans hg) hf hs]
    rfl
  · rw [State.commitApply_active hp (.inl hb)]
    rfl
  · subst hb
    by_cases hrank : nth x.staged 2 = nth x.active 2
    · rw [State.commitApply_active hp (.inr hrank), if_pos hrank]
      rfl
    · rw [State.commitApply_newRank hp hrank, if_neg hrank]
      rfl
  · rw [State.commitApply_none hp]

end Sys2Proof.Machine
end

section
/-! SUPPORT. An event: the record that it merges into or forms, and its reactions, with the statement that it settles (14 R332 to R338, R341,
R342). -/

namespace Sys2Proof.Machine

/-! ## The record (R334, R341, R342) -/

/-- Is a record of the class of an event: its code, unit and layer (R341)? -/
def EventRec.ofClass (code unit layer : Nat) (e : EventRec) : Bool :=
  decide (e.code = code) && decide (e.unit = unit) && decide (e.layer = layer)

/-- Does an event escalate: one of its class is outstanding, and its code may (R342)? -/
def State.escalates (s : State) (code unit layer : Nat) : Bool :=
  s.events.outstanding.any (EventRec.ofClass code unit layer) && !neverEscalates code

/-- The severity of a new record (R333, R342). -/
def State.newSev (s : State) (code unit layer : Nat) : Nat :=
  if s.escalates code unit layer then min 5 (s.sevOf code + 1) else s.sevOf code

/-- The new record of one occurrence (R334). -/
def State.newRec (s : State) (code unit layer data : Nat) : EventRec :=
  { seq := s.events.nextSeq, code := code, sev := s.newSev code unit layer, escalated := s.escalates code unit layer, poison := false,
    unit := unit, count := 1, heatNum := s.heat.heatNum, slot := s.eventSlot, layer := layer, data := data }

/-- The state that holds a new record. -/
def State.withRec (s : State) (e : EventRec) : State :=
  { s with events := { s.events with
      nextSeq := s.events.nextSeq + 1, openRecs := s.events.openRecs ++ [e],
      outstanding := if 1 ≤ e.sev then s.events.outstanding ++ [e] else s.events.outstanding,
      counts := if 1 ≤ e.sev then put s.events.counts e.code (satAdd 32 (look 0 s.events.counts e.code) 1) else s.events.counts } }

section
variable {s : State} (hd : s.events.resetDue = none) {code unit layer : Nat} (data : Nat)
include hd

/-- An open record of the class counts the occurrence, which has its reactions too (log 123). -/
theorem State.raise_merges {e : EventRec} (he : s.events.openRecs.find? (EventRec.ofClass code unit layer) = some e) :
    s.raise code unit layer data = State.reactTo { s with events := { s.events with
      openRecs := s.events.openRecs.map fun e => if EventRec.ofClass code unit layer e then e.merge 1 data else e } } e data := by
  unfold EventRec.ofClass at he ⊢
  simp only [State.raise, State.raiseN, State.raiseWith, hd, he, Option.isSome_none, Bool.false_eq_true, if_false]

variable (hn : s.events.openRecs.find? (EventRec.ofClass code unit layer) = none)
include hn

/-- Else a new record forms: at S5 it makes the module reset due, below it has its reactions. -/
theorem State.raise_forms : s.raise code unit layer data =
    (let w := s.withRec (s.newRec code unit layer data)
     if s.newSev code unit layer = 5 then
       let t := w.postEvent (s.newRec code unit layer data)
       { t with events := { t.events with
         resetDue := some ((s.newRec code unit layer data).enc w.port.eq.phase w.port.lostRun) } }
     else w.reactTo (s.newRec code unit layer data) data) := by
  have hopen : ¬ s.events.resetDue.isSome = true := by simp [hd]
  unfold EventRec.ofClass at hn
  simp only [State.raise, State.raiseN, State.raiseWith, hopen, hn]
  rfl

/-- Below S5 a new record has its reactions. -/
theorem State.raise_reacts (h5 : s.newSev code unit layer ≠ 5) : s.raise code unit layer data =
    (s.withRec (s.newRec code unit layer data)).reactTo (s.newRec code unit layer data) data :=
  (State.raise_forms hd data hn).trans (if_neg h5)

/-- At S5 it makes the module reset due. -/
theorem State.raise_resets (h5 : s.newSev code unit layer = 5) : (s.raise code unit layer data).events.resetDue.isSome = true := by
  rw [State.raise_forms hd data hn]
  simp only [h5, if_true, Option.isSome_some]

end

/-! ## The reactions (R335 to R337, R342) -/

/-- The reactions of a record: those of its level, after those of its configured level where it is escalated. -/
theorem State.reactTo_cases (s : State) (e : EventRec) (data : Nat) :
    (e.escalated = false → s.reactTo e data = s.react e.sev e.code e.unit data e.seq) ∧
    (e.escalated = true → s.reactTo e data =
      (s.react (e.sev - 1) e.code e.unit data e.seq).react e.sev e.code e.unit data e.seq) := by
  constructor <;> intro h <;> simp only [State.reactTo, h, Bool.false_eq_true, if_false, if_true]

/-- An S2 event with a target marks it for its degradation. -/
theorem State.react_two_some (s : State) {code unit data : Nat} {t : Nat ⊕ Nat} (h : s2Target code unit data = some t) (seq : Nat) :
    s.react 2 code unit data seq = s.degrade t := by simp only [State.react, h]

/-- One without a target has no reaction. -/
theorem State.react_two_none (s : State) {code unit data : Nat} (h : s2Target code unit data = none) (seq : Nat) :
    s.react 2 code unit data seq = s := by simp only [State.react, h]

/-- A word is open only in an operation. -/
theorem State.job_of_wordOpen {s : State} (h : s.wordOpen = true) : ∃ j, s.heat.job = some j := by
  cases hj : s.heat.job with
  | none => simp [State.wordOpen, hj] at h
  | some j => exact ⟨j, rfl⟩

/-- A veto cause goes into an open word. -/
theorem State.cause_wordOpen {s : State} (h : s.wordOpen = true) (unit bit : Nat) :
    s.cause unit bit = { s with heat := { s.heat with status := setStatus s.heat.status unit bit } } := by
  obtain ⟨j, hj⟩ := State.job_of_wordOpen h
  simp only [State.cause, hj, h, if_true]

/-- Without an operation a unit's degradation is its fence, at once. -/
theorem State.degrade_idle {s : State} (hr : s.running = false) {t : Nat} (hf : fenceable t = true) :
    s.degrade (.inl t) = s.fenceStart t 1 := by
  simp only [State.degrade, hf, hr, Bool.not_true, Bool.not_false, Bool.false_eq_true, if_false, if_true]

/-- Settles O49: the record merged or formed, and then the reactions level by level. -/
theorem eventsFormRecordsAndReact : Obligations.EventsFormRecordsAndReact := by
  intro s code unit layer data hd
  exact ⟨fun _ he => State.raise_merges hd data he, fun hn => ⟨State.raise_reacts hd data hn, State.raise_resets hd data hn⟩,
    fun e => s.reactTo_cases e data, fun seq _ ht => s.react_two_some ht seq, fun seq ht => s.react_two_none ht seq,
    fun _ => ⟨rfl, rfl, rfl, rfl⟩, State.cause_noJob, State.cause_wordOpen, fun hr _ hf => State.degrade_idle hr hf⟩

end Sys2Proof.Machine
end

section
/-! SUPPORT. Link ends that count failed flits, and retrains, with the statement that it settles (14 R355, R356, R358). -/

namespace Sys2Proof.Machine

/-! ## Failed flits (R358) -/

/-- A link that is broken counts none. -/
theorem State.crcFail_broken {s : State} {e : Nat} (h : s.linkBroken (e / 2) = true) : s.crcFail e = s := if_pos h

section
variable {s : State} {e : Nat} (h : s.linkBroken (e / 2) = false)
include h

/-- Up to the seventh in a row, a failed flit is counted and reported. -/
theorem State.crcFail_counts (hn : look 0 s.fences.crcRun e < 7) : s.crcFail e = State.raise
    { s with fences := { s.fences with crcRun := put s.fences.crcRun e (look 0 s.fences.crcRun e + 1) } }
    evLinkCrc (linkEndUnit e) 0 1 := by
  have hrun : decide (8 ≤ look 0 s.fences.crcRun e + 1) = false := by simpa using hn
  simp only [State.crcFail, h, hrun, Bool.false_eq_true, if_false]

/-- The eighth begins a retrain, and what the link has queued is gone. -/
theorem State.crcFail_retrains (hn : 7 ≤ look 0 s.fences.crcRun e) : s.crcFail e = State.raise
    (State.flushLink { s with fences := { s.fences with
      crcRun := del s.fences.crcRun e, retrain := addTo s.fences.retrain (e / 2), retrainBy := put s.fences.retrainBy (e / 2) e } } (e / 2))
    evLinkCrc (linkEndUnit e) 0 (2 ^ 16) := by
  have hrun : decide (8 ≤ look 0 s.fences.crcRun e + 1) = true := by simpa using hn
  simp only [State.crcFail, h, hrun, Bool.false_eq_true, if_false, if_true, Nat.zero_add]

end

/-! ## Retrains (R355, R356, R358) -/

/-- A link that does not retrain ends none. -/
theorem State.retrainDone_none {s : State} {i : Nat} (h : i ∉ s.fences.retrain) (ok : Bool) : s.retrainDone i ok = s := if_pos h

section
variable {s : State} {i : Nat} (h : i ∈ s.fences.retrain)
include h

/-- A retrain that ends well opens the link again, with its crossings. -/
theorem State.retrainDone_opens : s.retrainDone i true = { s with fences := { s.fences with
    retrain := s.fences.retrain.filter (· ≠ i), retrainBad := del s.fences.retrainBad i,
    crcRun := del (del s.fences.crcRun (2 * i)) (2 * i + 1), cdcDead := s.fences.cdcDead.filter fun e => !ofLink i e.2 } } :=
  if_neg (not_not_intro h)

/-- The first two that fail in a row are tried again. -/
theorem State.retrainDone_again (hn : look 0 s.fences.retrainBad i < 2) : s.retrainDone i false = { s with fences := { s.fences with
    retrainBad := put s.fences.retrainBad i (look 0 s.fences.retrainBad i + 1),
    crcRun := del (del s.fences.crcRun (2 * i)) (2 * i + 1) } } := by
  have hdown : decide (3 ≤ look 0 s.fences.retrainBad i + 1) = false := by simpa using hn
  simp only [State.retrainDone, h, hdown, not_true, Bool.or_self, Bool.false_eq_true, if_false]

/-- The third marks the link down, reported by the end that began it. -/
theorem State.retrainDone_downs (hn : 2 ≤ look 0 s.fences.retrainBad i) : s.retrainDone i false = State.raise
    { s with fences := { s.fences with
        retrain := s.fences.retrain.filter (· ≠ i), retrainBad := del s.fences.retrainBad i, linkDown := addTo s.fences.linkDown i,
        crcRun := del (del s.fences.crcRun (2 * i)) (2 * i + 1) } }
    evLinkCrc (linkEndUnit (look (2 * i) s.fences.retrainBy i)) 0 (2 ^ 16 + 2 ^ 17) := by
  have hdown : decide (3 ≤ look 0 s.fences.retrainBad i + 1) = true := by simpa using hn
  simp only [State.retrainDone, h, hdown, not_true, Bool.false_or, Bool.false_eq_true, if_false, if_true]

end

/-- Settles O51: a failed flit by its link and its run, a retrain by its end and the failures before it, and a channel's. -/
theorem linksRetrainThenFail : Obligations.LinksRetrainThenFail := by
  refine fun s e => ⟨fun h => ?_, fun h hn => ?_, fun h hn => ?_, fun i h ok => ?_, fun i h => ⟨?_, fun hn => ?_, fun hn => ?_⟩, fun n => rfl⟩
  · rw [exec_linkCrcFail, State.crcFail_broken h]
  · rw [exec_linkCrcFail, State.crcFail_counts h hn]
  · rw [exec_linkCrcFail, State.crcFail_retrains h hn]
    rfl
  · rw [exec_linkRetrainDone, State.retrainDone_none h]
  · rw [exec_linkRetrainDone, State.retrainDone_opens h]
    rfl
  · rw [exec_linkRetrainDone, State.retrainDone_again h hn]
  · rw [exec_linkRetrainDone, State.retrainDone_downs h hn]

end Sys2Proof.Machine
end

section
/-! SUPPORT. The fuses through every step, with the statement that it settles (15 R368). -/

namespace Sys2Proof.Machine

/-- What a command leaves keeps the fuses where its effect does: nothing due at its end touches them. -/
theorem kept_of_effect {i : Instr} {s t x : State} (hi : exec i s = .next (s.done x)) (hx : s.fuses.kept x.fuses)
    (h : exec i s = .next t) : s.fuses.kept t.fuses := by
  obtain rfl : s.done x = t := by simpa using hi.symm.trans h
  exact hx.trans_eq (s.done_fuses x)

/-- Every command keeps the fuses. Three reach them: ADVANCE_SVN, a register write that is a GO of the mailbox, and the stage that
promotes the slot that ran; POWER_ON may stop the model, and every other command's effect leaves them as they are. -/
theorem exec_keeps_fuses {i : Instr} {s t : State} (h : exec i s = .next t) : s.fuses.kept t.fuses := by
  cases i
  case advanceSvn req => exact kept_of_effect (exec_advanceSvn s req) (mbxAdvanceSvn_kept req s) h
  case registerWrite offset size value => exact kept_of_effect rfl (s.regWrite_kept offset size value.toNat) h
  case startStageDone failed ac => exact kept_of_effect rfl (s.stageDone_kept failed ac) h
  case powerOn v =>
    by_cases hv : v ≤ 600
    · exact kept_of_effect (exec_powerOn s v hv) (Fuses.kept_of_eq (s.powerUp_fuses v)) h
    · rw [exec_powerOn_above s v (by omega)] at h
      cases h
  all_goals exact kept_of_effect rfl (Fuses.kept_of_eq (by simp)) h

/-- Settles O5: an empty queue changes nothing, and the command at the front keeps the fuses. -/
theorem noFuseIsCleared : Obligations.NoFuseIsCleared := by
  intro s t h
  cases hp : s.pending with
  | nil =>
    obtain rfl : s = t := by simpa [step, hp] using h
    exact s.fuses.kept_refl
  | cons c rest =>
    simp only [step, hp] at h
    exact exec_keeps_fuses (s := { s with pending := rest }) h

end Sys2Proof.Machine
end

section
/-! SUPPORT. Mailbox commands that need an audit entry (15 R389). -/

namespace Sys2Proof.Machine

/-- Where flash accepts writes, a taken request that needs an audit entry has its effect (R389). -/
theorem State.auditable_taken {s : State} (hf : s.audit.flashOk = true) (code : Nat) (req : List Byte) (f : State → Reply) :
    (s.takeRequest code req).auditable f = f (s.takeRequest code req) := if_pos hf

end Sys2Proof.Machine
end

section
/-! SUPPORT. Mailbox commands that crucible mode or the session's role refuses, with the statement that it settles (15 R379, R386). -/

namespace Sys2Proof.Machine

/-- Is a mailbox command with this code, refused in crucible mode or not, and needing this role, refused by mode and then by role
with no effect but the answer? -/
def State.refusesByModeAndRole (s : State) (req : List Byte) (e : Nat × Bool × Nat × Instr) : Prop :=
  (s.inCrucible = true → e.2.1 = false →
    exec e.2.2.2 s = .next (s.done ((s.takeRequest e.1 req).respond stConfig []))) ∧
  ((s.inCrucible = false ∨ e.2.1 = true) → s.mbx.session < e.2.2.1 →
    exec e.2.2.2 s = .next (s.done ((s.takeRequest e.1 req).respond stRights [])))

/-- A command that is one run of the mailbox is refused as the mailbox refuses it. -/
theorem refusesByModeAndRole_of_mailbox {s : State} {req : List Byte} (h : s.mailboxOpen req = true) {i : Instr} {code role len : Nat}
    {inCruc : Bool} {zero : List (Nat × Nat)} {f : State → Reply}
    (hi : exec i s = .next (s.done (s.mailbox code req inCruc role len zero f))) :
    s.refusesByModeAndRole req (code, inCruc, role, i) := by
  refine ⟨fun hm hc => ?_, fun hm hr => ?_⟩
  · obtain rfl : inCruc = false := hc
    rw [hi, mailbox_crucible s code req role len zero f h hm]
  · rw [hi, mailbox_role s code req inCruc role len zero f h hm hr]

/-- RESET_MODULE resets nothing where the role is refused (R386). -/
theorem exec_resetModule_refused {s : State} {req : List Byte} (hr : s.mbx.session < 2) : exec (.resetModule req) s =
    .next (s.done (s.mailbox 0x23 req true 2 0 [] fun t => answer stOk (t.auditLate 0x23 s.mbx.session stOk t.mbx.sessionKey []))) := by
  rw [exec_resetModule, mbxResetModule]
  simp [Nat.not_le.mpr hr]

/-- Settles O27, command by command: each is one run of the mailbox, RESET_MODULE as long as its role is too low. -/
theorem mailboxRefusesByModeAndRole : Obligations.MailboxRefusesByModeAndRole := by
  intro s req h
  change ∀ e ∈ _, s.refusesByModeAndRole req e
  simp only [List.forall_mem_cons, List.not_mem_nil, false_imp_iff, implies_true, and_true]
  have one {i code inCruc role len zero f} (hi : exec i s = .next (s.done (s.mailbox code req inCruc role len zero f))) :=
    refusesByModeAndRole_of_mailbox h hi
  have reset : s.refusesByModeAndRole req (0x23, true, 2, .resetModule req) :=
    ⟨nofun, fun hm hr => (refusesByModeAndRole_of_mailbox h (exec_resetModule_refused hr)).2 hm hr⟩
  exact ⟨one rfl, one rfl, one rfl, one rfl, one rfl, one rfl, one rfl, one rfl, one rfl, reset, one rfl, one rfl, one rfl, one rfl⟩

end Sys2Proof.Machine
end

section
/-! SUPPORT. Queries of the mailbox, with the statement that it settles (15 R382, R383, R386, R388, R392, 16 R416). -/

namespace Sys2Proof.Machine

/-- A checkpoint that is appended is the newest, however full its area is (R388). -/
theorem Audit.trim_getLast? (a : Audit) (l : List (List Byte)) (c : List Byte) :
    ({ a with checkpoints := l ++ [c] } : Audit).trim.checkpoints.getLast? = some c := by
  simp only [Audit.trim]
  split
  case isTrue hfull =>
    rw [List.drop_append_of_le_length (by simp at hfull; omega), List.getLast?_concat]
  case isFalse => exact List.getLast?_concat

section
variable {s : State} {req : List Byte} (h : s.mailboxOpen req = true)
include h

/-- GET_IDENTITY answers what the state says of the module. -/
theorem mbxGetIdentity_open : mbxGetIdentity req s = (s.takeRequest 0x01 req).respond stOk s.identity := by
  rw [mbxGetIdentity, mailbox_runs s 0x01 req true 0 0 _ _ h (.inr rfl) (Nat.zero_le _) (Nat.zero_le _) rfl]
  rfl

/-- AUTH_NONCE answers a fresh nonce and holds it. -/
theorem mbxAuthNonce_open :
    let v := natBe 48 (Config.nonce s.freeCtr).toNat
    let w := s.takeRequest 0x02 req
    mbxAuthNonce req s = State.respond { w with freeCtr := s.freeCtr + 1, mbx := { w.mbx with authNonce := some v } } stOk v := by
  intro v w
  rw [mbxAuthNonce, mailbox_runs s 0x02 req true 0 0 _ _ h (.inr rfl) (Nat.zero_le _) (Nat.zero_le _) rfl]
  rfl

/-- DEBUG_NONCE does so with the nonce of the debug unlock, outside crucible mode. -/
theorem mbxDebugNonce_open (hc : s.inCrucible = false) :
    let v := natBe 48 (Config.nonce s.freeCtr).toNat
    let w := s.takeRequest 0x40 req
    mbxDebugNonce req s = State.respond { w with freeCtr := s.freeCtr + 1, mbx := { w.mbx with debugNonce := some v } } stOk v := by
  intro v w
  rw [mbxDebugNonce, mailbox_runs s 0x40 req false 0 0 _ _ h (.inl hc) (Nat.zero_le _) (Nat.zero_le _) rfl]
  rfl

/-- AUDIT_READ with its selector 0 answers entries. -/
theorem mbxAuditRead_entries (hs : 1 ≤ s.mbx.session) (hlen : 9 ≤ req.length) (hsel : u req 8 1 = 0) :
    mbxAuditRead req s = (s.takeRequest 0x30 req).respond stOk
      ((s.audit.entries.filter fun e => u req 0 8 ≤ u e 0 8).take 31).flatten := by
  rw [mbxAuditRead, mailbox_runs s 0x30 req true 1 9 _ _ h (.inr rfl) hs hlen rfl]
  simp [hsel, bitOf]

/-- With its selector 1 it answers checkpoints. -/
theorem mbxAuditRead_checkpoints (hs : 1 ≤ s.mbx.session) (hlen : 9 ≤ req.length) (hsel : u req 8 1 = 1) :
    mbxAuditRead req s = (s.takeRequest 0x30 req).respond stOk
      ((s.audit.checkpoints.filter fun c => u req 0 8 ≤ u c 0 8).take 15).flatten := by
  rw [mbxAuditRead, mailbox_runs s 0x30 req true 1 9 _ _ h (.inr rfl) hs hlen rfl]
  simp [hsel, bitOf]

/-- AUDIT_CHECKPOINT makes a checkpoint and answers it. -/
theorem mbxAuditCheckpoint_open (hc : s.inCrucible = false) (hs : 1 ≤ s.mbx.session) (hf : s.audit.flashOk = true) :
    let c := s.checkpointBytes s.freeCtr
    let w := s.takeRequest 0x31 req
    let a := { s.audit with checkpoints := s.audit.checkpoints ++ [c] }.trim
    mbxAuditCheckpoint req s = State.respond { w with freeCtr := s.freeCtr + 1, audit := a } stOk c := by
  intro c w a
  have hw : w.checkpoint = { w with freeCtr := s.freeCtr + 1, audit := a } := rfl
  have hlast : a.checkpoints.getLast? = some c := Audit.trim_getLast? _ _ _
  rw [mbxAuditCheckpoint, mailbox_runs s 0x31 req false 1 0 _ _ h (.inl hc) hs (Nat.zero_le _) rfl]
  simp only [State.auditable_taken hf, hw, hlast, Option.getD_some, w]

end

/-- Settles O28, query by query. -/
theorem mailboxQueriesAnswer : Obligations.MailboxQueriesAnswer := by
  refine fun s req h => ⟨?_, ?_, fun hc => ?_, fun hs hlen hsel => ?_, fun hs hlen hsel => ?_, fun hc hs hf => ?_⟩
  · rw [exec_getIdentity, mbxGetIdentity_open h]
  · rw [exec_authNonce, mbxAuthNonce_open h]
  · rw [exec_debugNonce, mbxDebugNonce_open h hc]
  · rw [exec_auditRead, mbxAuditRead_entries h hs hlen hsel]
  · rw [exec_auditRead, mbxAuditRead_checkpoints h hs hlen hsel]
  · rw [exec_auditCheckpoint, mbxAuditCheckpoint_open h hc hs hf]

end Sys2Proof.Machine
end

section
/-! SUPPORT. AUTH and its lockout, with the statement that it settles (15 R383, R387, 16 R416). -/

namespace Sys2Proof.Machine

/-! ## When an attempt is good -/

/-- Does AUTH grant what the request asks for: no lockout, a nonce, and an enrolled key of a sufficient role whose signature
verifies (R383)? -/
def State.authGood (s : State) (req : List Byte) : Bool :=
  !s.mbx.authLocked && (match s.mbx.authNonce, s.mbx.keys.find? (fun k => k.id = slice req 16 16) with
    | some n, some k => decide (u req 0 1 ≤ k.role) &&
        ecdsaVerify k.enc (authMessage s.fuses.serial n (u req 0 1) (u req 1 1) (slice req 16 16)) (slice req 32 48) (slice req 80 48)
    | _, _ => false)

section
variable {s : State} {req : List Byte}

/-- With a nonce and an enrolled key, the lockout, the key's role and the signature decide. -/
theorem State.authGood_of_key {n : List Byte} {k : Key} (hn : s.mbx.authNonce = some n)
    (hk : s.mbx.keys.find? (fun k => k.id = slice req 16 16) = some k) :
    s.authGood req = (!s.mbx.authLocked && (decide (u req 0 1 ≤ k.role) && ecdsaVerify k.enc
      (authMessage s.fuses.serial n (u req 0 1) (u req 1 1) (slice req 16 16)) (slice req 32 48) (slice req 80 48))) := by
  simp only [State.authGood, hn, hk]

/-- A lockout spoils every attempt. -/
theorem State.authGood_locked (h : s.mbx.authLocked = true) : s.authGood req = false := by simp [State.authGood, h]

/-- So does a nonce that was not drawn or is used up. -/
theorem State.authGood_noNonce (h : s.mbx.authNonce = none) : s.authGood req = false := by simp [State.authGood, h]

/-- So does a key that is not enrolled. -/
theorem State.authGood_noKey (h : s.mbx.keys.find? (fun k => k.id = slice req 16 16) = none) : s.authGood req = false := by
  cases hn : s.mbx.authNonce <;> simp [State.authGood, h, hn]

end

/-! ## What an attempt does -/

/-- The state in which the request is taken and the nonce used up. -/
def State.nonceUsed (s : State) (req : List Byte) : State :=
  { s.takeRequest 0x03 req with mbx := { (s.takeRequest 0x03 req).mbx with authNonce := none } }

section
variable {s : State} {req : List Byte} (h : s.mailboxOpen req = true) (hlen : 128 ≤ req.length) (hz : zeroBytes req 2 14 = true)
  (hf : s.audit.flashOk = true) (hrole : u req 0 1 = 1 ∨ u req 0 1 = 2)
include h hlen hz hf hrole

/-- AUTH for a role uses up the nonce; a good attempt gets the role, and any other is counted. -/
theorem mbxAuth_open : mbxAuth req s =
    if s.authGood req then
      (((s.nonceUsed req).grant (u req 0 1) (u req 1 1) (slice req 16 16)).auditAppend 0x01 (u req 0 1) stOk (slice req 16 16)
        (natLe 1 (u req 0 1) ++ natLe 1 (u req 1 1))).respond stOk []
    else ((s.nonceUsed req).authFailure.auditAppend 0x02 0 stRights (slice req 16 16)
        (natLe 1 (u req 0 1) ++ natLe 1 (u req 1 1))).respond stRights [] := by
  have hasks : ¬ (u req 0 1 ≠ 1 ∧ u req 0 1 ≠ 2) := by omega
  rw [mbxAuth, mailbox_runs s 0x03 req true 0 128 _ _ h (.inr rfl) (Nat.zero_le _) hlen (by simp [hz])]
  simp only [State.auditable_taken hf, if_neg hasks]
  cases hg : s.authGood req
  · rw [if_neg]
    · rfl
    · exact Bool.eq_false_iff.mp hg
  · rw [if_pos]
    · rfl
    · exact hg

end

/-- Settles O29: a good attempt, each way in which one is not good, and the end of the lockout. -/
theorem authGrantsOrCounts : Obligations.AuthGrantsOrCounts := by
  intro s req h hlen hz hf hrole
  dsimp only
  refine ⟨fun n k hlock hn hk hle hv => ?_, fun hbad => ?_, fun hlock => ?_⟩
  · have hgood : s.authGood req = true := by
      rw [State.authGood_of_key hn hk, hlock, decide_eq_true hle]
      exact hv
    rw [exec_auth, mbxAuth_open h hlen hz hf hrole, if_pos hgood]
    rfl
  · have hgood : s.authGood req = false := by
      obtain hlock | hn | hk | ⟨n, k, hn, hk, hlow | hv⟩ := hbad
      · exact State.authGood_locked hlock
      · exact State.authGood_noNonce hn
      · exact State.authGood_noKey hk
      · simp [State.authGood_of_key hn hk, Nat.not_le.mpr hlow]
      · rw [State.authGood_of_key hn hk, authMessage, hv, Bool.and_false, Bool.and_false]
    rw [exec_auth, mbxAuth_open h hlen hz hf hrole, if_neg (by simp [hgood])]
    rfl
  · rw [exec_authLockoutExpiry, mbxLockoutExpiry, if_pos hlock]

end Sys2Proof.Machine
end

section
/-! SUPPORT. RELEASE and the keys of the mailbox, with the statement that it settles (15 R382, R385, R387). -/

namespace Sys2Proof.Machine

/-- RELEASE ends the session and the roles of the rings in its mask (R385). -/
theorem mbxRelease_open {s : State} {req : List Byte} (h : s.mailboxOpen req = true) (hs : 1 ≤ s.mbx.session)
    (hlen : 2 ≤ req.length) (hz : zeroBytes req 0 1 = true) :
    mbxRelease req s = ((s.takeRequest 0x04 req).endSession (u req 1 1)).respond stOk [] := by
  rw [mbxRelease, mailbox_runs s 0x04 req true 1 2 _ _ h (.inr rfl) hs hlen (by simp [hz])]
  rfl

/-! ## Enrolment (R382) -/

/-- The key that a request of ENROLL_KEY holds. -/
def enrolledKey (req : List Byte) : Key := { enc := slice req 16 97, id := keyIdOf (slice req 16 97), role := u req 0 1 }

/-- The state in which that key is enrolled, with its entry. -/
def State.keyEnrolled (s : State) (req : List Byte) : State :=
  State.auditMbx { s.takeRequest 0x10 req with
    mbx := { (s.takeRequest 0x10 req).mbx with keys := s.mbx.keys ++ [enrolledKey req] } } 0x04 stOk (enrolledKey req).id

/-- A key that decodes, for an existing role with a free slot, and that is not enrolled yet, enters under an installer session or as
the first installer key, which claims the module. -/
theorem mbxEnrollKey_open {s : State} {req : List Byte} (h : s.mailboxOpen req = true) (hc : s.inCrucible = false)
    (hlen : 113 ≤ req.length) (hz : zeroBytes req 1 15 = true) (hf : s.audit.flashOk = true)
    (hrole : u req 0 1 = 1 ∨ u req 0 1 = 2) (hright : 2 ≤ s.mbx.session ∨ (s.claimed = false ∧ u req 0 1 = 2))
    (hdec : (ecDecode (slice req 16 97)).isSome = true) (hnew : ∀ x ∈ s.mbx.keys, x.id ≠ (enrolledKey req).id)
    (hfree : (s.mbx.keys.filter fun x => x.role = u req 0 1).length < keySlots (u req 0 1)) :
    mbxEnrollKey req s = ((if s.claimed = false ∧ u req 0 1 = 2 then (s.keyEnrolled req).auditMbx 0x06 stOk (enrolledKey req).id
      else s.keyEnrolled req).respond stOk (enrolledKey req).id) := by
  have hclaimed : (s.takeRequest 0x10 req).claimed = s.claimed := rfl
  have hsession : (s.takeRequest 0x10 req).mbx.session = s.mbx.session := rfl
  have hkeys : (s.takeRequest 0x10 req).mbx.keys = s.mbx.keys := rfl
  have hrights : ¬ (decide (s.mbx.session < 2) && !(!s.claimed && decide (u req 0 1 = 2))) = true := by
    rcases hright with hs | ⟨hcl, hr⟩
    · simp [Nat.not_lt.mpr hs]
    · simp [hcl, hr]
  have hvalid : ¬ ((u req 0 1 ≠ 1 ∧ u req 0 1 ≠ 2) ∨ (ecDecode (slice req 16 97)).isNone = true ∨
      (s.mbx.keys.any fun k => k.id = keyIdOf (slice req 16 97)) = true ∨
      keySlots (u req 0 1) ≤ (s.mbx.keys.filter fun k => k.role = u req 0 1).length) := by
    rintro (hr | hd | ha | hl)
    · omega
    · simp [Option.isSome_iff_ne_none.mp hdec] at hd
    · obtain ⟨x, hx, he⟩ := List.any_eq_true.mp ha
      exact hnew x hx (of_decide_eq_true he)
    · omega
  rw [mbxEnrollKey, mailbox_runs s 0x10 req false 0 113 _ _ h (.inl hc) (Nat.zero_le _) hlen (by simp [hz])]
  simp only [hsession, hclaimed, hkeys, if_neg hrights, State.auditable_taken hf, if_neg hvalid]
  simp only [Bool.and_eq_true, Bool.not_eq_true', decide_eq_true_eq]
  rfl

/-! ## Revocation (R382) -/

/-- The state in which the key that a request names is gone, with its entry, and with it the roles of its rings. -/
def State.keyRevoked (s : State) (req : List Byte) : State :=
  let w := s.takeRequest 0x11 req
  let w := State.auditMbx { w with mbx := { w.mbx with keys := s.mbx.keys.filter fun x => x.id ≠ slice req 16 16 } } 0x05 stOk
    (slice req 16 16)
  ((List.range 8).filter fun r => (w.ring r).role ≠ 0 ∧ (w.ring r).key = slice req 16 16).foldl State.endRole w

section
variable {s : State} {req : List Byte} (h : s.mailboxOpen req = true) (hc : s.inCrucible = false) (hs : 2 ≤ s.mbx.session)
  (hlen : 32 ≤ req.length) (hz : zeroBytes req 0 16 = true) (hf : s.audit.flashOk = true) {k : Key}
  (hk : s.mbx.keys.find? (fun x => x.id = slice req 16 16) = some k)
include h hc hs hlen hz hf hk

/-- The last installer key stays. -/
theorem mbxRevokeKey_last (hlast : k.role = 2 ∧ (s.mbx.keys.filter fun x => x.role = 2).length = 1) :
    mbxRevokeKey req s = (s.takeRequest 0x11 req).respond stConfig [] := by
  have hkeys : (s.takeRequest 0x11 req).mbx.keys = s.mbx.keys := rfl
  rw [mbxRevokeKey, mailbox_runs s 0x11 req false 2 32 _ _ h (.inl hc) hs hlen (by simp [hz])]
  simp only [State.auditable_taken hf, hkeys, hk, if_pos hlast]
  rfl

/-- Any other enrolled key goes, and with it the roles of its rings and its session. -/
theorem mbxRevokeKey_open (hlast : ¬ (k.role = 2 ∧ (s.mbx.keys.filter fun x => x.role = 2).length = 1)) :
    mbxRevokeKey req s =
      (if (s.keyRevoked req).mbx.session ≠ 0 ∧ (s.keyRevoked req).mbx.sessionKey = slice req 16 16 then (s.keyRevoked req).endSession 0
        else s.keyRevoked req).respond stOk [] := by
  have hkeys : (s.takeRequest 0x11 req).mbx.keys = s.mbx.keys := rfl
  rw [mbxRevokeKey, mailbox_runs s 0x11 req false 2 32 _ _ h (.inl hc) hs hlen (by simp [hz])]
  simp only [State.auditable_taken hf, hkeys, hk, if_neg hlast]
  rfl

end

/-- Settles O30: RELEASE, an enrolment with or without a claim, and a revocation that is refused or goes through. -/
theorem sessionsAndKeysChange : Obligations.SessionsAndKeysChange := by
  refine fun s req h => ⟨fun hs hlen hz => ?_, fun hc hlen hz hf hrole hright hdec hnew hfree => ?_,
    fun hc hs hlen hz hf k hk => ⟨fun hlast => ?_, fun hlast => ?_⟩⟩
  · rw [exec_release, mbxRelease_open h hs hlen hz]
  · rw [exec_enrollKey, mbxEnrollKey_open h hc hlen hz hf hrole hright hdec hnew hfree]
    rfl
  · rw [exec_revokeKey, mbxRevokeKey_last h hc hs hlen hz hf hk hlast]
  · rw [exec_revokeKey, mbxRevokeKey_open h hc hs hlen hz hf hk hlast]
    rfl

end Sys2Proof.Machine
end

section
/-! SUPPORT. Firmware commands of the mailbox, with the statement that it settles (15 R370, R371, R380). -/

namespace Sys2Proof.Machine

/-! ## A chunk of an image (R370, R371, log 143) -/

/-- The slot that a chunk goes into. -/
def Boot.stageSlot (b : Boot) : Nat := b.staging.getD b.stageTarget

/-- The image in that slot with the chunk in place. -/
def Boot.staged (b : Boot) (req : List Byte) : List Byte :=
  patch (if b.staging.isSome then (b.slot b.stageSlot).image else []) (u req 0 8) (slice req 128 (u req 8 4))

/-- The slot with an image: EMPTY until its last chunk, which makes it TRIAL where the image verifies and INVALID where it does not. -/
def stagedSlot (f : Fuses) (img : List Byte) (last : Bool) : FwSlot :=
  { image := img, svn := u img 12 4, keySlot := u img 24 1, factory := false,
    state := if !last then .empty else if fwVerifies f img then .trial else .invalid }

/-- The answer to a chunk: only the last chunk of an image that does not verify is refused. -/
def stagedStatus (f : Fuses) (img : List Byte) (last : Bool) : Nat := if last && !fwVerifies f img then stInvalid else stOk

/-- The boot record with the slot in place, the only TRIAL one if it is one. -/
def Boot.withStaged (b : Boot) (f : Fuses) (img : List Byte) (last : Bool) : Boot :=
  { (if last && fwVerifies f img then b.soleTrial b.stageSlot else b).setSlot b.stageSlot (stagedSlot f img last) with
    staging := if last then none else some b.stageSlot }

section
variable {s : State} {req : List Byte} (h : s.mailboxOpen req = true) (hs : 2 ≤ s.mbx.session) (hf : s.audit.flashOk = true)
include h hs hf

/-- STAGE_FIRMWARE with a chunk in range puts it in place, with its entry. -/
theorem mbxStageFirmware_open {last : Bool} (hlast : u req 12 1 = (if last then 1 else 0)) (hmin : 1 ≤ u req 8 4)
    (hmax : u req 8 4 ≤ 3968) (hlen : 128 + u req 8 4 ≤ req.length) (hend : u req 0 8 + u req 8 4 ≤ 96 * 2 ^ 20)
    (hz : zeroBytes req 13 115 = true) :
    let img := s.boot.staged req
    let st := stagedStatus s.fuses img last
    mbxStageFirmware req s = (State.auditMbx { s.takeRequest 0x20 req with boot := s.boot.withStaged s.fuses img last } 0x20 st
      (natLe 4 s.boot.stageSlot ++ natLe 4 (u img 12 4))).respond st
        (natLe 8 img.length ++ (if last then natLe 1 s.boot.stageSlot else [])) := by
  have hbit : bitOf (u req 12 1) 0 = last := by cases last <;> simp [hlast, bitOf]
  have hrange : ¬ (u req 8 4 = 0 ∨ 3968 < u req 8 4 ∨ 1 < u req 12 1 ∨ req.length < 128 + u req 8 4 ∨
      96 * 2 ^ 20 < u req 0 8 + u req 8 4) := by
    have : u req 12 1 ≤ 1 := by rw [hlast]; split <;> omega
    omega
  rw [mbxStageFirmware, mailbox_runs s 0x20 req true 2 128 _ _ h (.inr rfl) hs (by omega) (by simp [hz])]
  simp only [State.auditable_taken hf, if_neg hrange, hbit]
  cases last <;> rfl

/-- ADVANCE_SVN raises the SVN fuses to the ACTIVE slot's (R371). -/
theorem mbxAdvanceSvn_open (hc : s.inCrucible = false) {i : Nat} (hi : s.boot.activeSlot = some i) :
    let v := max s.fuses.svn (s.boot.slot i).svn
    mbxAdvanceSvn req s = (State.auditMbx { s.takeRequest 0x21 req with fuses := { s.fuses with svn := v } } 0x21 stOk
      (natLe 4 i ++ natLe 4 v)).respond stOk [] := by
  rw [mbxAdvanceSvn, mailbox_runs s 0x21 req false 2 0 _ _ h (.inl hc) hs (Nat.zero_le _) rfl]
  simp only [State.auditable_taken hf, State.takeRequest_boot, hi]
  rfl

/-- CLEAR_START_FAIL clears the counter of failed starts (R380). -/
theorem mbxClearStartFail_open : mbxClearStartFail req s =
    (State.auditMbx { s.takeRequest 0x22 req with boot := { s.boot with startFail := 0 } } 0x22 stOk []).respond stOk [] := by
  rw [mbxClearStartFail, mailbox_runs s 0x22 req true 2 0 _ _ h (.inr rfl) hs (Nat.zero_le _) rfl]
  simp only [State.auditable_taken hf]
  rfl

end

/-- Settles O31, command by command. -/
theorem firmwareCommandsAct : Obligations.FirmwareCommandsAct := by
  refine fun s req h hs hf => ⟨?_, fun i hc hi => ?_, ?_⟩
  · rintro ofs len last rfl rfl hlast hmin hmax hlen hend hz
    rw [exec_stageFirmware, mbxStageFirmware_open h hs hf hlast hmin hmax hlen hend hz]
    rfl
  · rw [exec_advanceSvn, mbxAdvanceSvn_open h hs hf hc hi]
  · rw [exec_clearStartFail, mbxClearStartFail_open h hs hf]

end Sys2Proof.Machine
end

section
/-! SUPPORT. Installer fields of BAR0 and the snoopers, with the statement that it settles (15 R384, R387, 16 R407, R408, R414). -/

namespace Sys2Proof.Machine

/-- An installer field without an installer session: ignored, counted, and entered as refused (R384, R387). -/
theorem installerWrite_refused {s : State} (offset value : Nat) (f : State → State) (h : s.mbx.session < 2) (hf : s.audit.flashOk = true) :
    s.installerWrite offset value f =
      s.rightsError.auditAppend 0x11 s.mbx.session stRights s.mbx.sessionKey (fieldObject offset value) := by
  have hcounted : s.rightsError.audit.flashOk = true := hf
  simp only [State.installerWrite, if_pos h, if_pos hcounted]
  rfl

/-- A word of the severity map is an installer field. -/
theorem State.severityWrite_field (s : State) {w : Nat} (v : Nat) (hw : w ≤ 9) :
    s.severityWrite w v = s.installerWrite (0x5000 + 8 * w) v fun t => t.setSevWord w v := if_pos hw

/-- So is the clear of the sticky fences. -/
theorem State.stickyWrite_clear (s : State) :
    s.stickyWrite 1 = s.installerWrite 0x6008 1 fun t => { t with boot := { t.boot with clearPending := true } } := rfl

/-- So is its cancellation. -/
theorem State.stickyWrite_cancel (s : State) :
    s.stickyWrite 2 = s.installerWrite 0x6008 2 fun t => { t with boot := { t.boot with clearPending := false } } := rfl

/-- Settles O43: under a session, without one, and the snoopers, which need none. -/
theorem installerFieldsNeedTheirSession : Obligations.InstallerFieldsNeedTheirSession := by
  intro s hb hf
  refine ⟨fun hs => ⟨fun w v hw => ?_, ?_, ?_⟩, fun hs => ⟨fun w v hw => ?_, ?_, ?_⟩, fun n v hn => ?_, fun n v hn => ?_⟩
  · rw [exec_severityMapWrite, onBar_live s _ hb, s.severityWrite_field _ hw, installerWrite_allowed s _ _ _ hs hf]
    rfl
  · rw [exec_clearSticky, onBar_live s _ hb, s.stickyWrite_clear, installerWrite_allowed s _ _ _ hs hf]
  · rw [exec_cancelClear, onBar_live s _ hb, s.stickyWrite_cancel, installerWrite_allowed s _ _ _ hs hf]
  · rw [exec_severityMapWrite, onBar_live s _ hb, s.severityWrite_field _ hw, installerWrite_refused _ _ _ hs hf]
  · rw [exec_clearSticky, onBar_live s _ hb, s.stickyWrite_clear, installerWrite_refused _ _ _ hs hf]
  · rw [exec_cancelClear, onBar_live s _ hb, s.stickyWrite_cancel, installerWrite_refused _ _ _ hs hf]
  · rw [exec_snooperRunWrite, onBar_live s _ hb, State.snooperWrite, if_neg (by simp [hn])]
    rfl
  · rw [exec_snooperRunWrite, onBar_live s _ hb, State.snooperWrite_fenced _ _ hn]

end Sys2Proof.Machine
end

section
/-! SUPPORT. What the registers of BAR0 read, and ENABLE of the rings, each with the statement that it settles (16 R397 to R414). -/

namespace Sys2Proof.Machine

/-! ## The block that answers a read outside crucible mode (R397, R398) -/

section
variable {s : State} (hc : s.inCrucible = false)
include hc

theorem State.readReg_status {o : Nat} (hlo : 0x1000 ≤ o) (hhi : o < 0x2000) : s.readReg o = s.readStatus (o - 0x1000) := by
  rw [State.readReg, if_neg (by omega), if_pos hhi, if_pos (.inl (by simp [hc]))]

theorem State.readReg_rings {o : Nat} (hlo : 0x2000 ≤ o) (hhi : o < 0x3000) : s.readReg o = s.readRings (o - 0x2000) := by
  rw [State.readReg, if_neg (by omega), if_neg (by omega), if_neg (by omega), if_neg (by omega), if_neg (by simp [hc]), if_pos hhi]

theorem State.readReg_telemetry {o : Nat} (hlo : 0xA000 ≤ o) (hhi : o < 0xB000) : s.readReg o = s.readTelemetry (o - 0xA000) := by
  rw [State.readReg, if_neg (by omega), if_neg (by omega), if_neg (by omega), if_neg (by omega), if_neg (by simp [hc])]
  iterate 8 rw [if_neg (by omega)]
  rw [if_pos hhi]

theorem State.readReg_snooper {o : Nat} (hlo : 0x10000 ≤ o) (hhi : o < 0x11FC0) :
    s.readReg o = s.readSnooper ((o - 0x10000) / 64) (o % 64) := by
  rw [State.readReg, if_neg (by omega), if_neg (by omega), if_neg (by omega), if_neg (by omega), if_neg (by simp [hc])]
  iterate 9 rw [if_neg (by omega)]
  rw [if_pos ⟨hlo, hhi⟩]

/-- The shadow registers of the pour sync block (R404). -/
theorem State.readReg_pourSync : s.readReg 0x3000 = nth s.regs.pourSync.shadow 0 ∧ s.readReg 0x3008 = nth s.regs.pourSync.shadow 1 := by
  simp [State.readReg, hc]

/-- COMMIT_STATUS of the defaults block (R397). -/
theorem State.readReg_defaultsStatus : s.readReg 0x40F8 = s.regs.defaults.statusReg := by simp [State.readReg, hc]

/-- The bound of crossings (R411). -/
theorem State.readReg_cdcTimeout : s.readReg 0x8000 = s.regs.cdcTimeout := by simp [State.readReg, hc]

/-! ## Registers that come in rows -/

/-- BASE of a submission ring (R402). -/
theorem State.readReg_ringBase {r : Nat} (hr : r < 8) : s.readReg (0x2000 + 32 * r) = (s.ring r).base := by
  rw [State.readReg_rings hc (by omega) (by omega), Nat.add_sub_cancel_left]
  unfold State.readRings
  rw [if_pos (by omega), if_pos (by omega), Nat.mul_div_cancel_left r (by decide)]

/-- CONTROL of a submission ring (R402). -/
theorem State.readReg_ringCtrl {r : Nat} (hr : r < 8) :
    s.readReg (0x2008 + 32 * r) =
      (s.ring r).log2 + (if (s.ring r).enable then 2 ^ 8 else 0) + (s.ring r).role * 2 ^ 9 + (s.ring r).head * 2 ^ 16 +
        (s.ring r).tail * 2 ^ 32 + (s.ring r).dbErr * 2 ^ 48 := by
  have hplace : (0x2008 + 32 * r - 0x2000) / 0x20 = r := by omega
  rw [State.readReg_rings hc (by omega) (by omega)]
  unfold State.readRings
  rw [if_pos (by omega), hplace, if_neg (by omega), if_pos (by omega)]

/-- The first register of a snooper that no fence covers: mode, filter and mask (R414). -/
theorem State.readReg_snooperMode {n : Nat} {x : Snooper} (hn : n < 127) (hf : s.fencedReg (snooperUnit n) = false)
    (hx : s.regs.snoopers[n]? = some x) : s.readReg (0x10000 + 64 * n) = x.mode + x.filt * 2 ^ 16 + x.mask * 2 ^ 32 := by
  have hfirst : (0x10000 + 64 * n) % 64 = 0 := by omega
  rw [State.readReg_snooper hc (by omega) (by omega), Nat.add_sub_cancel_left, Nat.mul_div_cancel_left n (by decide), hfirst,
    State.readSnooper, if_neg (by simp [hf]), List.getD_eq_getElem?_getD, hx, Option.getD_some]

end

/-! ## Power-on reset -/

/-- The module leaves its power-on reset outside crucible mode (R400). -/
theorem reset_inCrucible : State.reset.inCrucible = false := rfl

/-- No fence stands after reset (R344). -/
theorem reset_fencedReg (c : Nat) : State.reset.fencedReg c = false := by
  simp [State.fencedReg, coveredBy, State.reset, fences0]

/-- Every submission ring is in its reset state (R402). -/
theorem reset_ring {r : Nat} (hr : r < 8) : State.reset.ring r = ring0 := List.getD_replicate _ hr

/-- Settles O8, block by block. -/
theorem resetRegisterValues : Obligations.ResetRegisterValues := by
  have hc := reset_inCrucible
  have status (o : Nat) (h : 0x1000 ≤ o ∧ o < 0x2000) := State.readReg_status hc h.1 h.2
  have rings (o : Nat) (h : 0x2000 ≤ o ∧ o < 0x3000) := State.readReg_rings hc h.1 h.2
  have telemetry (o : Nat) (h : 0xA000 ≤ o ∧ o < 0xB000) := State.readReg_telemetry hc h.1 h.2
  obtain ⟨hfirstWord, hsecondWord⟩ := State.readReg_pourSync hc
  refine ⟨status 0x1018 (by decide), status 0x1028 (by decide), status 0x1030 (by decide), status 0x1100 (by decide), fun r hr => ⟨?_, ?_⟩,
    rings 0x2108 (by decide), rings 0x2118 (by decide), rings 0x2120 (by decide), rings 0x2128 (by decide), hfirstWord, hsecondWord,
    State.readReg_defaultsStatus hc, State.readReg_cdcTimeout hc, telemetry 0xA000 (by decide), telemetry 0xA008 (by decide),
    fun n hn => ?_⟩
  · rw [State.readReg_ringBase hc hr, reset_ring hr]
    rfl
  · rw [State.readReg_ringCtrl hc hr, reset_ring hr]
    rfl
  · rw [State.readReg_snooperMode hc hn (reset_fencedReg _) (List.getElem?_replicate_of_lt hn)]
    rfl

/-! ## ENABLE (R403) -/

/-- A ring whose indices ENABLE has cleared, on or left off. -/
def State.startRing (s : State) (sel : RingSel) (on : Bool) : State :=
  match sel with
  | .sq r => s.setRing r fun q => { q with head := 0, tail := 0, fetching := false, fetched := [], busy := false, enable := on }
  | .cq => { s with port := { s.port with cq := { s.port.cq with head := 0, tail := 0, used := 0, phase := true, enable := on } } }
  | .eq => { s with port := { s.port with eq := { s.port.eq with head := 0, tail := 0, used := 0, phase := true, enable := on } } }

/-- The records that a record ring holds go out (log 48); a submission ring holds none. -/
def State.writeHeld (s : State) : RingSel → State
  | .sq _ => s
  | .cq => s.flushCq s.port.cqHeld.length
  | .eq => s.flushEq s.port.eqHeld.length

section
variable {s : State} (sel : RingSel)

/-- ENABLE of a ring that is on changes nothing. -/
theorem State.enableRing_on (h : s.ringOn sel = true) : s.enableRing sel = s := if_pos h

/-- An enable that the rules of R403 allow. -/
theorem State.enableRing_allowed (h : s.ringOn sel = false) (hok : s.enableOk sel = true) :
    s.enableRing sel = (s.startRing sel true).writeHeld sel := by
  cases sel <;> simp [State.enableRing, h, hok, State.startRing, State.writeHeld]

/-- An enable that they refuse. -/
theorem State.enableRing_refused (h : s.ringOn sel = false) (hok : s.enableOk sel = false) :
    s.enableRing sel = (s.startRing sel false).accessError := by
  cases sel <;> simp [State.enableRing, h, hok, State.startRing]

/-- Clearing ENABLE of a submission ring that is on. -/
theorem State.disableRing_on {r : Nat} (h : (s.ring r).enable = true) :
    s.disableRing r =
      let w := (s.endRole r).setRing r fun q => { q with enable := false, fetching := false, fetched := [] }
      { w with port := { w.port with hostAcc := w.port.hostAcc.filter fun a => a.purpose != .descriptor r } } :=
  if_neg (by simp [h])

/-- Clearing ENABLE of one that is off changes nothing. -/
theorem State.disableRing_off {r : Nat} (h : (s.ring r).enable = false) : s.disableRing r = s := if_pos (by simp [h])

/-- The rules of R403 for a submission ring: its number, its size, its base, and no more entries than an enabled record ring has. -/
theorem State.enableOk_sq {r : Nat} :
    s.enableOk (.sq r) = true ↔
      r < 8 ∧ 6 ≤ (s.ring r).log2 ∧ (s.ring r).log2 ≤ 16 ∧ (s.ring r).base % (64 * 2 ^ (s.ring r).log2) = 0 ∧
        (s.port.cq.enable = true → (s.ring r).log2 ≤ s.port.cq.log2) ∧ (s.port.eq.enable = true → (s.ring r).log2 ≤ s.port.eq.log2) := by
  cases hcq : s.port.cq.enable <;> cases heq : s.port.eq.enable <;> simp [State.enableOk, hcq, heq, and_assoc]

/-- RING_ENABLE, while BAR0 answers, is the write of ENABLE. -/
theorem exec_ringEnable_live (h : s.barLive = true) : exec (.ringEnable sel) s = .next (s.done (s.enableRing sel)) := by
  rw [exec_ringEnable, onBar_live s _ h]

/-- So is RING_DISABLE. -/
theorem exec_ringDisable_live {r : Nat} (h : s.barLive = true) : exec (.ringDisable r) s = .next (s.done (s.disableRing r)) := by
  rw [exec_ringDisable, onBar_live s _ h]

end

/-- Settles O42: each kind of ring turned on and refused, a ring that is on, and a submission ring turned off. -/
theorem ringsTurnOnAndOff : Obligations.RingsTurnOnAndOff := by
  intro s hb
  simp only [fun sel => exec_ringEnable_live sel hb, exec_ringDisable_live hb]
  refine ⟨fun r h => ⟨fun hok => ?_, fun hok => ?_⟩, fun h => ⟨fun hok => ?_, fun hok => ?_⟩, fun h => ⟨fun hok => ?_, fun hok => ?_⟩,
    fun sel h => ?_, fun r h => ?_, fun r h => ?_, fun r => State.enableOk_sq⟩
  · rw [State.enableRing_allowed (.sq r) h hok]
    rfl
  · rw [State.enableRing_refused (.sq r) h hok]
    rfl
  · rw [State.enableRing_allowed .cq h hok]
    rfl
  · rw [State.enableRing_refused .cq h hok]
    rfl
  · rw [State.enableRing_allowed .eq h hok]
    rfl
  · rw [State.enableRing_refused .eq h hok]
    rfl
  · rw [State.enableRing_on sel h]
  · rw [State.disableRing_on h]
  · rw [State.disableRing_off h]

end Sys2Proof.Machine
end

section
/-! SUPPORT. The one command that can stop the model, with the statement that it settles (17 R420). -/

namespace Sys2Proof.Machine

/-- A command answers a next state, unless it is a POWER_ON above the absolute maximum. -/
theorem exec_answers {c : Instr} (s : State) (h : ∀ v, c = .powerOn v → v ≤ 600) : ∃ t, exec c s = .next t := by
  cases c
  case powerOn v => exact ⟨_, exec_powerOn s v (h v rfl)⟩
  all_goals exact ⟨_, rfl⟩

/-- Settles O3: POWER_ON is the only command with a fault, and it has one above the maximum. -/
theorem onlyTheInputLimitStops : Obligations.OnlyTheInputLimitStops :=
  fun _ s => ⟨exec_answers s, fun v hv => exec_powerOn_above s v hv⟩

end Sys2Proof.Machine
end

section
/-! SUPPORT. The terms of the stretch controller, with the statement that it settles (17 R428, R429). -/

namespace Sys2Proof.Machine

/-! ## The power term (R428) -/

section
variable {p cap : Nat} (L sp : Nat)

theorem powerTerm_above (h : cap < p) : powerTerm L p cap sp = sp + L / 16 := if_pos h

theorem powerTerm_below (h : p + 25 < cap) : powerTerm L p cap sp = sp - L / 64 := by
  rw [powerTerm, if_neg (by omega), if_pos h]

theorem powerTerm_within (hp : p ≤ cap) (hcap : cap ≤ p + 25) : powerTerm L p cap sp = sp := by
  rw [powerTerm, if_neg (by omega), if_neg (by omega)]

end

/-! ## A die's term (R428) -/

section
variable {temp start limit : Nat} (L st : Nat)

/-- A die that reached its limit asks for the longest stretch, and does so until it is below its start. -/
theorem dieTerm_held : dieTerm L temp start limit st true = (3 * L, decide (start ≤ temp)) := by
  simp [dieTerm, ← decide_not]

theorem dieTerm_limit (hs : start < limit) (h : limit ≤ temp) : dieTerm L temp start limit st false = (3 * L, true) := by
  have hstart : ¬ temp < start := by omega
  simp [dieTerm, h, hstart]

theorem dieTerm_above (h : start < temp) (hl : temp < limit) : dieTerm L temp start limit st false = (st + L / 16, false) := by
  have hlimit : ¬ limit ≤ temp := Nat.not_le.mpr hl
  have hstart : ¬ temp < start := by omega
  simp [dieTerm, h, hlimit, hstart]

theorem dieTerm_below (hs : start < limit) (h : temp + 2 < start) : dieTerm L temp start limit st false = (st - L / 64, false) := by
  have hlimit : ¬ limit ≤ temp := by omega
  have hstart : ¬ start < temp := by omega
  simp [dieTerm, h, hlimit, hstart]

theorem dieTerm_within (hs : start < limit) (h : start ≤ temp + 2) (ht : temp ≤ start) :
    dieTerm L temp start limit st false = (st, false) := by
  have hlimit : ¬ limit ≤ temp := by omega
  have hstart : ¬ start < temp := by omega
  have hlow : ¬ temp + 2 < start := by omega
  simp [dieTerm, hlimit, hstart, hlow]

end

/-! ## Their maximum (R428, R429) -/

section
variable {p : Power} (L : Nat)

theorem Power.newStretch_le : p.newStretch L ≤ 3 * L := Nat.min_le_left ..

/-- Lost flow or a leak asks for the longest stretch. -/
theorem Power.newStretch_longest (h : p.flowLost = true ∨ p.leak = true) : p.newStretch L = 3 * L := by
  rw [Power.newStretch, if_pos (by simpa using h)]
  omega

/-- Without either, the other terms decide. -/
theorem Power.newStretch_dry (hf : p.flowLost = false) (hl : p.leak = false) :
    p.newStretch L = min (3 * L) (max p.sp (p.st.foldl max 0)) := by
  simp [Power.newStretch, hf, hl]

end

/-- Settles O39: the terms in the order of the update, then each term by its cases. -/
theorem stretchFollowsItsTerms : Obligations.StretchFollowsItsTerms := by
  refine ⟨fun s t h => ?_,
    fun L p cap sp => ⟨powerTerm_above L sp, powerTerm_below L sp, powerTerm_within L sp⟩,
    fun L temp start limit st hs => ⟨dieTerm_held L st, dieTerm_limit L st hs, dieTerm_above L st, dieTerm_below L st hs,
      dieTerm_within L st hs⟩,
    fun p L => ⟨Power.newStretch_le L, Power.newStretch_longest L, Power.newStretch_dry L⟩⟩
  rw [exec_stretchUpdate, State.telemetry, if_neg (by simp [h])]

end Sys2Proof.Machine
end
